-- ==== Sys2Proof/Word.lean ====
section
/-! DEFINITION. The word types of the device and the plainest arithmetic on them: 32-bit register words (R50), 10-bit
line and trunk words (R211), 20-bit engine words (R412), bytes; saturating sums and two's complement codes. -/

namespace Sys2Proof

/-- A 32-bit register word, one BAR0 access unit (R50). -/
abbrev Word := BitVec 32

/-- The native 10-bit word of samples, slots and overhead (R2). -/
abbrev W10 := BitVec 10

/-- A 20-bit word of a Needle engine (R412). -/
abbrev W20 := BitVec 20

/-- A 24-bit Needle instruction word (R416). -/
abbrev W24 := BitVec 24

/-- A byte. -/
abbrev Byte := BitVec 8

/-- The larger sum that a saturating counter of `w` bits can show. -/
def satAdd (w a b : Nat) : Nat := min (a + b) (2 ^ w - 1)

/-- The value of a two's complement code of `w` bits. -/
def signedOf (w v : Nat) : Int := if v < 2 ^ (w - 1) then (v : Int) else (v : Int) - (2 ^ w : Nat)

/-- The two's complement code of `w` bits of a value, saturating at the ends of the range. -/
def codeOf (w : Nat) (x : Int) : Nat :=
  let lo : Int := -((2 ^ (w - 1) : Nat) : Int)
  let hi : Int := ((2 ^ (w - 1) : Nat) : Int) - 1
  let y := if x < lo then lo else if hi < x then hi else x
  if y < 0 then (y + ((2 ^ w : Nat) : Int)).toNat else y.toNat

/-- Ceiling division. -/
def ceilDiv (a b : Nat) : Nat := (a + b - 1) / b

end Sys2Proof
end

