-- ==== Sys2Proof/Data.lean ====
section
/-! DEFINITION. The data that commands bring: converter samples, calibration results, received frames, mate frames, flash records. What
is measured outside the digital logic (delays, temperatures, voltages) comes as operands (log entry 4). -/

namespace Sys2Proof

/-! ### Data that commands bring -/

/-- The measured port items of one calibration pass (R465): 0.25 dBFS, 0.25 dB, slicer and sample codes. -/
structure PortItems where
  floor : Int
  noise : Int
  ofs   : List Int
  dc    : Int
  deriving DecidableEq, Repr

/-- The results of a calibration: the smallest taps found per element and pass (elements not listed gave `elemDflt`), the port
items per port and pass, Tj at the start, the measured throughput of each lane in kS/s (R465 to R468, R473, R476). -/
structure CalData where
  elemDflt : List Nat
  elems    : List (Nat × List Nat)
  ports    : List (Nat × List PortItems)
  tj       : Int
  tput     : List Nat
  deriving DecidableEq, Repr

/-- An error on a lane of an UP link (R88). -/
inductive LinkLoss where
  | syncHeaders (lane bad : Nat)  -- invalid sync headers within 64 blocks, 16 of which take the link down
  | marker (lane : Nat)        -- the extended multiblock marker wrong four times in a row
  | elastic (lane : Nat)       -- elastic buffer underflow or overflow
  deriving DecidableEq, Repr


/-- A protection selector (R332). -/
inductive SelRef where
  | group (port : Fin 512)      -- the group of a working port
  | entry (index : Fin 32768)   -- the tributary selector of an entry of the active page
  | pair (p : Fin 4)            -- a trunk pair
  deriving DecidableEq, Repr

/-- The register word a protection command is written to (R349 to R351). -/
inductive ProtRef where
  | port (n : Fin 512)
  | trib (t : Fin 16384)
  | pair (p : Fin 4)
  deriving DecidableEq, Repr

/-- A slip buffer (R283). -/
inductive SlipRef where
  | port (n : Fin 512)
  | trunk (l : Fin 8)
  deriving DecidableEq, Repr

/-- A stage that finishes a port-frame (R20). RINSE brings the port-frame's samples, as 12-bit words (R84), oldest first; `index` numbers
the last of them from 0 at the LEMC boundary that the link's SYSREF edge marked (R89, R90). -/
inductive StageData where
  | rinse (index : Nat) (samples : List Nat)
  | spin | wring | darn | hem | label | slip | pleat
  | fold | encoder | transmit
  deriving DecidableEq, Repr

/-! ### The record's tables, which a checkpoint also carries (R366, R375, R393) -/

namespace Machine

/-- A stripe of a rank (R366): its segment, its place in the ring in blocks, the period's start on the writer's TIMEBASE, the
writer's EPOCH where it was mirrored, and the streams whose blocks are written. -/
structure Stripe where
  seg   : Nat
  off   : Nat
  start : Nat
  epoch : Option Nat
  have? : List Nat
  deriving DecidableEq, Repr

/-- A segment: its number and its layout, the stream keys in order (R366). -/
structure Segment where
  num    : Nat
  layout : List Nat
  deriving DecidableEq, Repr

/-- The ring of one rank (R366): segments and stripes oldest first, and the start of the latest period lost to overwriting or
release. -/
structure RankSt where
  cursor  : Nat
  next    : Nat
  last    : List Nat
  segs    : List Segment
  stripes : List Stripe
  lost    : Option Nat
  deriving DecidableEq, Repr

def RankSt.empty : RankSt := ⟨0, 0, [], [], [], none⟩

/-- What the device latched of a clip (R375). -/
structure Clip where
  offset   : Nat
  length   : Nat
  verified : Bool
  deriving DecidableEq, Repr

def Clip.none : Clip := ⟨0, 0, false⟩

/-- A journal entry as received (R395, R396). -/
structure JrnIn where
  seq     : Nat
  alive   : Nat
  kind    : Nat
  payload : List Nat
  ok      : Bool          -- its CRC-32 passes
  deriving DecidableEq, Repr

/-! ### The state of signal processing that is saved (R30, R121, R176, R393) -/

/-- A complex number in fixed point. -/
structure Cx where
  re : Int
  im : Int
  deriving DecidableEq, Repr

/-- What SPIN saves at a multiframe boundary (R30, R121): the clock ratio, the start of the next symbol, the canceller's taps. -/
structure SpinSave where
  eps  : Int
  next : Option Int
  nec  : List Cx
  deriving DecidableEq, Repr

def SpinSave.reset : SpinSave := ⟨0, none, List.replicate 64 ⟨0, 0⟩⟩

/-- The adaptive state of WRING (R174 to R176), saved at multiframe boundaries for the restart after DOWN. -/
structure PamEq where
  ec   : List (List Int)   -- echo canceller: per tap the coefficients of the four samples of a symbol period, 2^24 is 1
  ffe  : List Int          -- 32 taps
  dfe  : List Int          -- 24 taps
  gain : Int               -- 2^16 is 1
  next : Option Int        -- the start of the next symbol period, in 1/65,536 of 1/64 symbol
  eps  : Int               -- the clock ratio, in 1/65,536 of 1/16 ppm
  deriving DecidableEq, Repr

/-- An equalizer at its start: the main cursor of the feed-forward equalizer at tap 8. -/
def PamEq.reset : PamEq :=
  { ec := List.replicate 192 (List.replicate 4 0), ffe := List.replicate 8 0 ++ (2 ^ 24 :: List.replicate 23 0), dfe := List.replicate 24 0, gain := 2 ^ 16,
    next := none, eps := 0 }

/-- What a checkpoint saves of an enabled line port (R393): its line code, its wander phase, its grant map, and the saved state of its
cancellers, equalizers and timing on the writer's TIMEBASE. -/
structure LineSave where
  port : Nat
  code : Nat
  phi  : Option Nat
  map  : List Nat
  full : Bool
  spin : SpinSave
  eq   : PamEq
  deriving DecidableEq, Repr

/-- What a checkpoint saves of a selector (R393): kind 0 group, 1 entry, 2 pair; its position, requests and restoration (0 none, 1 WTR,
2 DNR). -/
structure SelSave where
  kind     : Nat
  index    : Nat
  onProt   : Bool
  localReq : Nat
  top      : Nat
  own      : Bool
  msProt   : Bool
  restore  : Nat
  deriving DecidableEq, Repr

/-- The body of a checkpoint section (R393). Register and context fields stand by their keys. -/
inductive CkptBody where
  | regs (xs : List (Nat × Nat))
  | cmem (active : Nat) (xs : List (Nat × Nat))
  | contexts (xs : List (Nat × Nat))
  | lines (xs : List LineSave)
  | selectors (xs : List SelSave)
  | needle (crc : Nat) (fields shared : List (Nat × Nat))
  | hamper (ranks : List (Nat × RankSt)) (delays gens : List (Nat × Nat)) (clips : List (Nat × Clip))
  | misc (xs : List (Nat × Nat))
  deriving DecidableEq, Repr

end Machine

/-! ### Mate frames (R388 to R397) -/

/-- The payload of a STATUS frame (R390). -/
structure StatusFrame where
  unit      : Nat
  pair      : Nat
  epoch     : Nat
  health    : Nat
  gen       : Nat
  jseq      : Nat
  tb        : Nat
  siRev     : Nat
  grade     : Nat
  secondary : Bool
  resolving : Bool
  claim     : Bool
  deriving DecidableEq, Repr

/-- What a CKPT_DATA frame completes (R389, R394): the 11 words of the slot's header, or a section with its number, whether its CRC-32
passes, and its body. -/
inductive CkptData where
  | head (words : List Nat)
  | part (id : Nat) (ok : Bool) (body : Machine.CkptBody)
  deriving DecidableEq, Repr

/-- A stream of a mirrored layout (R364, R397): its key, station, port and label. -/
structure MirStream where
  key   : Nat
  stn   : Nat
  port  : Nat
  label : Nat
  deriving DecidableEq, Repr

/-- A rank of a mirrored layout: its segment, the place of the period's stripe, its streams in order. -/
structure MirRank where
  rank    : Nat
  seg     : Nat
  off     : Nat
  streams : List MirStream
  deriving DecidableEq, Repr

/-- A MIRROR frame (R397): the segment layout at a period boundary with the period's start, EPOCH, MF_NUM and WALLCLOCK; or 16 words per
stream from system frame `first` on, each word + 1,024 held + 2,048 substituted + 4,096 failed + 8,192 × kind (0 data, 1 IDLE, 2 AIS). -/
inductive MirData where
  | layout (start epoch mfNum wall : Nat) (ranks : List MirRank)
  | words (first : Nat) (ws : List (Nat × List Nat))
  deriving DecidableEq, Repr

/-! ### Boot records (R68 to R73) -/

/-- What a read of the flash during BOOT found: 32-bit words, little-endian (R69 to R73). -/
inductive BootItem where
  | sfdp                                            -- SFDP read, and the flash switched to octal DTR
  | header (words : List Nat)                       -- a copy's header with its directory, as read (R70)
  | absent                                          -- the copy's directory lists no record of the TYPE
  | record (words : List Nat) (sig : Bool)          -- a record from its header on, and whether the signature behind it passes
  | journal (entries : List (Nat × List Nat))       -- the entries of the journal area in the order they were appended: byte offset, words
  deriving DecidableEq, Repr

end Sys2Proof
end

