-- ==== Sys2Proof/Syntax.lean ====
section
/-! DEFINITION. The commands of the device: what the host, the board, the stations, the trunks, the partner unit and the
device's own engines present to it, one constructor per row of the table of operations and events, with the data each brings. -/

namespace Sys2Proof

/-- A command: one constructor per row of the table of operations and events. -/
inductive Instr where
  /-- R26: RESET_N is driven low and the device enters RESET from any state. -/
  | resetNLow
  /-- R15: RESET_N is released; TIMEBASE is set to 0 and strap sampling begins. -/
  | resetNRelease
  /-- R96: the 1 ms strap majority filter ends, the straps are latched and the device enters BOOT. -/
  | strapFilterEnd (pcie test src role : Fin 101)
  /-- R71: A flash header or boot record finishes loading and checking, and BOOT advances to its next BOOT_STEP. -/
  | flashRecordLoaded (item : BootItem)
  /-- R71: A header read exceeds 10 ms or a record read exceeds 100 ms, so it fails and the other copy is tried. -/
  | flashReadTimeout
  /-- R478: power-up calibration finishes, CAL_COUNT is journalled and the device enters READY. -/
  | powerupCalDone (data : CalData)
  /-- R64: the 10 us internal reset of CMD_STATE(RESET) ends and the device restarts strap sampling and BOOT. -/
  | internalResetEnd
  /-- R49: PERST# is asserted, so the endpoint resets, the CMD basket is flushed and ring writing stops. -/
  | perstAssert
  /-- R49: the PCIe endpoint returns after PERST#, and PERST_SEEN is set. -/
  | pcieEndpointReturn
  /-- R76: the PCIe link rate or width changes or an AER error is logged, which sets the PCIE event. -/
  | pcieLinkChange (width : Fin 4) (rate : Fin 5) (aer : Bool)
  /-- R52: A BAR0 write to a register or context field that has no row of its own takes effect, with range handling. -/
  | registerWrite (addr : Fin 67108864) (size : Fin 4) (value : BitVec 64)
  /-- R16: A read of DEV.TIMEBASE_LO returns the low half and latches the high half of TIMEBASE. -/
  | timebaseLoRead
  /-- R56: A 1 written to CTRL.SOFT_RESET starts the reset of the block, first stopping a PORT page in RUN. -/
  | softResetWrite (addr : Fin 67108864) (value : Word)
  /-- R56: the soft reset completes within 10 us and SOFT_RESET reads 0. -/
  | softResetDone (addr : Fin 67108864)
  /-- R50: A write of one half of a connection entry is staged, and the entry is committed when both halves are present. -/
  | cmemHalfWrite (page : Fin 2) (entry : Fin 32768) (high : Bool) (value : Word)
  /-- R59: host software acknowledges an MSI-X vector, and the message is resent if its leaves are still 1. -/
  | vecAckWrite (value : Word)
  /-- R59: A masked vector is unmasked and its pending message is sent. -/
  | msixUnmask (vector : Fin 128)
  /-- R450: A write to the CMD basket slot window opens, extends or pushes a command item. -/
  | cmdSlotWrite (word : Fin 4096) (value : Word)
  /-- R63: the device takes the next command item from the CMD basket when fewer than 512 commands are in flight. -/
  | commandTake
  /-- R314: the command schedules a swap of connection pages at the next system multiframe swap point. -/
  | cmdPageSwap (tag : Fin 4096)
  /-- R31: the command starts a DISABLED port if the sample load stays within the programme ceiling. -/
  | cmdPortStart (tag : Fin 4096)
  /-- R30: the command stops a port, which becomes DISABLED with its defects cleared. -/
  | cmdPortStop (tag : Fin 4096)
  /-- R39: the command starts a programme change unless R39 refuses it. -/
  | cmdProgramme (tag : Fin 4096)
  /-- R40: the regulator reports VDD_CORE within 10 mV of the target, and the next phase of the programme change begins. -/
  | vddCoreSettled (millivolt : Nat)
  /-- R40: every matched-delay element moves one tap toward the new programme's value in this frame. -/
  | progTapWalkStep
  /-- R40: at the multiframe boundary the new programme's parameters take effect, and the change completes. -/
  | progParamApply
  /-- R41: VDD_CORE does not reach its target within 5 ms, so the change is undone and completes with BUSY. -/
  | avsTimeout
  /-- R477: an AVSBus voltage reading completes and is checked against the target and the VDD_RANGE limits. -/
  | avsRead (reading : Option Nat)
  /-- R479: the command starts calibration of the selected scope and ports. -/
  | cmdCalRun (tag : Fin 4096)
  /-- R479: the calibration run ends, CAL_COUNT increments and the device returns to its previous state. -/
  | calRunDone (data : CalData)
  /-- R500: the command starts a BIST run of MBIST slices and selected LBIST partitions in MAINT. -/
  | cmdBist (tag : Fin 4096)
  /-- R405: the command starts a checkpoint at the next system multiframe boundary. -/
  | cmdCkptForce (tag : Fin 4096)
  /-- R404: the command hands active service over to the peer, or takes it over at a standby. -/
  | cmdSwitchover (tag : Fin 4096)
  /-- R369: the command copies record blocks of one stream over a time span into host memory. -/
  | cmdRecExtract (tag : Fin 4096)
  /-- R370: an extraction finishes copying and checking its blocks and completes with its counts. -/
  | extractDone (tag : Fin 4096) (ue : List Nat)
  /-- R376: the command starts or stops playback of a clip on a play channel. -/
  | cmdPlay (tag : Fin 4096)
  /-- R376: the play's first word enters the walk of the first system frame 250 us after the command starts, and the command completes. -/
  | playStart (tag : Fin 4096)
  /-- R35: the command applies the written placement pins at the next multiframe boundary. -/
  | cmdPlaceApply (tag : Fin 4096)
  /-- R73: the command writes host data to a flash copy or to the free area. -/
  | cmdFlashWrite (tag : Fin 4096)
  /-- R73: A flash write finishes with its read-back, which sets the FLASH event on failure. -/
  | flashWriteDone (ok : Bool)
  /-- R73: A device journal write finishes, and a failed read-back raises the FLASH event. -/
  | journalWriteDone (ok : Bool)
  /-- R26: the command requests a device state transition, including the internal reset. -/
  | cmdState (tag : Fin 4096)
  /-- R265: the command requests a PM snapshot of the given KIND at the next PM second boundary. -/
  | cmdPmSnapshot (tag : Fin 4096)
  /-- R265: 48 frames after the boundary, the accumulated counts are copied into the bank and the command completes. -/
  | pmSnapshotCopy
  /-- R26: after a BIST run, MAINT returns to READY at the first moment no command is in flight. -/
  | maintAutoExit
  /-- R270: A system frame boundary passes; trunk frames and STATUS frames are sent and per-frame judgements run. -/
  | systemFrameBoundary
  /-- R270: A system multiframe boundary passes; per-multiframe work such as pleater decisions and budgets runs. -/
  | systemMultiframeBoundary
  /-- R75: at every 500th system multiframe WALLCLOCK increments and a PM second ends. -/
  | wallclockTick
  /-- R234: at a port's downstream multiframe boundary FOLD takes the transmit window and SIG_TX, and the start-up actions due there run. -/
  | downstreamMfBoundary (port : Fin 512)
  /-- R20: A lane stage finishes a port-frame, stamps it and compares the stamp with its deadline. -/
  | stageFinish (port : Fin 512) (stage : StageData)
  /-- R23: A receive port-frame still in its lane at the next frame's deadline is abandoned. -/
  | portFrameAbandon (port : Fin 512) (rinsing : Option Nat)
  /-- R34: at the switch frame SORT begins copying a moving port's context to the target lane. -/
  | portMoveSwitch (port : Fin 512)
  /-- R34: the port context copy ends, the target lane starts frame F and the move is counted. -/
  | contextCopyDone (port : Fin 512)
  /-- R24: after the last planned migration, the overrun lane is reset and its remaining ports go DOWN. -/
  | laneResetStart (lane : Fin 16)
  /-- R24: the one-frame lane reset ends. -/
  | laneResetEnd (lane : Fin 16)
  /-- R38: sixty seconds pass without a further LANE_OVERRUN, so the overrun advice ends. -/
  | overrunAdviceExpire
  /-- R30: A port's last DEADLINE_MISS leaves the 8,000-frame window, and it returns from DEGRADED to UP if SD is clear. -/
  | portMissWindowClear (port : Fin 512)
  /-- R88: enabling a link page starts SYNCING, and disabling it stops the link. -/
  | jlaneEnableWrite (lane : Fin 48) (value : Word)
  /-- R88: all lanes lock and deskew, and the link reaches UP. -/
  | linkSyncDone (link : Fin 32)
  /-- R88: the link has not reached UP within SYNC_TIMEOUT, so it goes to FAILED and raises LINK_SYNC_FAIL. -/
  | linkSyncTimeout (link : Fin 32)
  /-- R88: A FAILED link retries synchronisation 100 ms later. -/
  | linkRetry (link : Fin 32)
  /-- R88: sync header, marker or elastic buffer errors return an UP link to SYNCING. -/
  | linkDown (link : Fin 32) (why : LinkLoss)
  /-- R88: A multiblock fails its CRC-12, which is counted per lane. -/
  | jesdCrc12Error (lane : Fin 48)
  /-- R89: A SYSREF edge sets or checks the link's LEMC phase. -/
  | sysrefEdge (link : Fin 32) (frac : Fin 65536)
  /-- R92: A sample not arrived 2 us after its expected stamp is filled with 0. -/
  | sampleFill (port : Fin 512) (first : Nat) (count : Nat)
  /-- R87: A device-managed AFE SPI transaction (ID read, OWNER or gain write) completes. -/
  | afeSpiDone (master : Fin 4) (rx : Nat)
  /-- R97: A filtered rising edge of FSYNC_IN is judged good or bad against the reference. -/
  | fsyncInEdge (lowBefore highAfter : Nat)
  /-- R97: no accepted edge arrives by 20,484 ticks, so the period is bad and the reference advances. -/
  | fsyncPeriodTimeout
  /-- R98: A 1 ms clock-count window ends, and REFCLK and JREFCLK are checked for drift. -/
  | refclkCountWindow (refTicks : Nat) (jrefTicks : Nat)
  /-- R98: no REFCLK edge arrives for 1 us, so REFCLK_STOP is raised as FATAL. -/
  | refclkWatchdog
  /-- R517: A filtered GPIO input change updates GPIO_IN and may set GPIO_CHANGED. -/
  | gpioInputChange (pin : Fin 16) (level : Bool)
  /-- R99: A PORT_GAIN word write starts managed SPI traffic for each changed or failed byte. -/
  | portGainWrite (word : Fin 128) (value : Word)
  /-- R100: the 100 us read-back of RX_GAIN confirms the code or keeps waiting. -/
  | gainReadback (port : Fin 512) (code : Nat) (settled : Bool)
  /-- R100: no successful read-back within 2 ms fails the gain, and GAIN_FAIL is raised. -/
  | gainReadbackTimeout (port : Fin 512)
  /-- R104: every 16 multiframes GAIN_ADVICE is recomputed for each port. -/
  | gainAdviceUpdate (port : Fin 512)
  /-- R105: setting or clearing HOLD requests that a master hold its managed traffic, or releases it. -/
  | afecHoldWrite (master : Fin 4) (value : Word)
  /-- R105: the master's current managed transaction ends, and HELD is set. -/
  | spiHeld (master : Fin 4)
  /-- R108: writing GO starts a raw 24-bit SPI transaction. -/
  | afecRawGo (value : Word)
  /-- R108: A raw SPI transaction ends and RAW_RX holds the frame received. -/
  | rawSpiDone (rx : Nat)
  /-- R119: SPIN demodulates one symbol interval of a chirp port, and the correlator judges it. -/
  | chirpSymbolRx (port : Fin 512) (ctx : Option Bool)
  /-- R128: no upstream preamble is accepted within ACT_WAIT, so the offer fails. -/
  | offerActWaitExpire (port : Fin 512)
  /-- R128: the port has not reached UP 64 ms after the preamble was accepted, so the offer fails. -/
  | offerUpTimeout (port : Fin 512)
  /-- R151: an upstream burst header is decoded and settled against its window. -/
  | burstHeaderRx (port : Fin 512) (fork : Bool)
  /-- R152: A burst payload is decoded, its BCW checked and its frames passed to HEM. -/
  | burstPayloadRx (port : Fin 512) (fork : Bool)
  /-- R152: A granted window ends without an accepted burst. -/
  | burstMissed (port : Fin 512) (window : Fin 16)
  /-- R154: A JOINING station not ACTIVE 64 ms after acceptance returns to ABSENT. -/
  | joinTimeout (port : Fin 512) (stn : Fin 16)
  /-- R154: BURST_LOS cycles without a good burst make an ACTIVE station LOST. -/
  | stnLost (port : Fin 512) (stn : Fin 16)
  /-- R154: DROP_TIME after entering LOST, the station returns to ABSENT and its window is freed. -/
  | stnDrop (port : Fin 512) (stn : Fin 16)
  /-- R154: A station that sent LEAVING goes to ABSENT at the end of its cycle. -/
  | stnLeave (port : Fin 512) (stn : Fin 16)
  /-- R179: A timed PAM activation phase (QUIET, TRAIN_EC, TRAIN_EQ, TRAIN_FULL) ends and the next begins. -/
  | pamPhaseEnd (port : Fin 512)
  /-- R179: the station tone has been detected for 10 ms, so TONE ends and TRAIN_EC starts. -/
  | stationToneDetected (port : Fin 512)
  /-- R180: TONE reaches 300 ms without the station tone, so the attempt fails. -/
  | pamToneTimeout (port : Fin 512)
  /-- R179: the station marker is accepted, which sets the upstream frame boundary and enters DATA. -/
  | stationMarkerAccepted (port : Fin 512) (back : Nat)
  /-- R180: no station marker is accepted in its window, so the attempt fails. -/
  | markerWindowExpire (port : Fin 512)
  /-- R180: the port has not reached UP 1,500 ms after QUIET, so the attempt fails. -/
  | pamUpTimeout (port : Fin 512)
  /-- R181: A port in WARM has not reached UP in 32 ms, so a full attempt follows. -/
  | warmTimeout (port : Fin 512)
  /-- R239: writing FORCE_HUNT ends both alignments and restarts the hunt. -/
  | forceHuntWrite (port : Fin 512) (value : Word)
  /-- R230: A received DCC message is checked, then accepted or discarded and counted. -/
  | dccMessageRx (port : Fin 512) (stn : Fin 16)
  /-- R254: an SD window ends and SD is cleared or a new window starts. -/
  | sdWindowEnd (port : Fin 512) (stn : Fin 16)
  /-- R254: an SF window ends and SF is cleared or a new window starts. -/
  | sfWindowEnd (port : Fin 512) (stn : Fin 16)
  /-- R249: at the first multiframe boundary after the freezing defects clear, PLM, UNEQ and TIM are judged again. -/
  | defectFreezeEnd (port : Fin 512) (stn : Fin 16)
  /-- R251: after an expected-label write, labels are compared again at the next multiframe boundary. -/
  | labelRecheck (port : Fin 512)
  /-- R259: RDI sending stops at the first odd frame after the failure ends and 16 frames have passed. -/
  | txRdiStop (port : Fin 512)
  /-- R274: A timing source stays unfailed for SRC_QUAL seconds and becomes qualified. -/
  | sourceQualified (entry : Fin 4)
  /-- R276: 8,000 consecutive small phase errors take the loop from ACQUIRE to LOCKED. -/
  | tstateLocked
  /-- R276: 16 consecutive large phase errors return the loop from LOCKED to ACQUIRE. -/
  | tstateUnlocked
  /-- R276: outside RUN, the first boundary after selection with a large error moves SYS_PHASE. -/
  | alignJump
  /-- R278: after 17 s LOCKED, HOLD_VALID becomes 1. -/
  | holdValidSet
  /-- R284: A frame enters a slip buffer, its fill is computed and it is repeated or dropped if needed. -/
  | slipBufferFrame (buffer : SlipRef)
  /-- R317: 3,277 ticks before a system boundary MANGLE walks the active page and writes every destination. -/
  | mangleWalkStart (ticks : Nat) (late : List (Fin 1048576))
  /-- R314: the page copy ends and CMD_PAGE_SWAP completes with SWAP_DONE. -/
  | pageCopyDone
  /-- R325: A received trunk frame is judged for alignment and overhead, and delivered. -/
  | trunkFrameRx (lane : Fin 8) (words : List Nat)
  /-- R326: the trunk receive CDR loses or gains lock, which declares TLOS or starts its clear timer. -/
  | trunkCdrChange (lane : Fin 8) (lock : Bool)
  /-- R326: lock held for 1 ms clears TLOS. -/
  | tlosClear (lane : Fin 8)
  /-- R326: A 500-multiframe TSD window ends and TSD is cleared or a new window starts. -/
  | tsdWindowEnd (lane : Fin 8)
  /-- R331: enabling or disabling a trunk lane starts a hunt or stops the deframer. -/
  | trunkEnableWrite (lane : Fin 8) (value : Word)
  /-- R335: A trigger outlasts its hold-off and raises SF or SD. -/
  | holdOffExpire (sel : SelRef)
  /-- R336: WTR expires, the request becomes NR and the selector returns to working. -/
  | wtrExpire (sel : SelRef)
  /-- R337: the protection command CLEAR is written. -/
  | protCmdClear (sel : ProtRef) (value : Word)
  /-- R337: the protection command lockout of protection is written. -/
  | protCmdLo (sel : ProtRef) (value : Word)
  /-- R337: the protection command forced switch is written. -/
  | protCmdFs (sel : ProtRef) (value : Word)
  /-- R337: the command manual switch to protection is written, and accepted or refused. -/
  | protCmdMsProt (sel : ProtRef) (value : Word)
  /-- R337: the command manual switch to working is written, and accepted or refused. -/
  | protCmdMsWork (sel : ProtRef) (value : Word)
  /-- R356: DDR5 training ends, and HAMPER goes ONLINE or OFFLINE. -/
  | ddrTrainingDone (fails : List (Fin 4))
  /-- R362: A 400 ms record period ends, blocks are written and streams start or stop. -/
  | recordPeriodBoundary
  /-- R360: A REC_SIZE_GIB write in READY resizes the record area and discards the record. -/
  | recSizeWrite (value : Word)
  /-- R371: A WIN_BASE write remaps the aperture and sets WIN_BUSY. -/
  | winBaseWrite (value : Word)
  /-- R371: the aperture remap ends and WIN_BUSY returns to 0. -/
  | winRemapDone
  /-- R371: A BAR2 read returns Hamper data, all ones, or a poisoned completion. -/
  | apertureRead (off : Fin 1073741824) (len : Fin 4097) (ue : Bool)
  /-- R371: A BAR2 write is stored, or dropped and counted in read-only areas. -/
  | apertureWrite (off : Fin 1073741824) (data : List Byte)
  /-- R372: setting LOOKUP_GO starts a lookup of a stream's block for a time. -/
  | lookupGoWrite (value : Word)
  /-- R372: the lookup ends, and LOOKUP_LA and LOOKUP_STATUS hold the result. -/
  | lookupDone
  /-- R374: A changed DELAY takes effect at the next system multiframe boundary. -/
  | delayChangeApply
  /-- R375: A GO write to CLIP_COMMIT starts the check of a clip. -/
  | clipCommitWrite (value : Word)
  /-- R375: the clip check ends, latching the clip and raising CLIP_CHECKED. -/
  | clipCheckDone
  /-- R378: A corrected ECC error is counted and may raise CE_LIMIT. -/
  | ddrCorrectedError (channel : Fin 4)
  /-- R378: an uncorrectable ECC error is counted, UE_LA recorded and UE raised. -/
  | ddrUncorrectableError (la : Fin 2199023255552)
  /-- R378: A patrol scrub pass over all memory completes. -/
  | scrubPassDone
  /-- R383: writing RESOLVE starts role resolution in READY. -/
  | resolveWrite (value : Word)
  /-- R383: writing CLAIM_NOW makes an isolated resolving unit active. -/
  | claimNowWrite (value : Word)
  /-- R383: RESOLVE_WAIT passes with the mate link down and the peer not claiming. -/
  | resolveWaitExpire
  /-- R385: A new filtered claim-pin value is accepted. -/
  | claimPinChange (p : Bool) (n : Bool)
  /-- R385: A wire fault on the claim pins has lasted 2 ms and becomes persistent. -/
  | claimWirePersist
  /-- R398: the peer's pins have read not claiming for 1 ms, completing the silent-peer condition. -/
  | peerUnclaimed1ms
  /-- R387: A mate lane gains or loses block_lock. -/
  | mateLaneChange (lane : Fin 2) (up : Bool)
  /-- R387: no mate lane has been up for 1 ms, so MATE_LINK_DOWN is raised. -/
  | mateLinkDownTimeout
  /-- R390: A STATUS mate frame is received and updates the peer's state and the offsets. -/
  | statusRx (words : List Nat)
  /-- R398: A FATAL frame naming the peer and its epoch triggers takeover. -/
  | fatalFrameRx (words : List Nat)
  /-- R394: checkpoint data is written into the target slot and its sections are checked. -/
  | ckptDataRx (crcOk : Bool) (gen : Nat) (data : CkptData)
  /-- R394: the standby writes the commit record and acknowledges it. -/
  | ckptCommitRx (words : List Nat)
  /-- R396: the standby stores journal entries and acknowledges or sends NAK. -/
  | journalRx (words : List Nat)
  /-- R397: the standby writes mirrored record words into its record area. -/
  | mirrorRx (crcOk : Bool) (seq : Nat) (data : MirData)
  /-- R396: the active unit receives an acknowledgement of journal entries or a checkpoint commit. -/
  | ackRx (words : List Nat)
  /-- R396: the active unit resends journal entries or a checkpoint section. -/
  | nakRx (words : List Nat)
  /-- R398: A HANDOVER frame from the peer triggers takeover. -/
  | handoverRx (words : List Nat)
  /-- R404: the active unit proceeds with a switchover requested by the standby. -/
  | handoverReqRx (words : List Nat)
  /-- R390: no heartbeat arrives for 8 system frames, which may trigger takeover. -/
  | heartbeatLoss
  /-- R392: at a system multiframe boundary after CKPT_PERIOD, the active unit starts a checkpoint. -/
  | checkpointStart
  /-- R396: A journal entry unacknowledged for 1 ms is resent. -/
  | journalResendTimeout
  /-- R404: the peer has not claimed 10 ms after HANDOVER, so the unit takes back active service. -/
  | handoverTimeout
  /-- R406: ECHO_GRACE ends, so a differing SELECTED_EPOCH now demotes. -/
  | echoGraceExpire
  /-- R409: an active unit without peer STATUS for 1 ms raises PEER_LOST. -/
  | peerLostTimeout
  /-- R422: an engine after WAIT takes the oldest admitted queued event and starts its invocation. -/
  | needleDispatch (engine : Fin 96)
  /-- R418: an engine executes a register-format ALU instruction. -/
  | alu (engine : Fin 96)
  /-- R417: an engine jumps to a register address. -/
  | jr (engine : Fin 96)
  /-- R417: an engine jumps to a register address and links into n15. -/
  | jalr (engine : Fin 96)
  /-- R417: an engine adds a sign-extended immediate. -/
  | addi (engine : Fin 96)
  /-- R417: an engine subtracts a sign-extended immediate. -/
  | subi (engine : Fin 96)
  /-- R417: an engine ANDs with an immediate. -/
  | andi (engine : Fin 96)
  /-- R417: an engine ORs with an immediate. -/
  | ori (engine : Fin 96)
  /-- R417: an engine XORs with an immediate. -/
  | xori (engine : Fin 96)
  /-- R417: an engine sets flags from a compare with an immediate. -/
  | cmpi (engine : Fin 96)
  /-- R417: an engine shifts left by an immediate. -/
  | shli (engine : Fin 96)
  /-- R417: an engine shifts right logically by an immediate. -/
  | shri (engine : Fin 96)
  /-- R417: an engine shifts right arithmetically by an immediate. -/
  | asri (engine : Fin 96)
  /-- R417: an engine loads a zero-extended immediate. -/
  | movi (engine : Fin 96)
  /-- R417: an engine loads an immediate shifted left by 10. -/
  | lui (engine : Fin 96)
  /-- R417: an engine sets flags from an AND with an immediate. -/
  | tsti (engine : Fin 96)
  /-- R417: an engine loads a word from its address space. -/
  | ld (engine : Fin 96)
  /-- R417: an engine stores a word, including to staging, doorbells, mailboxes, timers and CHK units. -/
  | st (engine : Fin 96)
  /-- R417: an engine atomically exchanges a register with a shared store word. -/
  | xch (engine : Fin 96)
  /-- R417: an engine branches if the condition holds. -/
  | b (engine : Fin 96)
  /-- R417: an engine calls a target if the condition holds, linking into n15. -/
  | call (engine : Fin 96)
  /-- R420: an engine ends its invocation and waits on a hook mask. -/
  | wait (engine : Fin 96)
  /-- R417: an engine reads the budget left to its invocation's account. -/
  | brem (engine : Fin 96)
  /-- R427: an engine stops after the instruction and raises BREAK. -/
  | brk (engine : Fin 96)
  /-- R426: an illegal opcode, function or condition aborts the invocation with NEEDLE_FAULT. -/
  | illegalInstruction (engine : Fin 96)
  /-- R432: A Needle timer fires at a system frame boundary and queues its hook. -/
  | needleTimerFire (engine : Fin 96) (timer : Fin 16)
  /-- R427: writing ENABLE resumes dispatch or stops the engine after its invocation. -/
  | engineEnableWrite (engine : Fin 96) (value : Word)
  /-- R442: A bus matrix request is arbitrated, held or granted at its target. -/
  | matrixRequest (master : Fin 18) (target : Fin 9) (id : Fin 16) (beats : Fin 64)
  /-- R450: A PUSH_HEAD write opens an item in an inbound basket. -/
  | pushHeadWrite (basket : Fin 14) (value : Word)
  /-- R450: A PUSH_DATA write adds a word and pushes the item when complete. -/
  | pushDataWrite (basket : Fin 14) (value : Word)
  /-- R455: writing FLUSH empties a basket and restores its credits. -/
  | basketFlushWrite (basket : Fin 29) (value : Word)
  /-- R451: host software returns ring slots by writing CI, freeing credits. -/
  | ringCiWrite (ring : Fin 15) (value : Word)
  /-- R453: setting ENABLE resets the ring counts and increments GEN. -/
  | ringEnableWrite (ring : Fin 15) (value : Word)
  /-- R458: A CFG write queues an entry, loading INIT when START is 1. -/
  | chkCfgWrite (unit : Fin 16) (value : Word)
  /-- R458: A DATA write queues input bits for the CRC. -/
  | chkDataWrite (unit : Fin 16) (value : Word)
  /-- R459: A HI write commits both halves of a CHK unit register pair. -/
  | chkHiWrite (unit : Fin 16) (pair : Fin 5) (value : Word)
  /-- R460: A queued CHK entry is processed, and RESULT and RESULT_SEQ update. -/
  | chkEntryDone (unit : Fin 16)
  /-- R460: A RESULT_LO read latches RESULT_HI and copies STATUS into LSTATUS. -/
  | chkResultLoRead (unit : Fin 16)
  /-- R462: an ALIVE_SEEN write checks a counter value as accepted, gap or repeat. -/
  | chkAliveSeenWrite (unit : Fin 16) (value : Word)
  /-- R474: every 16 ms STARCH reads the die sensors, steps taps and measures lane throughput. -/
  | sensorReading (readings : List Int) (tput : List Nat)
  /-- R470: A deferred port's retry pass over a quiet window completes and is checked. -/
  | calRetryPass (port : Fin 512) (items : PortItems) (tone : Bool)
  /-- R483: every 32 ticks LINT samples all fault rails and records faults. -/
  | lintWindow (bad : List (Fin 11136))
  /-- R493: A reaction shadow closes SHADOW_FRAMES boundaries after its reset ends. -/
  | shadowClose
  /-- R495: an INJ_KEY write arms or disarms fault injection in test mode. -/
  | injKeyWrite (value : Word)
  /-- R496: an INJ_CTRL write starts, moves or releases the injection on a source. -/
  | injCtrlWrite (value : Word)
  /-- R498: A BIST slice or partition finishes and its signature is compared. -/
  | bistItemDone (sig : BitVec 64)
  /-- R502: A 50 ms rolling self-test step starts its slice or partition in STANDBY. -/
  | rollingStep
  /-- R443: A bus matrix transaction completes at its target, freeing its outstanding place and releasing ordering and reserve holds that named it. -/
  | matrixResponse (master : Fin 18) (target : Fin 9) (id : Fin 16)
  /-- R394: the active unit finishes sending every section of a checkpoint over the mate link and sends the CKPT_COMMIT record. -/
  | ckptSendDone
  deriving DecidableEq, Repr

end Sys2Proof
end

