-- ==== Sys2Proof/Config.lean ====
section
/-! DEFINITION. The values the spec leaves open, each an opaque constant: no statement can rest on one. -/

namespace Sys2Proof.Config

/-- A byte of the frame record that a delay entry leaves in the delay area, by its place in the record and the record's word, kind, signalling
word, frame number and generation: the spec says what the record holds and not how it is laid out (R373, log entry 87). -/
opaque delayByte : Nat → Nat → Nat → Nat → Nat → Nat → Nat

/-- The choice SORT makes among the placements that R33 and R34 admit, by a running count (log entry 6). -/
opaque sortChoice : Nat → Nat

/-- The coefficients of the second-order timing loop, by LOOP_BW: what a tick of phase error adds to the oscillator's offset at once, and for
good, in 1/65,536 of 1/256 ppm. The spec gives bandwidth and damping, not the arithmetic (R271, log entry 8). -/
opaque loopNow : Nat → Int
opaque loopKept : Nat → Int

/-- The coefficients of a TRIB port's second-order loop: what a bit of fill above 320 adds to the rate offset at once, and for good, in
1/65,536 of 1/16 ppm (R291, log entry 8). -/
opaque rateNow : Int
opaque rateKept : Int

/-- Which of two equally good paths or states a Viterbi decoder keeps, by the port, the bit and the state (R201, log entry
20). -/
opaque viterbiTie : Nat → Nat → Nat → Bool

/-- The soft value formed where the normaliser P is 0: the spec's formula divides by it (R198, log entry 21). -/
opaque softAtZero : Int → Nat → Int

/-- The phase of a port's downstream multiframes within the system multiframe, in frames: the spec places each downstream line
frame on a system frame boundary and leaves the multiframe phase open (R19, R212, log entry 22). -/
opaque dsPhase : Nat → Nat

/-- What a load from the vendor service space reads, by the address and a running count: its layout belongs to the base handler
release (R415, log entry 23). -/
opaque vendorWord : Nat → Nat → Nat

/-- What a load from a timer's word reads, by the timer and a running count: the spec gives the word's meaning only when it is
written (R415, R432, log entry 28). -/
opaque timerWord : Nat → Nat → Nat

/-- The ticks that a burst of a bus matrix transaction holds its path, by its beats: the spec gives no beat time (R443, log
entry 25). -/
opaque burstTicks : Nat → Nat

/-- The request entries of a bus matrix target outside its reserve: the spec gives their number for none (R444, log entry
26). -/
opaque targetEntries : Nat → Nat

/-- FIRST_DETAIL of a fault of a lane or engine that its block did not report itself: a WIRE fault or an injected one, by a running
count. The spec gives the word's layout and no value for it (R504, log entry 29). -/
opaque wireDetail : Nat → Nat

/-- The value of a strap of whose 100 samples 50 read 1, per strap: neither value has the majority (R96, log entry 31). -/
opaque strapTie : Nat → Bool

/-- PRE_RATE where no coded bit was compared in the last 16 multiframes, by a running count: the quotient of R255 is 0 / 0 (log entry
34). -/
opaque preRateNone : Nat → Nat

/-- The bytes of a checkpoint section's body: the spec says what it holds and not how it is laid out (R393, log entry 100). -/
opaque sectionBytes : Machine.CkptBody → Nat

/-- Bymor's PCI-SIG assigned Vendor ID: the spec names it without its number (R47, log entry 114). -/
opaque vendorId : Nat

/-! ### Signal processing: coefficients, kernels and loops the spec does not give (log entry 118) -/

/-- A ratio of 0 / 0 in dB, by a running count: the spec's formula has no value there (R123, R178). -/
opaque ratioNone : Nat → Int

/-- The mean power of a multiframe in which a shared port had no granted window, by a running count: R103 measures over granted windows
only (log entry 117). -/
opaque powerNone : Nat → Nat

/-- The 16 taps that interpolate a stream between its samples, 2^15 is 1, by the spacing of the samples, the distance past the sample before
and the tap (R119, R174). -/
opaque interpTap : Nat → Nat → Nat → Int

/-- The coefficient of a 31-tap half-band filter at odd distance 2i + 1 from its centre, 2^15 is 1 (R79, R91, R131). -/
opaque halfBand : Nat → Int

/-- The fractional place of a peak from the powers of its bin and the two beside it, in 1/64 bin (R122, R126). -/
opaque peakFrac : List Nat → Int

/-- The corrections of SPIN's second-order loop from the fractional offsets of a symbol's decided peaks by layer: of the timing phase in
1/65,536 of 1/64 chip, and of the clock ratio in 1/65,536 of 1/16 ppm (R122). -/
opaque chirpPhase : List (Nat × Int) → Int
opaque chirpFreq : List (Nat × Int) → Int

/-- The corrections of WRING's second-order loop from a symbol's slicer input, its decided level and the one before: of the timing phase in
1/65,536 of 1/64 symbol, and of the clock ratio in 1/65,536 of 1/16 ppm (R176). -/
opaque pamPhase : Int → Int → Int → Int
opaque pamFreq : Int → Int → Int → Int

/-- The digital gain after a slicer input decided as a level (R175). -/
opaque pamGain : Int → Int → Int → Int

/-- The frequency of JREFCLK in kHz: DEVICE_CONFIG states it, in a layout the spec does not give (R522, log entry 10). -/
opaque jrefKHz : Nat

end Sys2Proof.Config
end

