-- ==== Sys2Proof/Machine/FMap.lean ====
section
/-! DEFINITION. Sparse tables: an association list by a Nat key in one canonical form (keys strictly rising, no entry equal
to what an unlisted key reads as), so that equal tables are equal data. -/

namespace Sys2Proof.Machine

/-- A sparse table. -/
abbrev FMap (α : Type) := List (Nat × α)

/-- The entry at a key, or `d` where none is listed. -/
def FMap.get {α : Type} (d : α) : FMap α → Nat → α
  | [], _ => d
  | (k', v) :: r, k => if k = k' then v else FMap.get d r k

/-- The table without a key. -/
def FMap.erase {α : Type} : FMap α → Nat → FMap α
  | [], _ => []
  | (k', v) :: r, k => if k = k' then FMap.erase r k else (k', v) :: FMap.erase r k

/-- The table with an entry put before the first larger key. -/
def FMap.insert {α : Type} : FMap α → Nat → α → FMap α
  | [], k, v => [(k, v)]
  | (k', v') :: r, k, v => if k < k' then (k, v) :: (k', v') :: r else (k', v') :: FMap.insert r k v

/-- The table with the entry at a key set; a value equal to `d` is not listed. -/
def FMap.set {α : Type} [DecidableEq α] (d : α) (m : FMap α) (k : Nat) (v : α) : FMap α :=
  if v = d then FMap.erase m k else FMap.insert (FMap.erase m k) k v

/-- The canonical form: keys strictly rising from `lo`. -/
def FMap.sortedFrom {α : Type} : Nat → FMap α → Bool
  | _, [] => true
  | lo, (k, _) :: r => decide (lo ≤ k) && FMap.sortedFrom (k + 1) r

/-- The canonical form of a sparse table. -/
def FMap.wf {α : Type} [DecidableEq α] (d : α) (m : FMap α) : Bool :=
  FMap.sortedFrom 0 m && m.all (fun e => decide (e.2 ≠ d))

end Sys2Proof.Machine
end

