-- ==== Sys2Proof/Machine/DspState.lean ====
section
/-! DEFINITION. The state of signal processing: sample streams on a port's time axis, the near-end canceller, the timing loops, the echo
canceller and the equalizers, and what is saved of them at multiframe boundaries (R30, R91, R119 to R123, R131, R172 to R178). Samples
stand in 1/65,536 of a 10-bit sample code (log entry 117). -/

namespace Sys2Proof.Machine

/-- A stream of equally spaced samples, oldest first, and the place of the first on the port's time axis: in 1/64 chip of TIMEBASE on
a chirp port, in 1/64 symbol period on a PAM port. -/
structure Stream where
  at_ : Int
  xs  : List Cx
  deriving DecidableEq, Repr

def Stream.empty : Stream := ⟨0, []⟩

/-- SPIN on a chirp port (R119 to R123). -/
structure SpinSt where
  buf   : Stream             -- two samples per chip, after the near-end canceller
  corr  : Option Int         -- the start of the correlator's next symbol interval
  next  : Option Int         -- the start of the next data symbol, in 1/65,536 of 1/64 chip
  eps   : Int                -- the clock ratio, in 1/65,536 of 1/16 ppm
  nec   : List Cx            -- the canceller's 64 taps, 2^24 is 1
  tx    : Stream             -- the port's own transmitted signal, two samples per chip
  pn    : List Nat           -- Pn of the previous multiframe, per layer
  acc   : List (Nat × Nat)   -- of the present one, per layer: the sums of Ps and of Pn times N − 1
  cnt   : Nat                -- its data symbols
  pow   : Nat × Nat          -- the sum of the squared magnitudes after the canceller, and their count, in the multiframe
  saved : SpinSave
  deriving DecidableEq, Repr

def SpinSt.reset : SpinSt :=
  { buf := Stream.empty, corr := none, next := none, eps := 0, nec := List.replicate 64 ⟨0, 0⟩, tx := Stream.empty, pn := [], acc := [], cnt := 0,
    pow := (0, 0), saved := SpinSave.reset }

/-- WRING on a PAM port (R174 to R178). -/
structure WringSt where
  buf   : Stream              -- RINSE's samples at 4 × baud after the echo canceller, real
  eq    : PamEq
  half  : List Cx             -- the samples before the decimation by 2, newest first
  taps  : List Int            -- the feed-forward equalizer's samples, newest first
  past  : List Int            -- the levels decided, newest first, in codes
  tx    : Stream              -- the levels transmitted, one per symbol, 65,536 is the outer level
  prbs  : Option Nat          -- the local copy of the station's training sequence
  seen  : List Bool           -- bits decided before it is synchronised, newest first
  thr   : List (Int × Nat)    -- per level: the sum and the count of the slicer inputs decided as it in the multiframe
  means : List (Int × Nat)    -- the same of the multiframe before
  err   : Nat × Nat           -- the sum of the squared slicer errors and their count in the multiframe
  p     : Nat                 -- the normaliser P from the multiframe before (R200)
  echo  : Nat × Nat           -- the power before and after the echo canceller in the multiframe
  saved : PamEq
  deriving DecidableEq, Repr

def WringSt.reset : WringSt :=
  { buf := Stream.empty, eq := PamEq.reset, half := [], taps := [], past := [], tx := Stream.empty, prbs := none, seen := [], thr := [], means := [],
    err := (0, 0), p := 2, echo := (0, 0), saved := PamEq.reset }

/-- The transmitter's signal path (R131, R172, R179): the histories of its filters and the sample count of the quadrature mixing. -/
structure ShapeSt where
  hist  : List (List Cx)   -- per half-band stage, the last inputs, newest first
  srrc  : List Int         -- the last PAM levels, newest first
  count : Nat              -- samples sent
  phase : Nat              -- the activation phase whose signal was sent last
  syms  : Nat              -- symbols of it sent
  prbs  : Nat              -- the register of the training sequence being sent
  deriving DecidableEq, Repr

def ShapeSt.reset : ShapeSt := { hist := [], srrc := [], count := 0, phase := 0, syms := 0, prbs := 2047 }

end Sys2Proof.Machine
end

