-- ==== Sys2Proof/Machine/PortState.lean ====
section
/-! DEFINITION. The state of the line ports behind their registers: start-up, shared-port reception, decoding, alignment,
overhead, defects and performance monitoring, transmit (R109 to R269). -/

namespace Sys2Proof.Machine

/-! ### Chirp reception (R125 to R128) -/

/-- The peak of a dechirped symbol: its bin, its fractional place in 1/64 bin, its power, the peak-to-average ratio in 0.25 dB. -/
structure Peak where
  bin   : Nat
  frac  : Int
  pow   : Nat
  ratio : Nat
  deriving DecidableEq, Repr

/-- One symbol interval as the correlator sees it (R119, R125): the peaks after dechirping with the up and the down reference, the place of
its start in 1/64 chip, whether it overlaps the port's own preamble extended by 32 chips (R127). -/
structure ChirpSym where
  up      : Peak
  down    : Peak
  start   : Int
  overlap : Bool
  deriving DecidableEq, Repr

/-- A run of correct preamble symbols that alternate in direction (R125): its length, the latest peaks, the peak powers of its last four
symbols (R160). -/
structure CorrRun where
  run  : Nat
  up   : Option Peak
  down : Option Peak
  pows : List Nat
  deriving DecidableEq, Repr

def CorrRun.empty : CorrRun := ⟨0, none, none, []⟩

/-- A detection being classified (R126). -/
structure Detect where
  bin    : Nat          -- the bin of the pattern's peaks, both sweeps, on the timing of the detection
  f      : Int          -- the frequency offset, 1/64 bin
  next   : Int          -- the start of the next symbol, in 1/64 chip
  nextUp : Bool         -- the next symbol position is an up-sweep
  sym9   : Option Nat   -- the value decided for symbol 9
  since  : Nat          -- symbols since detection
  deriving DecidableEq, Repr

/-- A chirp offer (R128). -/
structure OfferSt where
  since    : Nat          -- TIMEBASE of its start
  beacon   : Bool         -- the beacon is being sent
  accepted : Option Nat   -- TIMEBASE at which the upstream preamble was accepted
  deriving DecidableEq, Repr

/-! ### Shared reception (R160 to R163) -/

/-- A burst reception in a context of SPIN. -/
structure Reception where
  pos      : Int            -- position of symbol 1 after the start of its cycle, 1/4 chip
  cycle    : Nat            -- TIMEBASE of the start of that cycle
  pows     : List Nat       -- the peak-bin powers of its last four symbols, newest first (R160)
  det      : Detect
  next     : Int            -- the start of its next symbol, in 1/65,536 of 1/64 chip
  eps      : Int            -- its clock ratio, in 1/65,536 of 1/16 ppm
  pwOk     : Bool           -- the port word was accepted
  heads    : List Nat       -- the peak bins of its header symbols
  noise    : Nat × Nat      -- the sum of their non-peak bin powers and their number (R199)
  cols     : List (List (List Nat))  -- the bin powers of its payload symbols, per layer
  accepted : Bool           -- the header passed (R151)
  stn      : Nat
  len      : Nat
  flag     : Bool
  window   : Option Nat     -- the window whose range took symbol 1
  discard  : Bool           -- the payload is decoded and discarded (WRONG_WINDOW)
  deriving DecidableEq, Repr

/-- A decided sweep of the stronger of two receptions (R163): where it starts in 1/65,536 of 1/64 chip, its layer, value and bin. -/
structure Sweep where
  at_ : Int
  l   : Nat
  s   : Nat
  amp : Cx
  deriving DecidableEq, Repr

/-- A collision being settled (R161 to R165): reception A is in the context `aSlot` (false primary, true fork), B in the
other. -/
structure Collision where
  aSlot   : Bool
  aWindow : Nat
  aStn    : Nat
  aValid  : Bool
  bStn    : Nat
  bValid  : Bool
  delta   : Int
  aDone   : Option Bool    -- whether A passed, once it has ended
  bDone   : Option Bool
  fork    : Bool           -- A has been accepted: settled by R163
  deriving DecidableEq, Repr

/-- A join request that waits for its settlement (R157). -/
structure JoinReq where
  window : Nat
  nonce  : Nat
  offset : Int
  metric : Nat
  deriving DecidableEq, Repr

/-- A grant map (R145). -/
structure GrantMap where
  entries : List Nat
  full    : Bool
  deriving DecidableEq, Repr

/-- The state of a shared port. -/
structure SharedSt where
  group    : Nat                        -- multiframe of the map group, 0 to 7
  cycleAt  : Option Nat                 -- TIMEBASE of the start of the current cycle
  prevAt   : Option Nat                 -- TIMEBASE of the start of the cycle before
  map      : GrantMap                   -- in effect
  prevMap  : GrantMap                   -- in effect in the cycle before
  sent     : GrantMap                   -- being sent in this group
  last     : GrantMap                   -- sent in the group before
  ctxA     : Option Reception           -- primary context
  ctxB     : Option Reception           -- fork context
  waiting  : List Reception             -- candidates that wait in the correlator (R162)
  coll     : List Collision
  strong   : Option Bool                -- the context of the stronger of two overlapping receptions (R163)
  sweeps   : List Sweep                 -- its decided sweeps
  got      : List (Nat × Nat × Bool)    -- windows in which a burst was accepted, or that were found missing: cycle start, window, whether settled for its station
  joins    : List JoinReq
  renumber : Option (Nat × Nat × Nat)   -- a RENUMBER sent (R148): the number freed, its old window; 1 once its map is sent, 2 in the group after
  deriving DecidableEq, Repr

def GrantMap.empty : GrantMap := ⟨List.replicate 16 15, false⟩
def SharedSt.reset : SharedSt :=
  { group := 0, cycleAt := none, prevAt := none, map := GrantMap.empty, prevMap := GrantMap.empty, sent := GrantMap.empty, last := GrantMap.empty, ctxA := none,
    ctxB := none, waiting := [], coll := [], strong := none, sweeps := [], got := [], joins := [], renumber := none }

/-! ### Decoding (R201 to R209) -/

/-- A Viterbi decoder: a metric per state, none for one not reached, and the undecided bits of each survivor path, newest
first. -/
structure VitSt where
  metric : List (Option Int)
  path   : List (List Bool)
  deriving DecidableEq, Repr

/-- DARN for one continuous stream. -/
structure DarnSt where
  dec    : Option VitSt        -- none until the stream starts
  cold   : Bool                -- it starts with every state equal: after a lane reset (R205)
  soft   : List (Int × Int)    -- the soft pairs of the undecided bits, oldest first
  enc    : Nat                 -- the encoder state of the released bits
  out    : List Bool           -- bits released and not yet taken into a port-frame
  fed    : List (Nat × Bool)   -- port-frames fed and not complete: number, absent
  next   : Nat                 -- the port-frame to feed next
  bits   : Nat                 -- PRE_BITS_MF so far
  errs   : Nat
  eras   : Nat
  deriving DecidableEq, Repr

def DarnSt.reset : DarnSt := ⟨none, false, [], 0, [], [], 0, 0, 0, 0⟩

/-! ### Alignment (R235 to R240) -/

/-- A CRC-10 result (R232). -/
inductive CrcRes where
  | good | errored | none
  deriving DecidableEq, Repr

/-- A multiframe being followed at one offset: the frame whose words come next, the CRC-10 so far, the value expected in f0. -/
structure MfRx where
  next   : Nat
  crc    : Nat
  whole  : Bool            -- every frame of the multiframe so far was present and followed
  ais    : Bool            -- every OH1 word so far was 0x3FF
  expect : Option Nat      -- what f0 of the next multiframe must hold
  held   : Bool            -- multiframe alignment was held at some point of it
  badMfa : Bool            -- an MFA bit of it differed
  badRun : Nat             -- multiframes with a differing MFA bit, in a row
  deriving DecidableEq, Repr

/-- A candidate offset (R235), a survivor, or the declared offset. -/
structure Cand where
  q    : Nat
  even : Bool                    -- the next frame is its even frame
  rots : List Nat                -- the odd-frame indices that the next odd frame may have
  odd  : List (Option Bool)      -- the MFA bits of the last eight odd frames, newest first
  run  : Nat                     -- present frames passed in a row
  surv : Bool
  mf   : Option MfRx             -- the multiframe phase, once found
  agreed : Nat                   -- MFA bits that agreed since it was found
  good : Nat                     -- good CRC results
  last : Option (Nat × Bool)     -- port-frame count and result of its latest CRC result
  deriving DecidableEq, Repr

/-- HEM for a port or a station. -/
structure HemSt where
  count   : Nat             -- port-frames seen
  cands   : List Cand
  twoAt   : Option Nat      -- the count at which two survivors first existed
  prev    : Option (List Bool)  -- the previous group, if present
  decl    : Option Cand     -- the declared offset
  fawRun  : Nat             -- errored FAWs in a row
  aligned : Bool            -- multiframe alignment
  held    : Nat             -- present frames in a row with frame alignment, at most 16
  deriving DecidableEq, Repr

def HemSt.reset : HemSt := ⟨0, [], none, none, none, 0, false, 0⟩

/-- What HEM hands to LABEL of one port-frame. -/
structure HemOut where
  absent : Bool
  fidx   : Option Nat      -- frame number in the multiframe, with multiframe alignment
  words  : List Nat        -- OH0, OH1 and the slot words, descrambled
  oh0    : Option Nat      -- OH0 as received, with frame alignment
  odd    : Bool            -- the frame is odd by the declared candidate's alternation
  crc    : Option CrcRes   -- the result that this frame gave
  ends   : Option Bool     -- multiframe alignment ended at it; true: frame alignment too, or a hunt was forced
  deriving DecidableEq, Repr

/-! ### Overhead (R217 to R233) -/

/-- A run of equal label values (R223). -/
structure LabelRun where
  value : Nat
  count : Nat
  deriving DecidableEq, Repr

/-- One multiframe of overhead as captured by LABEL. -/
structure MfCapture where
  words  : List (Option (Nat × Nat))   -- OH0 and OH1 of f0 on; none for an absent frame
  sigs   : FMap Nat                    -- candidate signalling words per slot
  slip   : Bool
  deriving DecidableEq, Repr

def MfCapture.empty : MfCapture := ⟨[], [], false⟩

/-- LABEL for a port or a station. -/
structure LabelSt where
  cur     : MfCapture
  prev    : Option MfCapture           -- complete, its CRC result not yet known
  mfCount : Nat                        -- received multiframes
  port    : LabelRun
  portAcc : Option Nat                 -- the accepted port label, once one was accepted
  slotAcc : FMap (Option Nat)          -- the accepted tributary label per slot
  slots   : FMap LabelRun              -- per slot
  trace   : List Nat                   -- the bytes of the cycle being collected
  cycle   : Option (List Nat)          -- the complete cycle that the present one directly follows
  accepted : List Nat                  -- the accepted trace
  aisRun  : Nat
  clrRun  : Nat
  rdiRun  : Nat                        -- odd frames with RDI = 1 in a row
  noRdi   : Nat
  timMis  : Nat                        -- multiframes in a row whose SELF_TIMED differs (R281)
  msg     : List Nat                   -- bytes of the DCC message being received
  msgs    : List (List Nat × Bool)     -- received messages not yet checked; true where incomplete (R230)
  alive   : Option Nat                 -- the last accepted ALIVE
  anyAlive : Bool                      -- the next message is accepted whatever its ALIVE
  window  : List Nat                   -- the receive overhead window (R233)
  deriving DecidableEq, Repr

def LabelSt.reset : LabelSt :=
  { cur := MfCapture.empty, prev := none, mfCount := 0, port := ⟨0, 0⟩, portAcc := none, slotAcc := [], slots := [], trace := [], cycle := none, accepted := List.replicate 16 0,
    aisRun := 0, clrRun := 0, rdiRun := 0, noRdi := 0, timMis := 0, msg := [], msgs := [], alive := none,
    anyAlive := false, window := [] }

/-- A window of SD or SF (R254). -/
structure ErrWin where
  seen : Nat       -- multiframes with a result
  errs : Nat
  deriving DecidableEq, Repr

/-- What the device keeps per station, station 0 of a point-to-point port being the port itself. -/
structure StnRx where
  hem     : HemSt
  lab     : LabelSt
  sd      : ErrWin
  sf      : ErrWin
  freezeEnd : Option Nat     -- a freeze has ended: TIMEBASE of the boundary at which PLM, UNEQ and TIM are judged (R249)
  wantLost : Nat             -- cycles in a row without a good burst (R154)
  joinAt  : Nat              -- TIMEBASE of join acceptance
  lostAt  : Nat              -- TIMEBASE of entry to LOST
  leaving : Option Nat       -- it sent LEAVING: the end of that cycle
  taLast  : Option Nat       -- TIMEBASE of the last TA_ADJUST
  taRun   : Nat              -- TA_ADJUST messages in a row
  deriving DecidableEq, Repr

def StnRx.reset : StnRx :=
  { hem := HemSt.reset, lab := LabelSt.reset, sd := ⟨0, 0⟩, sf := ⟨0, 0⟩, freezeEnd := none, wantLost := 0, joinAt := 0, lostAt := 0,
    leaving := none, taLast := none, taRun := 0 }

/-! ### Transmit -/

/-- A DCC message queued for transport (R429): its bytes without ALIVE and CRC, and whether it repeats the one before. -/
structure DccMsg where
  bytes : List Nat
  again : Bool
  deriving DecidableEq, Repr

/-- FOLD, the encoder and the overhead sources of one port. -/
structure TxSt where
  start   : Option Nat       -- TIMEBASE of downstream frame 0, once it is set
  next    : Nat              -- TIMEBASE of the start of the next line frame that FOLD builds
  frac    : Nat              -- the part of a tick beyond it, 1/65,536 (R291)
  mfStart : Nat              -- TIMEBASE of the start of the multiframe FOLD has begun last
  count   : Nat              -- frames FOLD has built
  enc     : Nat              -- encoder state (R192)
  crc     : Nat              -- CRC-10 of the multiframe so far
  crcPrev : Option Nat       -- CRC-10 of the previous multiframe
  slot    : Nat              -- the slot whose label f3 carries
  window  : List Nat         -- the transmit overhead window, by frame (R234)
  block   : List Nat         -- the 6 bytes of the DCC block being sent
  first   : Bool             -- BS of it
  rest    : List Nat         -- the bytes of its message still to send
  queue   : List (Nat × List DccMsg)  -- per station, at most 4 messages (R429)
  alive   : FMap Nat         -- the alive counter per station (R229)
  dropped : Bool             -- the last doorbell found the queue full
  rdiAt   : Option Nat       -- the frame count at which RDI sending started
  rei     : Bool             -- the CRC-10 of the last received multiframe failed
  preErr  : Nat              -- f7 PRE_ERR
  deriving DecidableEq, Repr

def TxSt.reset : TxSt :=
  { start := none, next := 0, frac := 0, mfStart := 0, count := 0, enc := 0, crc := 1023, crcPrev := none, slot := 1, window := List.replicate 16 0,
    block := List.replicate 6 0, first := true, rest := [], queue := [], alive := [], dropped := false, rdiAt := none, rei := false,
    preErr := 0 }

/-! ### Ports -/

/-- The PAM activation of a port (R179 to R181). -/
structure PamSt where
  quietAt  : Nat             -- TIMEBASE at which QUIET started
  phaseAt  : Nat             -- TIMEBASE at which the present phase started
  marker   : Option Nat      -- TIMEBASE of the end of the downstream marker
  low      : Nat             -- frames judged low in a row
  warmAt   : Option Nat      -- TIMEBASE at which WARM started
  deriving DecidableEq, Repr

def PamSt.reset : PamSt := ⟨0, 0, none, 0, none⟩

/-- The PM marks of one second (R263). -/
structure PmSec where
  failed : Bool
  errs   : Nat
  farEnd : Bool
  deriving DecidableEq, Repr

def PmSec.empty : PmSec := ⟨false, 0, false⟩

/-- A line port. -/
structure PortSt where
  spin     : SpinSt
  wring    : WringSt
  shape    : ShapeSt
  scale    : Nat             -- SOFT_SCALE of the frame in progress (R198)
  preAt    : Option Nat      -- the downstream boundary on which the preamble last sent, or being sent, ends
  corrUp   : CorrRun         -- the run that ends with an up-sweep
  corrDown : CorrRun
  det      : Option Detect
  offer    : Option OfferSt
  symbols  : List (List Int) -- soft bits of the symbols received and not yet taken into a port-frame, oldest first
  symFrame : Nat             -- number of the port-frame that the oldest of them belongs to
  pam      : PamSt
  upSeen   : Bool            -- it has reached UP since it fell back or started under PAM (R187)
  lofTimes : List Nat        -- TIMEBASE of the LOF declarations counted under R185
  due      : Bool            -- a fallback is due (R186)
  recheck  : Option Nat      -- TIMEBASE of the boundary at which labels are compared after a write of an expected one (R251)
  dsLast   : Nat             -- TIMEBASE of the downstream multiframe boundary last passed
  takenAt  : Nat             -- TIMEBASE of the one at which FOLD last took window and signalling (R220, R234)
  rxNext   : Nat             -- number of the next receive port-frame
  mfSeen   : Nat             -- system multiframes that its port-frames have ended, by their reference boundaries
  losLow   : Nat
  losHigh  : Nat
  darn     : DarnSt
  pre      : List (Nat × Nat)  -- PRE_ERR_MF and PRE_BITS_MF of the last 16 multiframes, newest first
  preLow   : Nat
  shared   : SharedSt
  tx       : TxSt
  refAt    : Nat             -- reference boundary of the port-frame HEM has judged last
  secNow   : PmSec           -- the PM second in progress
  secOld   : PmSec           -- the one before, as classified
  used     : Nat             -- Needle budget used in the period (R424)
  spent    : Bool            -- the budget is exhausted, or a fault ended the period
  staged   : FMap Nat        -- transmit staging written in the period, word by frame
  bells    : List (Nat × DccMsg)  -- DCC doorbells of the period
  deriving DecidableEq, Repr

def PortSt.reset : PortSt :=
  { spin := SpinSt.reset, wring := WringSt.reset, shape := ShapeSt.reset, scale := 8, preAt := none, corrUp := CorrRun.empty,
    corrDown := CorrRun.empty, det := none, offer := none, symbols := [], symFrame := 0, pam := PamSt.reset, upSeen := false,
    lofTimes := [], due := false, recheck := none, dsLast := 0, takenAt := 0, rxNext := 0, mfSeen := 0, losLow := 0, losHigh := 0, darn := DarnSt.reset, pre := [], preLow := 0,
    shared := SharedSt.reset, tx := TxSt.reset, refAt := 0, secNow := PmSec.empty, secOld := PmSec.empty, used := 0, spent := false,
    staged := [], bells := [] }

/-- A PM snapshot requested (R265). -/
structure Snapshot where
  tag   : Nat
  kind  : Nat
  at?   : Option Nat    -- TIMEBASE of the PM second boundary it is taken at, once it has passed
  wall  : Nat
  deriving DecidableEq, Repr

/-- Every port, and performance monitoring. -/
structure PortsSt where
  ports    : FMap PortSt
  stns     : FMap StnRx          -- key: station context number (R137)
  secStart : Option Nat          -- TIMEBASE at which the present PM second began (R263)
  secPrev  : Bool                -- a PM second has ended before it
  acc      : FMap Nat            -- counts of ended seconds since the previous snapshot of a KIND: (kind × 512 + port) × 8 + i
  accNew   : FMap Nat            -- counts of the present PM second: port × 8 + i
  snaps    : List Snapshot
  snapSeq  : FMap Nat            -- snapshot sequence number per KIND
  snapFrom : FMap Nat            -- whole PM seconds since the previous snapshot, per KIND
  deriving DecidableEq, Repr

def PortsSt.reset : PortsSt :=
  { ports := [], stns := [], secStart := none, secPrev := false, acc := [], accNew := [], snaps := [], snapSeq := [], snapFrom := [] }

end Sys2Proof.Machine
end

