-- ==== Sys2Proof/Machine/Codec.lean ====
section
/-! DEFINITION. Channel coding, scrambling and check values: the pure functions of bits and words that the line ports, the
trunk lanes and DCC share (R113, R143, R144, R171, R190 to R209, R227, R231). -/

namespace Sys2Proof.Machine

/-! ### Bits and words -/

/-- The bits of a word, most significant first. -/
def wordBits (w v : Nat) : List Bool := (List.range w).map (fun i => v.testBit (w - 1 - i))

/-- The value of bits, most significant first. -/
def bitsVal (bs : List Bool) : Nat := bs.foldl (fun v b => 2 * v + b.toNat) 0

/-- Bits cut into words of `w` bits. -/
def bitsWords (w : Nat) : Nat → List Bool → List Nat
  | 0, _ => []
  | n + 1, bs => bitsVal (bs.take w) :: bitsWords w n (bs.drop w)

/-- A CRC register of width `w` after bits, most significant first. -/
def crcRun (w poly : Nat) (bs : List Bool) (init : Nat) : Nat :=
  bs.foldl
    (fun c b =>
      let t := (c / 2 ^ (w - 1) % 2 == 1) != b
      ((c * 2) % 2 ^ w) ^^^ (if t then poly else 0)) init

/-- The CRC-10 of R144 and R231 over bits. -/
def crc10 (bs : List Bool) (init : Nat := 0x3FF) : Nat := crcRun 10 0x233 bs init
/-- The CRC-16 of a DCC message over bytes (R227). -/
def crc16 (bytes : List Nat) : Nat := crcRun 16 0x1021 (bytes.flatMap (wordBits 8)) 0xFFFF
/-- HCHK of a burst header (R143). -/
def crc4 (v : Nat) : Nat := crcRun 4 3 (wordBits 8 v) 0
/-- A 32-bit word's bits as the CRC-32 takes them: each byte from its least significant bit, the bytes in order. -/
def lsbBits (bytes : List Nat) : List Bool := bytes.flatMap (fun b => (List.range 8).map (fun i => b.testBit i))
/-- The bytes of a 32-bit word, little-endian. -/
def leBytes (n v : Nat) : List Nat := (List.range n).map (fun i => v / 2 ^ (8 * i) % 256)
/-- A value with its low `w` bits reversed. -/
def bitRev (w v : Nat) : Nat := bitsVal ((List.range w).map (fun i => v.testBit i))
/-- The CRC-32 of R69 over bytes. -/
def crc32 (bytes : List Nat) : Nat := bitRev 32 (crcRun 32 0x04C11DB7 (lsbBits bytes) 0xFFFFFFFF) ^^^ 0xFFFFFFFF
/-- The CRC-32 of R69 over 32-bit words, lowest byte first. -/
def crc32Words (ws : List Nat) : Nat := crc32 (ws.flatMap (leBytes 4))

/-! ### Gray code (R113) -/

def gray (v : Nat) : Nat := v ^^^ (v / 2)
/-- The inverse Gray code over `w` bits. -/
def ungray (w v : Nat) : Nat := (List.range w).foldl (fun x i => x ^^^ (v / 2 ^ i)) 0

/-! ### Scrambler (R206) -/

/-- One step of the scrambler register: s1 is bit 0. -/
def lfsrStep (s : Nat) : Bool × Nat :=
  let p := s.testBit 8 != s.testBit 10
  (p, (2 * s) % 2048 + p.toNat)

/-- The register moved `n` steps. -/
def lfsrSkip : Nat → Nat → Nat
  | 0, s => s
  | n + 1, s => lfsrSkip n (lfsrStep s).2

/-- Bits scrambled, or descrambled, and the register after them. -/
def scramble : List Bool → Nat → List Bool × Nat
  | [], s => ([], s)
  | b :: r, s =>
    let (p, s') := lfsrStep s
    let (bs, t) := scramble r s'
    ((b != p) :: bs, t)

/-- The register's seed. -/
def lfsrSeed : Nat := 2047

/-! ### The convolutional code (R190, R191) -/

/-- The coded bits c0 and c1 of an input bit; bit i of the state is u(k − 1 − i). -/
def convBits (s : Nat) (u : Bool) : Bool × Bool :=
  (((((u != s.testBit 0) != s.testBit 1) != s.testBit 2) != s.testBit 5),
   ((((u != s.testBit 1) != s.testBit 2) != s.testBit 4) != s.testBit 5))

/-- The encoder state after an input bit. -/
def convNext (s : Nat) (u : Bool) : Nat := (2 * s + u.toNat) % 64

/-- Which of c0 and c1 the pattern keeps at position `i` of its period: code 0 is 1/2, 1 is 2/3, 2 is 3/4. -/
def keeps (cr i : Nat) : Bool × Bool :=
  match cr with
  | 1 => if i % 2 = 0 then (true, true) else (true, false)
  | 2 => if i % 3 = 0 then (true, true) else if i % 3 = 1 then (true, false) else (false, true)
  | _ => (true, true)

/-- Bits encoded and punctured from position `i` of the pattern, and the encoder state after them. -/
def encode : List Bool → Nat → Nat → Nat → List Bool × Nat
  | [], _, _, s => ([], s)
  | u :: r, cr, i, s =>
    let (c0, c1) := convBits s u
    let (k0, k1) := keeps cr i
    let (bs, t) := encode r cr (i + 1) (convNext s u)
    ((if k0 then [c0] else []) ++ (if k1 then [c1] else []) ++ bs, t)

/-- Soft values of coded bits spread over the pattern: punctured positions are 0 (R198). `n` information bits. -/
def depuncture (cr : Nat) : Nat → Nat → List Int → List (Int × Int)
  | 0, _, _ => []
  | n + 1, i, vs =>
    let (k0, k1) := keeps cr i
    let v0 := if k0 then vs.headD 0 else 0
    let r := if k0 then vs.drop 1 else vs
    let v1 := if k1 then r.headD 0 else 0
    (v0, v1) :: depuncture cr n (i + 1) (if k1 then r.drop 1 else r)

/-! ### Interleaving (R195, R196) -/

/-- The coded bit carried by row `r`, column `j` of a block of `cols` columns. -/
def blockIndex (cols r j : Nat) : Nat := r * cols + j

/-- The columns of a block: `rows` bits each, in row order. -/
def interleave {α : Type} (d : α) (rows cols : Nat) (bs : List α) : List (List α) :=
  (List.range cols).map (fun j => (List.range rows).map (fun r => bs.getD (blockIndex cols r j) d))

/-- The coded bits of a block read back from its columns. -/
def deinterleave {α : Type} (d : α) (rows : Nat) (cols : List (List α)) : List α :=
  (List.range rows).flatMap (fun r => cols.map (fun c => c.getD r d))

/-- The symbol values of the layers of a column: rows ℓ × SF to ℓ × SF + SF − 1, most significant bit first, Gray coded
(R113). -/
def columnShifts (sf depth : Nat) (col : List Bool) : List Nat :=
  (List.range depth).map (fun l => gray (bitsVal ((col.drop (l * sf)).take sf)))

/-- The level indices of PAM symbols of `m` bits (R171). -/
def pamLevels (m : Nat) : Nat → List Bool → List Nat
  | 0, _ => []
  | n + 1, bs => ungray m (bitsVal (bs.take m)) :: pamLevels m n (bs.drop m)

/-! ### Soft bits (R198 to R200) -/

/-- A value rounded to the nearest integer after division by a positive number, halves away from zero. -/
def roundDiv (x : Int) (d : Nat) : Int :=
  let a := (2 * x.natAbs + d) / (2 * d)
  if x < 0 then -(a : Int) else (a : Int)

/-- The 4-bit soft value of R198; where the normaliser is 0 the spec states none. -/
def softValue (lambda : Int) (scale p : Nat) : Int :=
  let v := if p = 0 then Config.softAtZero lambda scale else roundDiv (lambda * (scale : Int)) (16 * p)
  if v < -7 then -7 else if 7 < v then 7 else v

/-- The largest of some values, 0 for none. -/
def maxOf (xs : List Nat) : Nat := xs.foldl max 0

/-- The smallest of some values. -/
def minOf : List Nat → Nat
  | [] => 0
  | x :: r => r.foldl min x

/-- The SF soft values of one layer of a chirp symbol, the first row's bit SF − 1 first, from the bin powers (R199). -/
def chirpSoft (sf scale p : Nat) (bins : List Nat) : List Int :=
  (List.range sf).map (fun r =>
    let i := sf - 1 - r
    let side := fun (b : Bool) => maxOf ((List.range (2 ^ sf)).filterMap
      (fun k => if (ungray sf k).testBit i == b then some (bins.getD k 0) else none))
    softValue ((side true : Int) - (side false : Int)) scale p)

/-- The level of index k: (2k − (M − 1)) × g with g = 128 for PAM-4 and 64 for PAM-8 (R171, R175). -/
def pamLevel (m k : Nat) : Int := (2 * (k : Int) - ((2 ^ m : Nat) - 1 : Int)) * (if m = 2 then 128 else 64)

/-- The soft values of a PAM symbol from its slicer input (R200). -/
def pamSoft (m scale p : Nat) (y : Int) : List Int :=
  (List.range m).map (fun r =>
    let i := m - 1 - r
    let side := fun (b : Bool) => minOf ((List.range (2 ^ m)).filterMap
      (fun k => if (gray k).testBit i == b then some ((y - pamLevel m k).natAbs ^ 2) else none))
    softValue ((side false : Int) - (side true : Int)) scale p)

/-! ### Viterbi decoding (R201, R205) -/

/-- A decoder at the start of a stream: state 0 alone, or every state equal (R201, R205). -/
def VitSt.start (cold : Bool) : VitSt :=
  { metric := (List.range 64).map (fun s => if cold || s == 0 then some 0 else none), path := List.replicate 64 [] }

/-- A soft value counted for a coded bit. -/
def branch (v : Int) (c : Bool) : Int := if c then v else -v

/-- The better of two path metrics: true keeps the second. -/
def better (tie : Bool) : Option Int → Option Int → Bool
  | none, none => false
  | none, some _ => true
  | some _, none => false
  | some a, some b => if a = b then tie else decide (a < b)

/-- One information bit decoded: soft values of c0 and c1. `k` counts the bits of the stream on port `n`. -/
def VitSt.step (x : VitSt) (n k : Nat) (v : Int × Int) : VitSt :=
  let one := fun (t : Nat) =>
    let u := t.testBit 0
    let m := fun (s : Nat) =>
      (x.metric.getD s none).map (fun a => let c := convBits s u; a + branch v.1 c.1 + branch v.2 c.2)
    let a := t / 2
    let b := t / 2 + 32
    let pick := better (Config.viterbiTie n k t) (m a) (m b)
    (if pick then m b else m a, u :: x.path.getD (if pick then b else a) [])
  let r := (List.range 64).map one
  { metric := r.map Prod.fst, path := r.map Prod.snd }

/-- The best state (R201). -/
def VitSt.best (x : VitSt) (n k : Nat) : Nat :=
  (List.range 64).foldl (fun b s => if better (Config.viterbiTie n k (64 + s)) (x.metric.getD b none) (x.metric.getD s none) then s else b) 0

/-- The oldest bits released so that `keep` stay undecided, traced back from a state. -/
def VitSt.release (x : VitSt) (state keep : Nat) : List Bool × VitSt :=
  (((x.path.getD state []).drop keep).reverse, { x with path := x.path.map (fun p => p.take keep) })

/-- A terminated block decoded from state 0 to state 0 (R205). -/
def decodeBlock (n : Nat) (vs : List (Int × Int)) : List Bool :=
  let x := (vs.zipIdx).foldl (fun x v => x.step n v.2 v.1) (VitSt.start false)
  (x.path.getD 0 []).reverse

/-- The re-encoded bits compared with the received soft values: bits compared, bits that disagree, encoder state (R209). -/
def recount : List Bool → List (Int × Int) → Nat → Nat × Nat × Nat
  | u :: us, v :: vs, s =>
    let c := convBits s u
    let one := fun (x : Int) (b : Bool) => if x = 0 then (0, 0) else (1, if decide (0 < x) == b then 0 else 1)
    let a := one v.1 c.1
    let b := one v.2 c.2
    let (n, e, t) := recount us vs (convNext s u)
    (a.1 + b.1 + n, a.2 + b.2 + e, t)
  | us, _, s => (0, 0, us.foldl convNext s)

/-! ### DARN on a continuous stream -/

/-- Undecided bits released so that `keep` stay: into `out`, with the comparison of R209. -/
def DarnSt.release (d : DarnSt) (n keep : Nat) : DarnSt :=
  match d.dec with
  | none => d
  | some x =>
    let (bs, y) := x.release (x.best n d.soft.length) keep
    let (c, e, s) := recount bs (d.soft.take bs.length) d.enc
    { d with dec := some y, out := d.out ++ bs, soft := d.soft.drop bs.length, enc := s, bits := d.bits + c, errs := d.errs + e }

/-- A port-frame's soft pairs decoded; every bit whose traceback is complete is released (R201). An absent port-frame first
releases the bits before it, then fills with erasures (R204). -/
def DarnSt.feed (d : DarnSt) (n tb : Nat) (num : Nat) (absent : Bool) (vs : List (Int × Int)) : DarnSt :=
  let d0 := if absent then d.release n 0 else d
  let x := d0.dec.getD (VitSt.start d0.cold)
  let y := (vs.zipIdx).foldl (fun x v => x.step n (d0.soft.length + v.2) v.1) x
  let d1 := { d0 with dec := some y, soft := d0.soft ++ vs, fed := d0.fed ++ [(num, absent)], next := num + 1 }
  d1.release n tb

/-- The information bits of the oldest port-frame that is complete. -/
def DarnSt.take (d : DarnSt) (i : Nat) : Option ((Nat × Bool) × List Bool × DarnSt) :=
  match d.fed with
  | f :: r => if i ≤ d.out.length then some (f, d.out.take i, { d with out := d.out.drop i, fed := r }) else none
  | [] => none

end Sys2Proof.Machine
end

