-- ==== Sys2Proof/Machine/ArchState.lean ====
section
/-! DEFINITION. The state of the pipeline, of SORT and of programme changes behind the registers of R42 to R46. -/

namespace Sys2Proof.Machine

/-- The port states of R30. -/
inductive PortMode where
  | disabled | activating | up | degraded | down
  deriving DecidableEq, Repr

/-- The STATE code of a PORT page (R54). -/
def PortMode.code : PortMode → Nat
  | .disabled => 0 | .activating => 1 | .up => 2 | .degraded => 3 | .down => 4

/-- A port-frame in its lane (R17 to R25). -/
structure PortFrame where
  num      : Nat         -- frame number within its direction of the port
  lane     : Nat         -- the lane that processes it (R13, R34)
  stn      : Nat         -- the station of a burst's frame; 0 on a point-to-point port
  ref      : Nat         -- receive: the reference boundary; transmit: the start of the line frame
  stage    : Nat         -- the last stage that finished it, code of R43; 99 before the first
  reported : Bool        -- it has given its DEADLINE_MISS
  late     : Bool        -- its slot words are to be discarded (R21), or it is sent muted (R22)
  copy     : Bool        -- it bears a copy delay (R25)
  pow      : Nat × Nat   -- the far-end signal: the sum of squared samples and their count (R94)
  soft     : List Int    -- soft bits from the demodulator, in line order (R198)
  bits     : List Bool   -- information bits from DARN
  words    : List Nat    -- slot words from HEM on, descrambled
  hem      : Option HemOut  -- what HEM handed to LABEL
  absent   : Bool        -- it was abandoned or carries erasures (R23, R204)
  stamp    : Nat         -- the JESD stamp of its last sample (R17)
  placed   : Bool        -- SLIP has given it its boundary (R283)
  ends     : Bool        -- the measurements of a multiframe end with it (log entry 24)
  deriving DecidableEq, Repr

/-- The slot words of a port-frame on their way to the walk: the system boundary they are due at, the slot words, the tributaries
that were failed (R17, R258). -/
structure DueFrame where
  at_    : Nat
  words  : List Nat
  failed : List Nat
  deriving DecidableEq, Repr

/-- A planned or running port move (R34). -/
structure Move where
  port    : Nat
  target  : Nat
  start   : Nat                  -- TIMEBASE of the multiframe boundary at which SORT chooses the switch frame
  f       : Option (Nat × Nat)   -- the switch frame F of the receive and the transmit direction, once chosen: the move runs
  copying : Option Nat           -- TIMEBASE at which lane X had finished F − 1 and the copy of the context began
  pinned  : Bool    -- a move of CMD_PLACE_APPLY (R35)
  react   : Bool    -- a migration of R24
  deriving DecidableEq, Repr

/-- Whether a move runs: its switch frame is chosen (R34). -/
def Move.running (m : Move) : Bool := m.f.isSome

/-- A placement pin written and not yet applied (R36). -/
structure PinReq where
  lane      : Nat
  lanePin   : Bool
  engine    : Nat
  enginePin : Bool
  deriving DecidableEq, Repr

/-- A written PLACE word of a tributary context that awaits CMD_PLACE_APPLY (R46). -/
structure TribPin where
  bank    : Nat
  bankPin : Bool
  recCh   : Nat
  recRank : Nat
  recPin  : Bool
  deriving DecidableEq, Repr

/-- The reaction of R24 on a lane. -/
inductive Overrun where
  | migrating           -- ports are planned to move at every multiframe boundary
  | resetDue            -- no further port can be planned; the copies still running are awaited
  | resetting (ends : Nat)
  deriving DecidableEq, Repr

/-- The phases of a programme change (R40, R41). -/
inductive ProgPhase where
  | held                       -- a port move is in progress (R39)
  | voltage (since : Nat)      -- a voltage was requested over AVSBus at that TIMEBASE
  | walk (since : Nat)         -- the taps walk; TIMEBASE of the last step, or of the walk's start
  | apply                      -- the next multiframe boundary applies the parameters
  | undoWalk (since : Nat)     -- R41: the taps walk back
  deriving DecidableEq, Repr

/-- A programme change that runs (R40). -/
structure ProgChange where
  tag    : Nat
  old    : Nat
  target : Nat
  phase  : ProgPhase
  deriving DecidableEq, Repr

/-- The state of lanes, SORT and programmes. -/
structure ArchSt where
  ports      : FMap PortMode
  frames     : FMap (List PortFrame)  -- key 2 × port + direction (0 receive, 1 transmit), oldest first
  frameNum   : FMap Nat               -- port-frames started, same key
  due        : FMap (List DueFrame)   -- per port, or 512 + station context number on shared ports
  held       : FMap (List Nat)        -- the slot words last switched, same key (R21)
  laneMiss   : FMap (List Nat)        -- TIMEBASE of each miss counted under R24, per lane
  portMiss   : FMap (List Nat)        -- TIMEBASE of each miss of the port (R30)
  moves      : List Move
  engPlan    : FMap (Option Nat)      -- per port, the engine that takes its handlers at the port's next downstream multiframe boundary (R428)
  engFrom    : FMap (Option Nat)      -- per port, the engine that its handlers were moved from last (R428)
  pins       : FMap (Option PinReq)
  tribPins   : FMap (Option TribPin)
  placeTag   : Option Nat             -- the CMD_PLACE_APPLY that runs
  placeDue   : Bool                   -- its pins take effect at the next multiframe boundary
  overrun    : FMap (Option Overrun)
  copyDue    : FMap Nat               -- key 2 × port + direction: 1 + the switch frame F, which bears the copy delay (R25)
  afterReset : FMap Bool              -- the port went DOWN by its lane's reset (R30)
  advice     : Option Nat             -- overrun advice (R38)
  adviceEnds : Nat                    -- TIMEBASE at which it ends
  tempHot    : Bool                   -- a valid die sensor reads above 95 °C (R38)
  prog       : Option ProgChange
  replace    : Bool                   -- SORT re-places at the next boundary (R33)
  laneCap    : FMap Nat               -- lane throughput measured by STARCH, in kS/s (R32); 0 before the first measurement
  capSeen    : FMap Nat               -- capacity of the lane at its last re-placement (R33)
  marginWas  : Nat                    -- the deadline margin before the last change, in ticks (R18, R40)
  marginAt   : Nat                    -- TIMEBASE of the boundary where the present margin applies
  deriving DecidableEq, Repr

def ArchSt.reset : ArchSt :=
  { ports := [], frames := [], frameNum := [], due := [], held := [], laneMiss := [], portMiss := [], moves := [], engPlan := [], engFrom := [], pins := [], tribPins := [],
    placeTag := none, placeDue := false, overrun := [], copyDue := [], afterReset := [], advice := none, adviceEnds := 0, tempHot := false,
    prog := none, replace := false, laneCap := [], capSeen := [], marginWas := 3277, marginAt := 0 }

end Sys2Proof.Machine
end

