-- ==== Sys2Proof/Machine/HamperState.lean ====
section
/-! DEFINITION. The state of the Hamper: its memory, the recorder, delay lines, clips, plays and extractions (R354 to R380). -/

namespace Sys2Proof.Machine

/-- A record stream in its period (R361 to R363): its rank, the RX_LABEL at the period's first frame, and the frames recorded so
far by their number in the period, as word + 1,024 held + 2,048 substituted + 4,096 failed + 8,192 × kind (0 data, 1 IDLE, 2 AIS). -/
structure RecStream where
  rank  : Nat
  label : Nat
  words : FMap Nat
  deriving DecidableEq, Repr

/-- A record period: its start on the writer's TIMEBASE, the writer's EPOCH where it was mirrored (R362, R390). -/
structure Period where
  start : Nat
  epoch : Option Nat
  deriving DecidableEq, Repr

/-- A running play (R376, R377): what it plays, its position, its destination, the mode FILL_IDLE, LOOP, and the order of its
start. -/
structure Play where
  clip  : Clip
  pos   : Nat
  dst   : Option Nat
  fill  : Bool
  loop  : Bool
  order : Nat
  deriving DecidableEq, Repr

/-- A CMD_PLAY that waits for its walk: the system boundary of that walk (R376). -/
structure PlayReq where
  tag  : Nat
  ch   : Nat
  stop : Bool
  walk : Nat
  play : Play
  deriving DecidableEq, Repr

/-- An extraction that runs (R369). -/
structure Extract where
  tag   : Nat
  key   : Nat
  start : Nat
  dur   : Nat
  host  : Nat
  len   : Nat
  deriving DecidableEq, Repr

/-- The frame record of a delay entry (R373). -/
structure DlyRec where
  word  : Nat
  kind  : Nat       -- 0 DATA, 1 IDLE, 2 AIS
  sig   : Nat
  frame : Nat
  gen   : Nat
  deriving DecidableEq, Repr

/-- The Hamper. Stream keys are 2 × tributary + SECOND. -/
structure HamperSt where
  mem       : FMap Nat                -- bytes by logical address; unlisted bytes read 0
  streams   : FMap (Option RecStream)
  refused   : List Nat                -- the streams refused a place (R361)
  nextFirst : FMap Nat                -- frame 0 of the period to come, by stream key, coded as in RecStream
  ranks     : FMap RankSt
  periods   : List Period             -- newest first
  nextPer   : Nat                     -- MF_NUM of the next record period boundary
  perWall   : Nat                     -- WALLCLOCK at the start of the period in progress
  plays     : FMap (Option Play)      -- by channel
  playReqs  : List PlayReq
  playCount : Nat                     -- plays started
  clips     : FMap Clip
  clipJob   : Option Nat              -- the clip being checked
  extracts  : List Extract
  dlySet    : FMap Nat                -- DELAY as written, per entry
  dly       : FMap Nat                -- DELAY in effect
  dlyDue    : Option Nat              -- TIMEBASE of the multiframe boundary at which written delays take effect
  dlyGen    : FMap Nat                -- generation per entry
  dlyUsed   : List Nat                -- the entries the last walk saw
  dlyRecs   : FMap (Option DlyRec)    -- entry × 16,384 + frame modulo 16,384
  scrubFrom : Nat                     -- TIMEBASE at which the patrol scrub pass in progress began
  ceTimes   : FMap (List Nat)         -- TIMEBASE of the corrected errors of the last hour, per channel
  lookup    : Bool                    -- LOOKUP_GO was set
  deriving DecidableEq, Repr

def HamperSt.reset : HamperSt :=
  { mem := [], streams := [], refused := [], nextFirst := [], ranks := [], periods := [], nextPer := 0, perWall := 0, plays := [], playReqs := [], playCount := 0, clips := [],
    clipJob := none, extracts := [], dlySet := [], dly := [], dlyDue := none, dlyGen := [], dlyUsed := [], dlyRecs := [],
    scrubFrom := 0, ceTimes := [], lookup := false }

end Sys2Proof.Machine
end

