-- ==== Sys2Proof/Machine/HostState.lean ====
section
/-! DEFINITION. The state of the host interface: reset and boot sequencing, the flash image as loaded, commands in flight,
baskets and rings, the MSI-X table, and what the device has sent to the outside (R26, R47 to R76, R447 to R456). -/

namespace Sys2Proof.Machine

/-- The device states of R42, with their codes. -/
inductive Mode where
  | reset | boot | cal | ready | run | standby | maint | safe
  deriving DecidableEq, Repr

/-- The STATE code of R42. -/
def Mode.code : Mode → Nat
  | .reset => 0 | .boot => 1 | .cal => 2 | .ready => 3 | .run => 4 | .standby => 5 | .maint => 6 | .safe => 7

/-- The device state of a STATE code of R42. -/
def Mode.ofCode : Nat → Option Mode
  | 0 => some .reset | 1 => some .boot | 2 => some .cal | 3 => some .ready | 4 => some .run | 5 => some .standby
  | 6 => some .maint | 7 => some .safe | _ => none

/-- What the device sends to the outside, one entry each, newest first in `HostSt.out` (log entry 5). -/
inductive Output where
  | msix (vector : Nat)                              -- an MSI-X message (R59)
  | ringItem (ring addr : Nat) (words : List Nat)    -- an item written to its slot of a ring in host memory (R451)
  | ringPi (ring addr word : Nat)                    -- the PI word written behind a ring (R451)
  | hostWrite (addr : Nat) (bytes : List Nat)        -- record blocks written to host memory (R369)
  | readData (data : List Nat)                       -- the data of a completed host read (R16, R371)
  | readPoison                                       -- a poisoned completion (R371)
  | ckpt (gen part : Nat) (body : CkptBody)  -- a checkpoint section sent to the partner (R392, R393)
  | claim (on drive : Bool)                          -- the claim pins driven to claiming or not, or left undriven (R386)
  | spi (master cs frame : Nat)                      -- a 24-bit AFE SPI frame (R87)
  | avs (millivolt : Nat)                            -- an AVSBus voltage request (R40)
  | mate (lanes : Nat) (words : List Nat)            -- a mate frame, on the lanes of a mask (R388, R389)
  | trunk (lane : Nat) (words : List Nat)            -- a trunk frame (R323)
  | line (port : Nat) (words : List Nat)             -- the transmit sample words of a line frame (R84)
  | lineIdle (word : Option Nat)                     -- what every port that does not transmit sends from here on; none: lanes not driven (R85)
  | flashWrite (addr len : Nat)                      -- bytes written to the flash (R73)
  | journalErase (sector : Nat)                      -- a sector of the journal erased (R73)
  | journalFlash (off : Nat) (words : List Nat)      -- a journal entry written to the flash, at a byte offset in the journal (R73)
  | fsyncOut                                         -- a pulse on FSYNC_OUT (R270)
  deriving DecidableEq, Repr

/-- A command taken from the CMD basket and not yet completed (R63). -/
structure Inflight where
  tag     : Nat
  code    : Nat
  args    : List Nat
  started : Bool
  silent  : Bool   -- completes without a completion item (R49)
  deriving DecidableEq, Repr

/-- An inbound basket (R447, R450): held items, oldest first, and the open item's words so far. -/
structure Basket where
  items : List (List Nat)
  open? : Option (List Nat)
  slot  : Nat              -- the CMD write slot (R450)
  deriving DecidableEq, Repr

def Basket.empty : Basket := ⟨[], none, 0⟩

/-- The CMEM staging register (R50): page, entry and the halves stored since the last commit. -/
structure Staging where
  page  : Nat
  entry : Nat
  lo    : Option Nat
  hi    : Option Nat
  deriving DecidableEq, Repr

/-- What BOOT reads at present (R71, R74). Copies: `false` is copy A. -/
inductive BootRead where
  | sfdp
  | header (copy : Bool)
  | record (copy : Bool)
  | scan                    -- the journal
  | volts                   -- nothing: the voltage of the programme is awaited (R511)
  | none
  deriving DecidableEq, Repr

/-- An entry of a copy's record directory (R70). -/
structure DirEntry where
  type    : Nat
  version : Nat
  offset  : Nat
  length  : Nat
  deriving DecidableEq, Repr

/-- BOOT (R71): the copy whose header is in use, the outcome of the headers read with their directories, and the read under way. -/
structure BootSt where
  use     : Bool
  hdrA    : Option Bool
  hdrB    : Option Bool
  reading : BootRead
  since   : Nat             -- TIMEBASE of the start of the read
  dirA    : List DirEntry
  dirB    : List DirEntry
  deriving DecidableEq, Repr

/-- BOOT before it has read anything. -/
def BootSt.idle : BootSt := ⟨false, none, none, .none, 0, [], []⟩

/-- The host side of the device. -/
structure HostSt where
  resetLow   : Bool             -- RESET_N is driven low
  perst      : Bool             -- PERST# is asserted
  strapFrom  : Option Nat       -- TIMEBASE at the start of strap sampling (R96)
  internalAt : Option Nat       -- TIMEBASE at which CMD_STATE(RESET) entered RESET (R64)
  boot       : BootSt
  siRev      : Nat              -- silicon revision (R54)
  grade      : Nat              -- temperature grade: 0 HB, 1 HX (R390)
  identity   : Option (Nat × Nat × Nat)  -- UNIT_ID, PAIR_ID, PEER_ID of PAIR_IDENTITY (R382)
  keyFuse    : Bool             -- fuses hold a key hash (R75)
  journalSeq : FMap Nat         -- sequence number of the last journal entry per type (R73)
  journalAt  : Nat              -- byte offset behind the last entry of the journal area (R73)
  journalJob : List (Nat × Nat) -- journal writes under way: type, value (R73)
  pcieWidth  : Nat              -- lanes of the PCI Express link as trained: 1, 2, 4 or 8 (R47)
  pcieRate   : Nat              -- its rate: 0 to 4 for 2.5, 5, 8, 16 and 32 GT/s (R47)
  flashJob   : Option (Nat × Nat × Nat)  -- the flash write under way: tag, address, length (R73)
  inflight   : List Inflight    -- in the order they were taken (R63)
  cplWait    : List (List Nat)  -- completions waiting for credit, oldest first (R452)
  baskets    : FMap Basket      -- 0 CMD, 1 DCC_TX, 2 + c MBX_IN[c] (R456)
  evtSeq     : Nat              -- item sequence number of EVT (R448)
  dccSeq     : Nat              -- item sequence number of DCC_RX (R448)
  staging    : Option Staging   -- CMEM staging register (R50)
  msixTable  : FMap Nat         -- 128 entries of 4 words, XORed with their reset value (R53)
  msixPend   : FMap Bool        -- the pending bit array (R53)
  wallAt     : Nat              -- MF_NUM of the boundary at which WALLCLOCK last advanced (R75)
  out        : List Output      -- what was sent, newest first
  deriving DecidableEq, Repr

def HostSt.reset : HostSt :=
  { resetLow := false, perst := false, strapFrom := some 0, internalAt := none, boot := BootSt.idle,
    siRev := 1, grade := 0, identity := none, keyFuse := false, journalSeq := [], journalAt := 0, journalJob := [], pcieWidth := 8, pcieRate := 4, flashJob := none, inflight := [], cplWait := [], baskets := [],
    evtSeq := 0, dccSeq := 0, staging := none, msixTable := [], msixPend := [], wallAt := 0, out := [] }

end Sys2Proof.Machine
end

