-- ==== Sys2Proof/Machine/LineState.lean ====
section
/-! DEFINITION. The state of converter links, RINSE, the AFE SPI masters and the policed inputs behind the registers of
R106 to R108 and R517. -/

namespace Sys2Proof.Machine

/-- The states of LINK_STATE (R107). -/
inductive LinkMode where
  | disabled | syncing | up | failed
  deriving DecidableEq, Repr

/-- The LINK_STATE code. -/
def LinkMode.code : LinkMode → Nat
  | .disabled => 0 | .syncing => 1 | .up => 2 | .failed => 3

/-- A JESD204C link (R88, R89). -/
structure LinkSt where
  mode    : LinkMode
  since   : Nat          -- TIMEBASE of entry to that state
  lemc    : Option Nat   -- the LEMC boundary that a SYSREF edge marked since the link entered SYNCING, in 1/65,536 tick
  upAt    : Option Nat   -- TIMEBASE of the last entry to UP; none before the first (R87)
  downAt  : Nat          -- TIMEBASE at which it last left UP
  deriving DecidableEq, Repr

def LinkSt.off : LinkSt := ⟨.disabled, 0, none, none, 0⟩

/-- An AFE SPI transaction (R87, R99, R105). -/
inductive SpiJob where
  | idRead (link : Nat)
  | owner (link : Nat) (set : Nat)
  | gainWrite (port code : Nat)
  deriving DecidableEq, Repr

/-- An AFE SPI master. -/
structure MasterSt where
  queue   : List SpiJob
  current : Option SpiJob
  raw     : Bool          -- a raw transaction runs (R108)
  release : Bool          -- HOLD ends when the raw transaction has ended (R105)
  deriving DecidableEq, Repr

def MasterSt.idle : MasterSt := ⟨[], none, false, false⟩

/-- Gain traffic of a port that is pending (R99 to R101). -/
structure GainJob where
  code   : Nat           -- the code written to the AFE
  since  : Option Nat    -- TIMEBASE of the end of the write; none until then
  reads  : Nat           -- read-backs made
  newest : Option Nat    -- a code written meanwhile
  cause  : Nat           -- CAUSE a timeout would report: 0 mismatch, 1 not settled
  paused : Nat           -- ticks the timer stood still while HELD (R105)
  heldAt : Option Nat    -- TIMEBASE at which HELD stopped the timer
  deriving DecidableEq, Repr

/-- RINSE of one port (R91 to R94, R103, R104). Samples stand in 1/65,536 code. -/
structure RinseSt where
  fillRun   : Nat            -- consecutive port-frames with fills, at most 8
  cleanRun  : Nat            -- consecutive port-frames without, at most 16
  loss      : Bool           -- SAMPLE_LOSS
  fills     : List (Nat × Nat)  -- samples filled and not yet in a finished port-frame: the first one's index, their number
  dc        : Int            -- m of the DC removal
  hist      : List (List Cx) -- per decimation stage, the last inputs, newest first
  level     : Nat × Nat      -- the sum of squared samples and their count in the multiframe
  wins      : List ((Nat × Nat) × (Nat × Nat))  -- the same per granted window of a shared port, by cycle start and window
  powers    : List Nat       -- the mean powers of the last 16 multiframes, newest first
  overMf    : Nat            -- over-range samples of the multiframe
  alarmPrev : Bool           -- the last port-frame had alarm samples
  gain      : Option GainJob
  window    : Nat            -- multiframes in the advice window
  windowOvr : Bool           -- over-range samples in it
  windowOff : Bool           -- the window restarts at the next multiframe boundary (R104)
  deriving DecidableEq, Repr

def RinseSt.reset : RinseSt :=
  { fillRun := 0, cleanRun := 0, loss := false, fills := [], dc := 0, hist := [], level := (0, 0), wins := [], powers := [], overMf := 0,
    alarmPrev := false, gain := none, window := 0, windowOvr := false, windowOff := false }

/-- The filter of a GPIO input (R95): the level last sampled, how often in a row, when. -/
structure PinSt where
  level : Bool
  run   : Nat
  at_   : Nat
  deriving DecidableEq, Repr

def PinSt.reset : PinSt := ⟨false, 0, 0⟩

/-- The state of the line side. -/
structure LineSt where
  links    : FMap LinkSt
  rinse    : FMap RinseSt
  masters  : FMap MasterSt
  gpio     : FMap PinSt
  idle     : Option Nat   -- the word that ports which do not transmit send; none: transmit lanes not driven (R85)
  fsyncRef : Option Nat   -- the FSYNC_IN reference (R97)
  fsyncBad : Nat          -- consecutive bad periods
  fsyncGood : Nat         -- consecutive good periods
  fsyncLoss : Bool
  refBad   : Nat          -- consecutive REFCLK windows out of range (R98)
  jrefBad  : Nat
  deriving DecidableEq, Repr

def LineSt.reset : LineSt :=
  { links := [], rinse := [], masters := [], gpio := [], idle := none, fsyncRef := none, fsyncBad := 0, fsyncGood := 0, fsyncLoss := false, refBad := 0,
    jrefBad := 0 }

end Sys2Proof.Machine
end

