-- ==== Sys2Proof/Machine/LintState.lean ====
section
/-! DEFINITION. The state of LINT and BIST behind their registers (R483 to R503). -/

namespace Sys2Proof.Machine

/-- What LINT and the reporting block hold of one fault source (R484, R485). -/
structure SrcSt where
  cond     : Bool    -- the source's condition is present
  held     : Bool    -- an occurrence is held until LINT records it
  detail   : Nat     -- FIRST_DETAIL of the held occurrence (R504)
  accepted : Bool    -- the accepted level is 10
  bad      : Nat     -- consecutive invalid samples
  failed   : Bool    -- failed under R485
  good     : Nat     -- consecutive valid samples while failed
  deriving DecidableEq, Repr

/-- A source that shows no error and is not failed. -/
def SrcSt.idle : SrcSt := ⟨false, false, 0, false, 0, false, 0⟩

/-- The kinds of block a SEVERE reaction resets (R488). -/
inductive ResetBlock where
  | lane (l : Nat) | port (n : Nat) | ndl (e : Nat) | link (k : Nat) | trunk (l : Nat) | afec | chk | bist
  deriving DecidableEq, Repr

/-- A reaction shadow (R493): the block reset, the ports and engines it lists, and the boundaries passed since the
reset ended. -/
structure Shadow where
  block   : ResetBlock
  ports   : List Nat
  engines : List Nat
  lanes   : List Nat
  ends    : Option Nat   -- TIMEBASE at which the reset ends, where it ends by time
  ended   : Bool         -- the reset has ended
  seen    : Nat          -- system frame boundaries passed since it ended
  deriving DecidableEq, Repr

/-- A CMD_BIST run (R500). -/
structure BistRun where
  tag    : Nat
  items  : List Nat            -- items left, the current one first
  slices : Nat
  failed : Nat                 -- slices failed
  parts  : Nat                 -- partitions failed, one bit each
  first  : Option (Nat × Nat)  -- first failing item and its signature
  deriving DecidableEq, Repr

/-- The state of LINT and BIST. -/
structure LintSt where
  src        : FMap SrcSt
  escTimes   : FMap (List Nat)  -- TIMEBASE of the SEVERE reactions each source received (R490)
  shadows    : List Shadow
  nextWindow : Nat              -- TIMEBASE of the next sample (R483)
  injRail    : Option (Nat × Nat)  -- source and MODE sampled in place of its rails (R496)
  refs       : FMap Nat         -- reference signatures of BIST_REFS (R499)
  refsRev    : Option Nat       -- SI_REV of the loaded record
  run        : Option BistRun
  rollStep   : Nat              -- rolling step, 0 to 199 (R502)
  rollItem   : Option Nat       -- the rolling item under way
  rollFrom   : Nat              -- TIMEBASE at which the round's step 0 is due
  exitDue    : Bool             -- a BIST run has ended in MAINT: READY follows once no command is in flight (R26)
  selftestFail : Bool           -- SELFTEST_FAIL of the health word (R502)
  masked     : List (Nat × Nat) -- partition under scan, and the samples its mask still lasts (R501)
  deriving DecidableEq, Repr

def LintSt.reset : LintSt :=
  { src := [], escTimes := [], shadows := [], nextWindow := 32, injRail := none, refs := [], refsRev := none, run := none, rollStep := 0,
    rollItem := none, rollFrom := 0, exitDue := false, selftestFail := false, masked := [] }

end Sys2Proof.Machine
end

