-- ==== Sys2Proof/Machine/MangleState.lean ====
section
/-! DEFINITION. The state of MANGLE, the trunk lanes and the protection selectors behind their registers (R299 to R353). -/

namespace Sys2Proof.Machine

/-- The kind of a destination word (R305); `pleat` marks pleated data, which is sent with no bit replaced (R306), `desync` a line destination
whose words FOLD reads from the desynchronizer of index `word` (R291, R311). -/
inductive WordKind where
  | data | idle | ais | pleat | desync
  deriving DecidableEq, Repr

/-- A destination word with its kind and signalling word. -/
structure DestWord where
  word : Nat
  kind : WordKind
  sig  : Nat
  deriving DecidableEq, Repr

/-- IDLE (R216). -/
def DestWord.idle : DestWord := ⟨0x155, .idle, 0⟩

/-- A page swap that is pending (R314, R315). -/
structure SwapSt where
  tag      : Nat
  boundary : Nat          -- TIMEBASE of the multiframe boundary of the swap point's walk
  passed   : Bool         -- the swap point has passed; the copy runs
  deriving DecidableEq, Repr

/-- A PRBS checker (R309). -/
structure PrbsSt where
  hist : Nat              -- the last 15 bits
  good : Nat              -- words without error in a row, at most 16
  last : List Bool        -- the last eight words, true where one held an error
  deriving DecidableEq, Repr

def PrbsSt.reset : PrbsSt := ⟨0, 0, []⟩

/-- A candidate of the trunk deframer (R325). -/
structure TrunkCand where
  pos    : Nat
  passed : Nat            -- frames passed
  fn     : Option Nat     -- the frame number last judged, advanced with every frame
  age    : Nat            -- frames as a survivor
  deriving DecidableEq, Repr

/-- A run of equal accepted values (R328). -/
structure ValueRun where
  value : Nat
  count : Nat
  deriving DecidableEq, Repr

/-- A trunk frame on its way to the walk: the stamp of its last word or the boundary it takes, its frame number, its words. -/
structure TrunkIn where
  time  : Nat
  fn    : Nat
  words : List Nat
  deriving DecidableEq, Repr

/-- The receive side of a trunk lane. -/
structure TrunkRx where
  raw      : List Nat         -- the words received in the last frame time, wherever the frame begins in them
  cands    : List TrunkCand
  pos      : Option Nat       -- the declared position
  fn       : Option Nat       -- the frame number expected next; none until one was judged
  aligned  : Bool             -- multiframe alignment
  fawBad   : Nat
  fnBad    : Nat              -- judged frames in a row that fail
  fnGood   : Nat              -- judged frames in a row in step, without multiframe alignment
  held     : Nat              -- frames in a row with frame alignment, at most 16
  deliver  : Bool             -- payload is delivered to the slip buffer
  everFa   : Bool             -- frame alignment has been declared since the lane was enabled
  lockFrom : Option Nat       -- TIMEBASE since which the CDR is locked, while TLOS waits to clear
  lfsr     : Nat
  crc      : Nat
  whole    : Bool
  expect   : Option Nat
  aisRun   : Nat
  noAis    : Nat
  trdiRun  : Nat
  noTrdi   : Nat
  winSeen  : Nat              -- TSD window: multiframes with a result
  label    : ValueRun
  epoch    : ValueRun
  role     : ValueRun
  sel      : ValueRun
  bytes    : FMap Nat         -- word 3 of the frames of the multiframe so far
  trace    : List Nat
  cycle    : Option (List Nat)
  accepted : List Nat
  sigs     : FMap Nat         -- candidate signalling words per slot
  tsig     : FMap Nat         -- committed signalling words per slot (R308)
  slip     : Bool             -- a slip fell in the multiframe
  rei      : Bool             -- the last received multiframe failed its CRC-10
  incoming : List TrunkIn     -- frames delivered, not yet in the slip buffer
  queue    : List TrunkIn     -- frames in the slip buffer, by their boundary
  used     : Option TrunkIn   -- the frame that last filled a system frame
  jcActive : List Nat         -- pleat indices whose last justification word had the marker
  deriving DecidableEq, Repr

def TrunkRx.reset : TrunkRx :=
  { raw := [], cands := [], pos := none, fn := none, aligned := false, fawBad := 0, fnBad := 0, fnGood := 0, held := 0, deliver := false,
    everFa := false, lockFrom := none, lfsr := 2047, crc := 1023, whole := false, expect := none, aisRun := 0, noAis := 0, trdiRun := 0,
    noTrdi := 0, winSeen := 0, label := ⟨0, 0⟩, epoch := ⟨0, 0⟩, role := ⟨0, 0⟩, sel := ⟨0, 0⟩, bytes := [], trace := [], cycle := none,
    accepted := List.replicate 16 0, sigs := [], tsig := [], slip := false, rei := false, incoming := [], queue := [], used := none, jcActive := [] }

/-- The transmit side of a trunk lane (R319 to R324). -/
structure TrunkTx where
  lfsr    : Nat
  crc     : Nat
  crcPrev : Nat
  trace   : Nat         -- the trace byte sent next
  deriving DecidableEq, Repr

def TrunkTx.reset : TrunkTx := ⟨2047, 1023, 0, 0⟩

/-- What a restoring selector waits in (R336). -/
inductive Restore where
  | none | wtr (ends : Nat) | dnr
  deriving DecidableEq, Repr

/-- A protection selector (R333 to R339). -/
structure SelSt where
  started : Bool
  onProt  : Bool
  workAt  : Option Nat     -- TIMEBASE since which a trigger of the working source has been present
  protAt  : Option Nat
  workOk  : Bool           -- that trigger has outlasted its hold-off
  protOk  : Bool
  restore : Restore
  localReq : Nat
  msProt  : Bool           -- the local request MS asks for protection
  top     : Nat
  own     : Bool           -- the top request is the selector's own
  deriving DecidableEq, Repr

def SelSt.reset : SelSt := ⟨false, false, none, none, false, false, .none, 0, false, 0, true⟩

/-- APS of a port group (R343, R344). -/
structure ApsSt where
  pair  : Nat × Nat
  run   : Nat
  remote : Nat             -- the accepted REQ
  sig   : Nat              -- the accepted SIG
  deriving DecidableEq, Repr

def ApsSt.reset : ApsSt := ⟨(0, 0), 0, 0, 0⟩

/-- MANGLE, the trunk lanes and the selectors. -/
structure MangleSt where
  cmem     : FMap Nat          -- page × 32768 + entry, XORed with 0xF
  judged   : FMap Bool         -- entries of the active page already counted in CM_BAD or DUP_DST
  swap     : Option SwapSt
  nextWalk : Nat               -- TIMEBASE of the system boundary of the next walk
  dest     : FMap DestWord     -- per destination slot address
  line     : List (Nat × FMap DestWord)  -- line destinations of the latest walks, by their boundary
  entryAt  : FMap Nat          -- the entry of each destination as the last walk saw it, plus one
  held     : FMap DestWord     -- the words that MODE 2 destinations hold
  gen      : Nat               -- PRBS generator register
  checks   : FMap PrbsSt
  rx       : FMap TrunkRx
  tx       : FMap TrunkTx
  group    : FMap SelSt        -- per working port
  entrySel : FMap SelSt        -- per entry
  pairSel  : FMap SelSt
  aps      : FMap ApsSt        -- per working port
  query    : FMap Nat          -- per MODE 1 entry, the word of DEV offset 0x0E4 as the last walk left it (R352)
  deriving DecidableEq, Repr

def MangleSt.reset : MangleSt :=
  { cmem := [], judged := [], swap := none, nextWalk := 20480, dest := [], line := [], entryAt := [], held := [], gen := 32767, checks := [], rx := [], tx := [],
    group := [], entrySel := [], pairSel := [], aps := [], query := [] }

end Sys2Proof.Machine
end

