-- ==== Sys2Proof/Machine/NeedleState.lean ====
section
/-! DEFINITION. The state of the Needle engines behind their pages (R412 to R440). Registers, flags, entry tables and data
stores are the fields of the NDL pages. -/

namespace Sys2Proof.Machine

/-- A hook event (R420): its kind is `k`, 5 to 12 for the timers 0 to 7 and 13 to 20 for the timers 8 to 15. -/
structure HookEv where
  k    : Nat
  port : Option Nat
  n1   : Nat
  n2   : Nat
  n3   : Nat
  data : List Nat       -- bytes of a DCC message, or words of a mailbox item
  win  : List Nat       -- the receive overhead window of its multiframe
  deriving DecidableEq, Repr

/-- An invocation: its event and the entry of the table that it runs. -/
structure Invocation where
  ev    : HookEv
  entry : Nat
  then? : Option Nat    -- the entry that the event still has to invoke
  wins  : Bool          -- the port windows exist (R415, R427)
  deriving DecidableEq, Repr

/-- A timer (R432). -/
structure NdlTimer where
  at?    : Option Nat   -- TIMEBASE at which it fires
  period : Nat          -- in system frames; 0 for a timer that fires once
  port   : Option Nat
  deriving DecidableEq, Repr

def NdlTimer.off : NdlTimer := ⟨none, 0, none⟩

/-- An engine. -/
structure EngineSt where
  pc       : Nat
  running  : Option Invocation
  waiting  : Option (HookEv × Nat)   -- an event whose customer entry is still to run
  queue    : List HookEv
  timers   : FMap NdlTimer
  dccBuf   : FMap Nat
  mbxOut   : FMap Nat
  mbxLo    : Nat
  chkHalf  : FMap Nat                -- CHK halves written or latched, by word address (R431)
  used     : Nat                     -- instructions of the account in this system multiframe
  executed : Nat
  spent    : Bool                    -- the account is exhausted
  deriving DecidableEq, Repr

def EngineSt.reset : EngineSt :=
  { pc := 0, running := none, waiting := none, queue := [], timers := [], dccBuf := [], mbxOut := [], mbxLo := 0, chkHalf := [], used := 0,
    executed := 0, spent := false }

/-- The engines and clusters. -/
structure NeedleSt where
  loaded  : Bool            -- a NEEDLE_IMAGE record has been loaded (R71, R437)
  istore  : FMap Nat        -- engine × 4096 + word, XORed with 0xFFFFFF
  shared  : FMap Nat        -- cluster × 16384 + word
  engines : FMap EngineSt
  scratch : FMap Nat        -- port × 128 + word (R423)
  imgData : FMap Nat        -- the image's data stores: engine × 2048 + word
  imgEntry : FMap Nat       -- the image's entry words: engine × 32 + entry
  imgShared : FMap Nat      -- the image's shared stores: cluster × 16384 + word
  deriving DecidableEq, Repr

def NeedleSt.reset : NeedleSt :=
  { loaded := false, istore := [], shared := [], engines := [], scratch := [], imgData := [], imgEntry := [], imgShared := [] }

end Sys2Proof.Machine
end

