-- ==== Sys2Proof/Machine/PairState.lean ====
section
/-! DEFINITION. The state of PAIR behind its registers: the peer, claim pins, checkpoints, journal, mirror, takeover and
switchover (R381 to R411). -/

namespace Sys2Proof.Machine

/-- What the peer's last STATUS showed (R390). -/
structure PeerSt where
  unit      : Nat
  pair      : Nat
  siRev     : Nat
  grade     : Nat
  secondary : Bool
  resolving : Bool
  claim     : Bool
  gen       : Nat
  jseq      : Nat
  deriving DecidableEq, Repr

/-- A journal entry as sent (R395): its SEQ, its words, and TIMEBASE of its last sending; none until it is sent. -/
structure JrnOut where
  seq    : Nat
  words  : List Nat
  sentAt : Option Nat
  deriving DecidableEq, Repr

/-- A checkpoint section as held: its number, whether its CRC-32 passed, and its content. -/
structure CkptSection where
  id   : Nat
  ok   : Bool
  body : CkptBody
  deriving DecidableEq, Repr

/-- A checkpoint slot (R392, R394). -/
structure SlotSt where
  gen       : Nat
  epoch     : Nat
  jseqBase  : Nat
  snapTb    : Nat
  count     : Nat              -- SECTIONS of the header
  headCrc   : Option Nat       -- the header's CRC-32 where the header is sound
  committed : Bool
  parts     : List CkptSection
  deriving DecidableEq, Repr

def SlotSt.empty : SlotSt := ⟨0, 0, 0, 0, 0, none, false, []⟩

/-- The checkpoint an active unit sends (R392): generation, JSEQ_BASE, TIMEBASE of the boundary, its sections, whether all of it
has been sent. -/
structure CkptSend where
  gen      : Nat
  jseqBase : Nat
  snapTb   : Nat
  parts    : List (Nat × CkptBody)
  sent     : Bool
  deriving DecidableEq, Repr

/-- A CMD_SWITCHOVER under way (R404). -/
inductive SwitchSt where
  | drain (since : Nat)        -- the active unit waits for the acknowledgement of its last SEQ
  | handed (at_ : Nat)         -- HANDOVER was sent at that TIMEBASE
  | asked                      -- the standby has sent HANDOVER_REQ
  deriving DecidableEq, Repr

/-- A mirrored record period in progress (R397): its start on the writer's TIMEBASE, the writer's EPOCH, MF_NUM, WALLCLOCK, its ranks. -/
structure MirPeriod where
  start : Nat
  epoch : Nat
  mfNum : Nat
  wall  : Nat
  ranks : List MirRank
  deriving DecidableEq, Repr

/-- PAIR. -/
structure PairSt where
  peer       : Option PeerSt
  resolving  : Bool
  waitFrom   : Option Nat      -- TIMEBASE since which the mate link has been down and the peer not claiming, while resolving
  claimSince : Option Nat      -- TIMEBASE since which this unit claims
  pinsAt     : Nat             -- TIMEBASE of the acceptance of the peer's pins
  wireFault  : Bool            -- a persistent wire fault
  lanesDown  : Option Nat      -- TIMEBASE since which no mate lane has been up
  hbMiss     : Nat             -- system frames in a row without a heartbeat, at most 8
  hbSeen     : Bool            -- a heartbeat has arrived in the present system frame
  hbLoss     : Bool            -- heartbeat loss is present
  statusAt   : Option Nat      -- TIMEBASE of the last STATUS frame
  offsets    : List (Nat × Int)  -- per EPOCH of the peer, newest first: its TIMEBASE minus this unit's
  mateSeq    : FMap Nat        -- SEQ sent last per frame type
  genStart   : Nat             -- the generation started last
  genDone    : Nat             -- the generation committed last at the standby
  send       : Option CkptSend
  ckptForce  : List Nat        -- tags of CMD_CKPT_FORCE that wait for the checkpoint
  ckptDue    : Bool            -- a checkpoint starts at the next multiframe boundary
  ckptNext   : Nat             -- TIMEBASE at which the next periodic checkpoint is due
  slotA      : SlotSt
  slotB      : SlotSt
  rxGen      : Option Nat      -- the generation being received
  jrnSeq     : Nat             -- SEQ of the last entry
  jrnAlive   : Nat
  jrnOut     : List JrnOut     -- entries not acknowledged, oldest first
  jrnStop    : Bool            -- journalling stopped by overflow until a checkpoint starts
  jrnLost    : Bool            -- the journal overflowed, and no checkpoint taken since has committed
  jrnIn      : List JrnIn      -- entries held, oldest first
  jrnAliveIn : Option Nat      -- ALIVE of the last entry held; none before the first after a checkpoint
  jrnLag     : Bool            -- an entry sent a system frame ago is not held
  jrnHigh    : Nat             -- the highest contiguous SEQ held
  mirror     : FMap (Nat × Nat)  -- last mirrored word and kind per stream key
  mirWords   : FMap Nat        -- mirrored words of the period: stream key × 3,200 + frame
  mirGap     : Bool            -- a MIRROR frame of the period was lost
  mirSeq     : Option Nat      -- SEQ of the last MIRROR frame received
  mirPer     : Option MirPeriod
  progWant   : Option Nat      -- a programme that the active unit has changed to, not yet begun here (R396)
  switch     : Option (Option Nat × SwitchSt)  -- the tag of the command at this unit, if any
  take       : Option Nat      -- TIMEBASE of the trigger of a transition to active, until the first walk after it
  holds      : List Nat        -- stream keys whose sources carry the last mirrored word (R403)
  selRef     : FMap Nat        -- SELECTED_EPOCH last accepted per trunk lane (R406)
  epochRef   : FMap Nat        -- EPOCH last accepted per trunk lane
  ageFrom    : Option Nat      -- TIMEBASE of the snapshot of the newest committed checkpoint, on this unit's TIMEBASE
  deriving DecidableEq, Repr

def PairSt.reset : PairSt :=
  { peer := none, resolving := false, waitFrom := none, claimSince := none, pinsAt := 0, wireFault := false, lanesDown := some 0,
    hbMiss := 0, hbSeen := false, hbLoss := false, statusAt := none, offsets := [], mateSeq := [], genStart := 0, genDone := 0,
    send := none, ckptForce := [], ckptDue := false, ckptNext := 0, slotA := SlotSt.empty, slotB := SlotSt.empty, rxGen := none, jrnSeq := 0,
    jrnAlive := 0, jrnOut := [], jrnStop := false, jrnLost := false, jrnIn := [], jrnAliveIn := none, jrnLag := false, jrnHigh := 0, mirror := [], mirWords := [], mirGap := false, mirSeq := none, mirPer := none, progWant := none,
    switch := none, take := none, holds := [], selRef := [], epochRef := [], ageFrom := none }

end Sys2Proof.Machine
end

