-- ==== Sys2Proof/Machine/Field.lean ====
section
/-! DEFINITION. What a register field is: its page, place, width, access type (R10), reset source (R12), range (R52) and
the guard its owning rule puts on host writes. -/

namespace Sys2Proof.Machine

/-- The page types of R53, with the two context areas and the three LINT pages apart. -/
inductive Page where
  | dev | lint0 | lint1 | lint2 | starch | pair | hostq | chk | mtx | bist | hamper | afec | mangle
  | trunk | jlane | port | ndl | trib | stn
  deriving DecidableEq, Repr

/-- The number of a page type in field names: the TYPE codes of R53, and 16 to 19 for the pages and contexts that share
a type or have none. -/
def Page.code : Page → Nat
  | .dev => 1 | .lint0 => 2 | .starch => 3 | .pair => 4 | .hostq => 5 | .chk => 6 | .mtx => 7 | .bist => 8
  | .hamper => 9 | .afec => 10 | .mangle => 11 | .trunk => 12 | .jlane => 13 | .port => 14 | .ndl => 15
  | .lint1 => 16 | .lint2 => 17 | .trib => 18 | .stn => 19

/-- The access types of R10. -/
inductive Access where
  | rw | ro | w1c | wo | sc | rwe
  deriving DecidableEq, Repr

/-- Where the Reset column takes a field's value from (R12). -/
inductive ResetSrc where
  | val (v : Nat)        -- the value itself
  | flash (v : Nat)      -- from DEVICE_CONFIG; `v` until BOOT loads it
  | leafVec              -- 2 + floor(i/32) (R75)
  | prio                 -- the reset priority of the master (R441)
  | credit               -- the slots of the basket (R456)
  deriving DecidableEq, Repr

/-- How an out-of-range write is handled (R52). -/
inductive Range where
  | any
  | clamp (lo hi : Nat)        -- takes the nearest end of the range
  | codes (allowed : List Nat) -- keeps its value on a value not listed
  | rbd                        -- 0 to 32 × E − 1 (R107)
  deriving DecidableEq, Repr

/-- What the owning rule says of a host write. -/
inductive Guard where
  | none
  | readyOnly         -- takes effect only in READY (R43)
  | portMode          -- misuse while the port is not DISABLED (R134, R166, R188)
  | portOff           -- ignored while the port is not DISABLED (R134, R166, R188, R279, R349)
  | laneOff           -- ignored while the JLANE page is enabled (R107)
  | linkField         -- a field of the link page only (R107)
  | linkFieldLaneOff  -- both of the two above (R107)
  | linkFieldFs       -- a link field; misuse while a port of the link is enabled (R107)
  | ctxIdle           -- misuse while the context's port is UP (R77, R241, R298)
  | trunkOff          -- misuse while the lane is enabled (R324)
  | ringOff           -- written only while the ring's ENABLE is 0 (R456)
  | engineStopped     -- written only while the engine is STOPPED (R439)
  | entryWrite        -- under the conditions of R437
  | ownRow            -- takes effect through a row of its own
  deriving DecidableEq, Repr

/-- A register or context field. `bit` counts from the start of the page or context; element `i` of an array field lies
`stride * i` bits further on. -/
structure Field where
  id     : Nat
  page   : Page
  bit    : Nat
  width  : Nat
  stride : Nat
  count  : Nat
  access : Access
  reset  : ResetSrc
  range  : Range
  guard  : Guard
  deriving DecidableEq, Repr

/-- The number that names element `idx` of a field on page instance `inst` in the register store. -/
def Field.key (f : Field) (inst idx : Nat) : Nat := (f.id * 65536 + inst) * 4096 + idx

/-- A field of the common page header (R54). -/
def Page.hdr (p : Page) (bit width : Nat) (a : Access) (r : ResetSrc) : Field :=
  ⟨p.code * 1048576 + bit, p, bit, width, 0, 1, a, r, .any, .none⟩

/-- CTRL.EXPERT (R54). -/
def HDR.EXPERT (p : Page) : Field := p.hdr 66 1 .rw (.val 0)
/-- CTRL.SOFT_RESET (R54). -/
def HDR.SOFT_RESET (p : Page) : Field := p.hdr 65 1 .sc (.val 0)
/-- The Reset column of CTRL.ENABLE: RO 1 on DEV, LINT, HOSTQ and MTX (R54), from flash on JLANE, TRUNK and PAIR (R107, R331,
R381), 1 on NDL (R439); 0 on the other pages, for which the spec states no value (DESIGN CHOICE, log entry 3). -/
def enableReset : Page → ResetSrc
  | .dev | .lint0 | .lint1 | .lint2 | .hostq | .mtx => .val 1
  | .jlane | .trunk | .pair => .flash 0
  | .ndl => .val 1
  | _ => .val 0
/-- CTRL.ENABLE (R54). -/
def HDR.ENABLE (p : Page) : Field :=
  p.hdr 64 1 (match p with | .dev | .lint0 | .lint1 | .lint2 | .hostq | .mtx => .ro | _ => .rw) (enableReset p)
/-- STATE of the pages whose state word the spec defines: PORT [2:0] (R54), NDL [1:0] (R439). -/
def HDR.STATE (p : Page) : Field := p.hdr 96 32 .ro (.val 0)
/-- EVT_STATUS (R54). -/
def HDR.EVT_STATUS (p : Page) : Field := p.hdr 128 32 .w1c (.val 0)
/-- EVT_ENABLE (R54). -/
def HDR.EVT_ENABLE (p : Page) : Field := p.hdr 160 32 .rw (.val 0)
/-- EVT_FORCE (R54). -/
def HDR.EVT_FORCE (p : Page) : Field := p.hdr 192 32 .wo (.val 0)
/-- FF_VALID (R54). -/
def HDR.FF_VALID (p : Page) : Field := p.hdr 255 1 .w1c (.val 0)
/-- FF_CLASS (R54). -/
def HDR.FF_CLASS (p : Page) : Field := p.hdr 253 2 .ro (.val 0)
/-- FF_SOURCE (R54). -/
def HDR.FF_SOURCE (p : Page) : Field := p.hdr 224 16 .ro (.val 0)
/-- FAULT_COUNT (R54). -/
def HDR.FAULT_COUNT (p : Page) : Field := p.hdr 256 32 .ro (.val 0)
/-- LEVEL: the present level of each event condition (R54). -/
def HDR.LEVEL (p : Page) : Field := p.hdr 288 32 .ro (.val 0)

/-- The header fields that host writes and soft resets act on, of a page with the header of R54. -/
def fieldsHdr (p : Page) : List Field :=
  [HDR.EXPERT p, HDR.SOFT_RESET p, HDR.ENABLE p] ++
  (match p with | .dev => [] | _ => [HDR.STATE p]) ++
  [HDR.EVT_STATUS p, HDR.EVT_ENABLE p, HDR.EVT_FORCE p, HDR.FF_VALID p, HDR.FF_CLASS p, HDR.FF_SOURCE p, HDR.FAULT_COUNT p,
   HDR.LEVEL p]

/-- The slots of the inbound baskets: 256 for CMD, 64 for the others (R447). -/
def basketSlots (i : Nat) : Nat := if i = 0 then 256 else 64

/-- The reset priority of a bus matrix master (R441). -/
def resetPrio (m : Nat) : Nat :=
  if m = 0 then 6 else if m = 1 then 4 else if m ≤ 13 then 8 else if m = 14 then 14
  else if m = 15 then 12 else if m = 16 then 13 else 2

/-- The Reset column's value of element `idx` of a field (R12). -/
def Field.resetAt (f : Field) (idx : Nat) : Nat :=
  match f.reset with
  | .val v => v
  | .flash v => v
  | .leafVec => 2 + idx / 32
  | .prio => resetPrio idx
  | .credit => basketSlots idx

/-- Whether the field's reset value comes from the DEVICE_CONFIG record (R12). -/
def Field.fromFlash (f : Field) : Bool :=
  match f.reset with
  | .flash _ => true
  | _ => false

end Sys2Proof.Machine
end

