-- ==== Sys2Proof/Machine/Registers.lean ====
section
/-! DEFINITION. Every register and context field of the spec, one constant each, in the order of its tables
(R42 to R46, R75, R106 to R108, R134, R166, R167, R188, R210, R241 to R243, R266 to R268, R295 to R298, R330, R331,
R349 to R352, R379, R380, R410, R439, R440, R446, R456, R464, R481, R482, R504 to R506, R517): the page, the first bit within the page or context, the
width, the distance in bits to the next element of an array field, the number of elements, the access type of R10,
the Reset column, the range of R52 and the guard the owning rule puts on host writes. -/

namespace Sys2Proof.Machine

/-- R42. -/
def DEV.BOOT_STEP : Field := ⟨1048680, .dev, 104, 4, 0, 1, .ro, .val 0, .any, .none⟩
/-- R42. -/
def DEV.STATE : Field := ⟨1048672, .dev, 96, 4, 0, 1, .ro, .val 0, .any, .none⟩
/-- R43. -/
def DEV.PROG_ADVICE : Field := ⟨1049100, .dev, 524, 2, 0, 1, .ro, .flash 1, .any, .none⟩
/-- R43. -/
def DEV.PROG_BUSY : Field := ⟨1049096, .dev, 520, 1, 0, 1, .ro, .val 0, .any, .none⟩
/-- R43. -/
def DEV.PROG_TARGET : Field := ⟨1049092, .dev, 516, 2, 0, 1, .ro, .flash 1, .any, .none⟩
/-- R43. -/
def DEV.PROG_ACTIVE : Field := ⟨1049088, .dev, 512, 2, 0, 1, .ro, .flash 1, .any, .none⟩
/-- R43. -/
def DEV.T2L_DELAY : Field := ⟨1049128, .dev, 552, 4, 0, 1, .rw, .val 3, .clamp 2 15, .readyOnly⟩
/-- R43. -/
def DEV.L2T_DELAY : Field := ⟨1049120, .dev, 544, 4, 0, 1, .rw, .val 4, .clamp 2 15, .readyOnly⟩
/-- R43. -/
def DEV.LOAD_REFUSED : Field := ⟨1049183, .dev, 607, 1, 0, 1, .w1c, .val 0, .any, .none⟩
/-- R43. -/
def DEV.LOAD_PCT : Field := ⟨1049168, .dev, 592, 7, 0, 1, .ro, .val 0, .any, .none⟩
/-- R43. -/
def DEV.LOAD_UNITS : Field := ⟨1049152, .dev, 576, 15, 0, 1, .ro, .val 0, .any, .none⟩
/-- R43. -/
def DEV.MIG_COUNT : Field := ⟨1049200, .dev, 624, 16, 0, 1, .ro, .val 0, .any, .none⟩
/-- R43. -/
def DEV.MIG_BUSY : Field := ⟨1049192, .dev, 616, 1, 0, 1, .ro, .val 0, .any, .none⟩
/-- R43. -/
def DEV.WALK_PIN : Field := ⟨1049185, .dev, 609, 1, 0, 1, .rwe, .val 0, .any, .none⟩
/-- R43. -/
def DEV.FREEZE : Field := ⟨1049184, .dev, 608, 1, 0, 1, .rwe, .val 0, .any, .none⟩
/-- R43. -/
def DEV.TIMEBASE_LO : Field := ⟨1049216, .dev, 640, 32, 0, 1, .ro, .val 0, .any, .none⟩
/-- R43. -/
def DEV.TIMEBASE_HI : Field := ⟨1049248, .dev, 672, 32, 0, 1, .ro, .val 0, .any, .none⟩
/-- R43. -/
def DEV.DL_MISS_TOTAL : Field := ⟨1049280, .dev, 704, 32, 0, 1, .ro, .val 0, .any, .none⟩
/-- R43. -/
def DEV.DL_MIGRATE : Field := ⟨1049334, .dev, 758, 1, 0, 1, .ro, .val 0, .any, .none⟩
/-- R43. -/
def DEV.DL_ABANDON : Field := ⟨1049333, .dev, 757, 1, 0, 1, .ro, .val 0, .any, .none⟩
/-- R43. -/
def DEV.DL_DIR : Field := ⟨1049332, .dev, 756, 1, 0, 1, .ro, .val 0, .any, .none⟩
/-- R43. -/
def DEV.DL_PORT : Field := ⟨1049320, .dev, 744, 9, 0, 1, .ro, .val 0, .any, .none⟩
/-- R43. -/
def DEV.DL_STAGE : Field := ⟨1049316, .dev, 740, 4, 0, 1, .ro, .val 0, .any, .none⟩
/-- R43. -/
def DEV.DL_LANE : Field := ⟨1049312, .dev, 736, 4, 0, 1, .ro, .val 0, .any, .none⟩
/-- R44. -/
def DEV.LANE_CAP : Field := ⟨1050624, .dev, 2048, 23, 128, 16, .ro, .val 0, .any, .none⟩
/-- R44. -/
def DEV.LANE_LOAD : Field := ⟨1050656, .dev, 2080, 23, 128, 16, .ro, .val 0, .any, .none⟩
/-- R44. -/
def DEV.LANE_RESET : Field := ⟨1050705, .dev, 2129, 1, 128, 16, .w1c, .val 0, .any, .none⟩
/-- R44. -/
def DEV.OVERRUN : Field := ⟨1050704, .dev, 2128, 1, 128, 16, .w1c, .val 0, .any, .none⟩
/-- R44. -/
def DEV.MISS_WINDOW : Field := ⟨1050696, .dev, 2120, 8, 128, 16, .ro, .val 0, .any, .none⟩
/-- R44. -/
def DEV.PORTS : Field := ⟨1050688, .dev, 2112, 7, 128, 16, .ro, .val 0, .any, .none⟩
/-- R44. -/
def DEV.LANE_MISS : Field := ⟨1050720, .dev, 2144, 32, 128, 16, .ro, .val 0, .any, .none⟩
/-- R45. -/
def PORT.PENDING : Field := ⟨14680415, .port, 351, 1, 0, 1, .ro, .val 0, .any, .none⟩
/-- R45. -/
def PORT.ENGINE_PIN : Field := ⟨14680399, .port, 335, 1, 0, 1, .rwe, .val 0, .any, .none⟩
/-- R45. -/
def PORT.ENGINE : Field := ⟨14680392, .port, 328, 7, 0, 1, .rwe, .val 0, .clamp 0 95, .none⟩
/-- R45. -/
def PORT.LANE_PIN : Field := ⟨14680391, .port, 327, 1, 0, 1, .rwe, .val 0, .any, .none⟩
/-- R45. -/
def PORT.LANE : Field := ⟨14680384, .port, 320, 4, 0, 1, .rwe, .val 0, .any, .none⟩
/-- R46. -/
def TRIB.PENDING : Field := ⟨18874879, .trib, 511, 1, 0, 1, .ro, .val 0, .any, .none⟩
/-- R46. -/
def TRIB.REC_PIN : Field := ⟨18874857, .trib, 489, 1, 0, 1, .rwe, .val 0, .any, .none⟩
/-- R46. -/
def TRIB.REC_RANK : Field := ⟨18874854, .trib, 486, 3, 0, 1, .rwe, .val 0, .any, .none⟩
/-- R46. -/
def TRIB.REC_CH : Field := ⟨18874852, .trib, 484, 2, 0, 1, .rwe, .val 0, .any, .none⟩
/-- R46. -/
def TRIB.BANK_PIN : Field := ⟨18874851, .trib, 483, 1, 0, 1, .rwe, .val 0, .any, .none⟩
/-- R46. -/
def TRIB.BANK : Field := ⟨18874848, .trib, 480, 3, 0, 1, .rwe, .val 0, .any, .none⟩
/-- R75. -/
def DEV.PCIE_ID : Field := ⟨1049347, .dev, 771, 1, 0, 1, .ro, .val 0, .any, .none⟩
/-- R75. -/
def DEV.TEST_MODE : Field := ⟨1049346, .dev, 770, 1, 0, 1, .ro, .val 0, .any, .none⟩
/-- R75. -/
def DEV.BOOT_SRC : Field := ⟨1049345, .dev, 769, 1, 0, 1, .ro, .val 0, .any, .none⟩
/-- R75. -/
def DEV.PAIR_ROLE : Field := ⟨1049344, .dev, 768, 1, 0, 1, .ro, .val 0, .any, .none⟩
/-- R75. -/
def DEV.SIG_REQUIRED : Field := ⟨1049394, .dev, 818, 1, 0, 1, .ro, .val 0, .any, .none⟩
/-- R75. -/
def DEV.HDR_B_BAD : Field := ⟨1049393, .dev, 817, 1, 0, 1, .ro, .val 0, .any, .none⟩
/-- R75. -/
def DEV.HDR_A_BAD : Field := ⟨1049392, .dev, 816, 1, 0, 1, .ro, .val 0, .any, .none⟩
/-- R75. -/
def DEV.BOOT_SRCS : Field := ⟨1049376, .dev, 800, 12, 0, 1, .ro, .val 0, .any, .none⟩
/-- R75. -/
def DEV.CMD_REJECT : Field := ⟨1049408, .dev, 832, 32, 0, 1, .ro, .val 0, .any, .none⟩
/-- R75. -/
def DEV.CMD_BUSY : Field := ⟨1049440, .dev, 864, 32, 0, 1, .ro, .val 0, .any, .none⟩
/-- R75. -/
def DEV.CMD_INFLIGHT : Field := ⟨1049472, .dev, 896, 10, 0, 1, .ro, .val 0, .any, .none⟩
/-- R75. -/
def DEV.WALLCLOCK : Field := ⟨1049504, .dev, 928, 32, 0, 1, .rw, .val 0, .any, .none⟩
/-- R75. -/
def DEV.PIN_EN : Field := ⟨1049536, .dev, 960, 1, 0, 1, .rw, .val 0, .any, .none⟩
/-- R75. -/
def DEV.VEC_ACK : Field := ⟨1049568, .dev, 992, 7, 0, 1, .wo, .val 0, .any, .none⟩
/-- R75. -/
def DEV.SUBWORD : Field := ⟨1049631, .dev, 1055, 1, 0, 1, .w1c, .val 0, .any, .none⟩
/-- R75. -/
def DEV.RANGE : Field := ⟨1049630, .dev, 1054, 1, 0, 1, .w1c, .val 0, .any, .none⟩
/-- R75. -/
def DEV.BUS_ADDR : Field := ⟨1049600, .dev, 1024, 26, 0, 1, .ro, .val 0, .any, .none⟩
/-- R75. -/
def DEV.EVT_TOP_LO : Field := ⟨1049632, .dev, 1056, 32, 0, 1, .ro, .val 0, .any, .none⟩
/-- R75. -/
def DEV.EVT_TOP_HI : Field := ⟨1049664, .dev, 1088, 8, 0, 1, .ro, .val 0, .any, .none⟩
/-- R75. -/
def DEV.EVT_SUMMARY : Field := ⟨1052672, .dev, 4096, 32, 32, 40, .ro, .val 0, .any, .none⟩
/-- R75. -/
def DEV.LEAF_VEC : Field := ⟨1056768, .dev, 8192, 7, 8, 1280, .rw, .leafVec, .any, .none⟩
/-- R106. -/
def PORT.DC_SHIFT : Field := ⟨14680584, .port, 520, 4, 0, 1, .rwe, .val 14, .clamp 10 15, .none⟩
/-- R106. -/
def PORT.LOS_HYST : Field := ⟨14680576, .port, 512, 8, 0, 1, .rw, .val 6, .any, .none⟩
/-- R106. -/
def PORT.LOS_THRESH : Field := ⟨14680608, .port, 544, 10, 0, 1, .rwe, .val 784, .any, .none⟩
/-- R106. -/
def PORT.OVR_COUNT : Field := ⟨14680640, .port, 576, 32, 0, 1, .ro, .val 0, .any, .none⟩
/-- R106. -/
def PORT.ALARM_FRAMES : Field := ⟨14680672, .port, 608, 32, 0, 1, .ro, .val 0, .any, .none⟩
/-- R106. -/
def PORT.SAMPLE_GAP : Field := ⟨14680704, .port, 640, 32, 0, 1, .ro, .val 0, .any, .none⟩
/-- R106. -/
def PORT.FRAME_ENERGY : Field := ⟨14680736, .port, 672, 10, 0, 1, .ro, .val 0, .any, .none⟩
/-- R107. -/
def JLANE.LINK : Field := ⟨13632008, .jlane, 520, 5, 0, 1, .rw, .flash 0, .any, .laneOff⟩
/-- R107. -/
def JLANE.LANE_ID : Field := ⟨13632004, .jlane, 516, 2, 0, 1, .rw, .flash 0, .any, .laneOff⟩
/-- R107. -/
def JLANE.TX_INV : Field := ⟨13632001, .jlane, 513, 1, 0, 1, .rw, .val 0, .any, .none⟩
/-- R107. -/
def JLANE.RX_INV : Field := ⟨13632000, .jlane, 512, 1, 0, 1, .rw, .val 0, .any, .none⟩
/-- R107. -/
def JLANE.TX_PRE : Field := ⟨13632040, .jlane, 552, 4, 0, 1, .rw, .val 0, .any, .none⟩
/-- R107. -/
def JLANE.TX_POST : Field := ⟨13632036, .jlane, 548, 4, 0, 1, .rw, .val 0, .any, .none⟩
/-- R107. -/
def JLANE.TX_SWING : Field := ⟨13632032, .jlane, 544, 4, 0, 1, .rw, .val 8, .any, .none⟩
/-- R107. -/
def JLANE.EMB_LOCK : Field := ⟨13632066, .jlane, 578, 1, 0, 1, .ro, .val 0, .any, .none⟩
/-- R107. -/
def JLANE.SH_LOCK : Field := ⟨13632065, .jlane, 577, 1, 0, 1, .ro, .val 0, .any, .none⟩
/-- R107. -/
def JLANE.CDR_LOCK : Field := ⟨13632064, .jlane, 576, 1, 0, 1, .ro, .val 0, .any, .none⟩
/-- R107. -/
def JLANE.SH_ERR : Field := ⟨13632096, .jlane, 608, 32, 0, 1, .ro, .val 0, .any, .none⟩
/-- R107. -/
def JLANE.CRC12_ERR : Field := ⟨13632128, .jlane, 640, 32, 0, 1, .ro, .val 0, .any, .none⟩
/-- R107. -/
def JLANE.SYSREF_TRACK : Field := ⟨13632532, .jlane, 1044, 1, 0, 1, .rw, .val 0, .any, .linkField⟩
/-- R107. -/
def JLANE.FS_SEL : Field := ⟨13632528, .jlane, 1040, 3, 0, 1, .rw, .flash 0, .codes [0, 1, 2, 3, 4, 5], .linkFieldFs⟩
/-- R107. -/
def JLANE.L_CODE : Field := ⟨13632524, .jlane, 1036, 2, 0, 1, .rw, .flash 0, .codes [0, 1, 2], .linkFieldLaneOff⟩
/-- R107. -/
def JLANE.M : Field := ⟨13632512, .jlane, 1024, 5, 0, 1, .rw, .val 16, .codes [4, 8, 12, 16], .linkFieldLaneOff⟩
/-- R107. -/
def JLANE.F : Field := ⟨13632552, .jlane, 1064, 5, 0, 1, .ro, .val 0, .any, .none⟩
/-- R107. -/
def JLANE.E : Field := ⟨13632544, .jlane, 1056, 4, 0, 1, .ro, .val 0, .any, .none⟩
/-- R107. -/
def JLANE.RBD : Field := ⟨13632576, .jlane, 1088, 8, 0, 1, .rwe, .val 0, .rbd, .linkField⟩
/-- R107. -/
def JLANE.SYNC_TIMEOUT : Field := ⟨13632608, .jlane, 1120, 8, 0, 1, .rw, .val 10, .clamp 1 255, .linkField⟩
/-- R107. -/
def JLANE.SYSREF_MISALIGN : Field := ⟨13632656, .jlane, 1168, 16, 0, 1, .ro, .val 0, .any, .none⟩
/-- R107. -/
def JLANE.LINK_STATE : Field := ⟨13632640, .jlane, 1152, 2, 0, 1, .ro, .val 0, .any, .none⟩
/-- R108. -/
def AFEC.HELD : Field := ⟨10486303, .afec, 543, 1, 32, 4, .ro, .val 0, .any, .none⟩
/-- R108. -/
def AFEC.BUSY : Field := ⟨10486302, .afec, 542, 1, 32, 4, .ro, .val 0, .any, .none⟩
/-- R108. -/
def AFEC.HOLD : Field := ⟨10486288, .afec, 528, 1, 32, 4, .rw, .val 0, .any, .none⟩
/-- R108. -/
def AFEC.SPI_DIV : Field := ⟨10486272, .afec, 512, 8, 32, 4, .rw, .val 3, .clamp 3 255, .none⟩
/-- R108. -/
def AFEC.AFE_PRESENT : Field := ⟨10486400, .afec, 640, 32, 0, 1, .ro, .val 0, .any, .none⟩
/-- R108. -/
def AFEC.TARGET_PAM : Field := ⟨10486448, .afec, 688, 10, 0, 1, .rw, .val 988, .any, .none⟩
/-- R108. -/
def AFEC.TARGET_CHIRP : Field := ⟨10486432, .afec, 672, 10, 0, 1, .rw, .val 976, .any, .none⟩
/-- R108. -/
def AFEC.OVR_LIMIT : Field := ⟨10486464, .afec, 704, 16, 0, 1, .rw, .val 16, .any, .none⟩
/-- R108. -/
def AFEC.GF_VALID : Field := ⟨10486527, .afec, 767, 1, 0, 1, .w1c, .val 0, .any, .none⟩
/-- R108. -/
def AFEC.GF_CAUSE : Field := ⟨10486512, .afec, 752, 2, 0, 1, .ro, .val 0, .any, .none⟩
/-- R108. -/
def AFEC.GF_PORT : Field := ⟨10486496, .afec, 736, 9, 0, 1, .ro, .val 0, .any, .none⟩
/-- R108. -/
def AFEC.RAW_GO : Field := ⟨10486559, .afec, 799, 1, 0, 1, .sc, .val 0, .any, .none⟩
/-- R108. -/
def AFEC.RAW_MASTER : Field := ⟨10486532, .afec, 772, 2, 0, 1, .rw, .val 0, .any, .none⟩
/-- R108. -/
def AFEC.RAW_CS : Field := ⟨10486528, .afec, 768, 3, 0, 1, .rw, .val 0, .any, .none⟩
/-- R108. -/
def AFEC.RAW_TX : Field := ⟨10486560, .afec, 800, 24, 0, 1, .rw, .val 0, .any, .none⟩
/-- R108. -/
def AFEC.RAW_RX : Field := ⟨10486592, .afec, 832, 24, 0, 1, .ro, .val 0, .any, .none⟩
/-- R108. -/
def AFEC.PORT_GAIN : Field := ⟨10487808, .afec, 2048, 6, 8, 512, .rw, .val 0, .any, .none⟩
/-- R108. -/
def AFEC.GAIN_ADVICE : Field := ⟨10491928, .afec, 6168, 8, 32, 512, .ro, .val 0, .any, .none⟩
/-- R108. -/
def AFEC.GAIN_APPLIED : Field := ⟨10491922, .afec, 6162, 6, 32, 512, .ro, .val 0, .any, .none⟩
/-- R108. -/
def AFEC.GAIN_STATE : Field := ⟨10491920, .afec, 6160, 2, 32, 512, .ro, .val 0, .any, .none⟩
/-- R108. -/
def AFEC.RX_LEVEL : Field := ⟨10491904, .afec, 6144, 10, 32, 512, .ro, .val 512, .any, .none⟩
/-- R134. -/
def PORT.CFG_VALID : Field := ⟨14681119, .port, 1055, 1, 0, 1, .ro, .val 0, .any, .none⟩
/-- R134. -/
def PORT.N_SLOTS : Field := ⟨14681112, .port, 1048, 7, 0, 1, .ro, .val 0, .any, .none⟩
/-- R134. -/
def PORT.INFO_BITS : Field := ⟨14681100, .port, 1036, 11, 0, 1, .ro, .val 0, .any, .none⟩
/-- R134. -/
def PORT.CR : Field := ⟨14681094, .port, 1030, 2, 0, 1, .rw, .flash 0, .codes [0, 1, 2], .portOff⟩
/-- R134. -/
def PORT.D_CODE : Field := ⟨14681092, .port, 1028, 2, 0, 1, .rw, .flash 0, .codes [0, 1, 2], .portMode⟩
/-- R134. -/
def PORT.SF_CODE : Field := ⟨14681088, .port, 1024, 2, 0, 1, .rw, .flash 0, .any, .portMode⟩
/-- R134. -/
def PORT.PORT_WORD : Field := ⟨14681120, .port, 1056, 18, 0, 1, .rw, .flash 0, .any, .portOff⟩
/-- R134. -/
def PORT.DET_THRESH : Field := ⟨14681168, .port, 1104, 10, 0, 1, .ro, .val 0, .any, .none⟩
/-- R134. -/
def PORT.DET_FACTOR : Field := ⟨14681160, .port, 1096, 8, 0, 1, .rw, .val 24, .any, .none⟩
/-- R134. -/
def PORT.NOISE_FLOOR : Field := ⟨14681152, .port, 1088, 8, 0, 1, .rwe, .val 36, .any, .none⟩
/-- R134. -/
def PORT.ACT_WAIT : Field := ⟨14681200, .port, 1136, 8, 0, 1, .rw, .val 20, .clamp 1 255, .portOff⟩
/-- R134. -/
def PORT.TX_AMP : Field := ⟨14681184, .port, 1120, 8, 0, 1, .rw, .val 255, .any, .none⟩
/-- R134. -/
def PORT.ACQ_STATE : Field := ⟨14681246, .port, 1182, 2, 0, 1, .ro, .val 0, .any, .none⟩
/-- R134. -/
def PORT.SNR_EST : Field := ⟨14681216, .port, 1152, 10, 0, 1, .ro, .val 0, .any, .none⟩
/-- R134. -/
def PORT.CLK_OFFSET : Field := ⟨14681264, .port, 1200, 16, 0, 1, .ro, .val 0, .any, .none⟩
/-- R134. -/
def PORT.RX_FRAME_PHASE : Field := ⟨14681248, .port, 1184, 15, 0, 1, .ro, .val 0, .any, .none⟩
/-- R134. -/
def PORT.PRE_DET : Field := ⟨14681280, .port, 1216, 32, 0, 1, .ro, .val 0, .any, .none⟩
/-- R134. -/
def PORT.PW_REJECT : Field := ⟨14681312, .port, 1248, 32, 0, 1, .ro, .val 0, .any, .none⟩
/-- R134. -/
def PORT.PW_LAST : Field := ⟨14681344, .port, 1280, 18, 0, 1, .ro, .val 0, .any, .none⟩
/-- R134. -/
def PORT.OFFERS : Field := ⟨14681392, .port, 1328, 16, 0, 1, .ro, .val 0, .any, .none⟩
/-- R134. -/
def PORT.OFFER_FAIL : Field := ⟨14681376, .port, 1312, 16, 0, 1, .ro, .val 0, .any, .none⟩
/-- R134. -/
def PORT.NEC_FREEZE : Field := ⟨14681424, .port, 1360, 1, 0, 1, .rwe, .val 0, .any, .none⟩
/-- R134. -/
def PORT.RX_LEVEL_NEC : Field := ⟨14681408, .port, 1344, 10, 0, 1, .ro, .val 512, .any, .none⟩
/-- R134. -/
def PORT.LAYER_SNR : Field := ⟨14681440, .port, 1376, 8, 8, 4, .ro, .val 0, .any, .none⟩
/-- R166. -/
def PORT.SHARED : Field := ⟨14681631, .port, 1567, 1, 0, 1, .rw, .flash 0, .any, .portMode⟩
/-- R166. -/
def PORT.COLL_MODE : Field := ⟨14681630, .port, 1566, 1, 0, 1, .rw, .val 1, .any, .none⟩
/-- R166. -/
def PORT.COLL_ACTIVE : Field := ⟨14681629, .port, 1565, 1, 0, 1, .ro, .val 0, .any, .none⟩
/-- R166. -/
def PORT.CYCLE : Field := ⟨14681628, .port, 1564, 1, 0, 1, .rw, .flash 0, .any, .portOff⟩
/-- R166. -/
def PORT.WINDOWS : Field := ⟨14681616, .port, 1552, 5, 0, 1, .rw, .flash 0, .clamp 2 16, .portOff⟩
/-- R166. -/
def PORT.BURST_SLOTS : Field := ⟨14681608, .port, 1544, 4, 0, 1, .rw, .flash 0, .clamp 1 15, .portOff⟩
/-- R166. -/
def PORT.CAPTURE_MARGIN : Field := ⟨14681600, .port, 1536, 8, 0, 1, .rw, .val 24, .any, .none⟩
/-- R166. -/
def PORT.DROP_TIME : Field := ⟨14681656, .port, 1592, 8, 0, 1, .rw, .val 10, .any, .none⟩
/-- R166. -/
def PORT.MAX_RTT : Field := ⟨14681648, .port, 1584, 8, 0, 1, .rw, .val 50, .clamp 1 255, .portOff⟩
/-- R166. -/
def PORT.TA_TRIM : Field := ⟨14681644, .port, 1580, 4, 0, 1, .rw, .val 2, .any, .none⟩
/-- R166. -/
def PORT.BURST_LOS : Field := ⟨14681632, .port, 1568, 8, 0, 1, .rw, .val 4, .clamp 1 255, .none⟩
/-- R166. -/
def PORT.WINDOW_SYMS : Field := ⟨14681680, .port, 1616, 11, 0, 1, .ro, .val 0, .any, .none⟩
/-- R166. -/
def PORT.BURST_SYMS : Field := ⟨14681664, .port, 1600, 11, 0, 1, .ro, .val 0, .any, .none⟩
/-- R166. -/
def PORT.GRANT_LO : Field := ⟨14681696, .port, 1632, 32, 0, 1, .ro, .val 0, .any, .none⟩
/-- R166. -/
def PORT.GRANT_HI : Field := ⟨14681728, .port, 1664, 32, 0, 1, .ro, .val 0, .any, .none⟩
/-- R166. -/
def PORT.FULL : Field := ⟨14681791, .port, 1727, 1, 0, 1, .ro, .val 0, .any, .none⟩
/-- R166. -/
def PORT.MAP_PENDING : Field := ⟨14681790, .port, 1726, 1, 0, 1, .ro, .val 0, .any, .none⟩
/-- R166. -/
def PORT.ACTIVE_MASK : Field := ⟨14681760, .port, 1696, 16, 0, 1, .ro, .val 0, .any, .none⟩
/-- R166. -/
def PORT.COLL_OUTCOME : Field := ⟨14681820, .port, 1756, 4, 0, 1, .ro, .val 0, .any, .none⟩
/-- R166. -/
def PORT.COLL_WINDOW : Field := ⟨14681816, .port, 1752, 4, 0, 1, .ro, .val 0, .any, .none⟩
/-- R166. -/
def PORT.COLL_A_VALID : Field := ⟨14681815, .port, 1751, 1, 0, 1, .ro, .val 0, .any, .none⟩
/-- R166. -/
def PORT.COLL_A_STN : Field := ⟨14681811, .port, 1747, 4, 0, 1, .ro, .val 0, .any, .none⟩
/-- R166. -/
def PORT.COLL_B_VALID : Field := ⟨14681810, .port, 1746, 1, 0, 1, .ro, .val 0, .any, .none⟩
/-- R166. -/
def PORT.COLL_B_STN : Field := ⟨14681806, .port, 1742, 4, 0, 1, .ro, .val 0, .any, .none⟩
/-- R166. -/
def PORT.COLL_DELTA : Field := ⟨14681792, .port, 1728, 8, 0, 1, .ro, .val 0, .any, .none⟩
/-- R166. -/
def PORT.COLL_TIME : Field := ⟨14681824, .port, 1760, 32, 0, 1, .ro, .val 0, .any, .none⟩
/-- R166. -/
def PORT.BURST_OK : Field := ⟨14681872, .port, 1808, 16, 0, 1, .ro, .val 0, .any, .none⟩
/-- R166. -/
def PORT.BURST_MISSED : Field := ⟨14681856, .port, 1792, 16, 0, 1, .ro, .val 0, .any, .none⟩
/-- R166. -/
def PORT.BURST_CHK_ERR : Field := ⟨14681904, .port, 1840, 16, 0, 1, .ro, .val 0, .any, .none⟩
/-- R166. -/
def PORT.HDR_ERR : Field := ⟨14681888, .port, 1824, 16, 0, 1, .ro, .val 0, .any, .none⟩
/-- R166. -/
def PORT.FALSE_DET : Field := ⟨14681936, .port, 1872, 16, 0, 1, .ro, .val 0, .any, .none⟩
/-- R166. -/
def PORT.LOST_DET : Field := ⟨14681920, .port, 1856, 16, 0, 1, .ro, .val 0, .any, .none⟩
/-- R166. -/
def PORT.WRONG_WINDOW : Field := ⟨14681968, .port, 1904, 16, 0, 1, .ro, .val 0, .any, .none⟩
/-- R166. -/
def PORT.RANGE_ERR : Field := ⟨14681952, .port, 1888, 16, 0, 1, .ro, .val 0, .any, .none⟩
/-- R166. -/
def PORT.CAPTURED : Field := ⟨14682000, .port, 1936, 16, 0, 1, .ro, .val 0, .any, .none⟩
/-- R166. -/
def PORT.COLL_IGNORED : Field := ⟨14681984, .port, 1920, 16, 0, 1, .ro, .val 0, .any, .none⟩
/-- R166. -/
def PORT.FORK_BOTH : Field := ⟨14682032, .port, 1968, 16, 0, 1, .ro, .val 0, .any, .none⟩
/-- R166. -/
def PORT.FORK_ONE : Field := ⟨14682016, .port, 1952, 16, 0, 1, .ro, .val 0, .any, .none⟩
/-- R166. -/
def PORT.FORK_NONE : Field := ⟨14682064, .port, 2000, 16, 0, 1, .ro, .val 0, .any, .none⟩
/-- R166. -/
def PORT.JOIN_REJECT : Field := ⟨14682048, .port, 1984, 16, 0, 1, .ro, .val 0, .any, .none⟩
/-- R166. -/
def PORT.JOIN_OK : Field := ⟨14682096, .port, 2032, 16, 0, 1, .ro, .val 0, .any, .none⟩
/-- R166. -/
def PORT.STN_DROPS : Field := ⟨14682080, .port, 2016, 16, 0, 1, .ro, .val 0, .any, .none⟩
/-- R167. -/
def STN.STN_STATE : Field := ⟨19922974, .stn, 30, 2, 0, 1, .ro, .val 0, .any, .none⟩
/-- R167. -/
def STN.S_WINDOW : Field := ⟨19922964, .stn, 20, 4, 0, 1, .ro, .val 0, .any, .none⟩
/-- R167. -/
def STN.TA : Field := ⟨19922944, .stn, 0, 20, 0, 1, .ro, .val 0, .any, .none⟩
/-- R167. -/
def STN.BURST_SNR : Field := ⟨19922992, .stn, 48, 10, 0, 1, .ro, .val 0, .any, .none⟩
/-- R167. -/
def STN.LAST_OFFSET : Field := ⟨19922976, .stn, 32, 16, 0, 1, .ro, .val 0, .any, .none⟩
/-- R167. -/
def STN.STN_BURST_OK : Field := ⟨19923024, .stn, 80, 16, 0, 1, .ro, .val 0, .any, .none⟩
/-- R167. -/
def STN.STN_BURST_BAD : Field := ⟨19923008, .stn, 64, 16, 0, 1, .ro, .val 0, .any, .none⟩
/-- R167. -/
def STN.JOINS : Field := ⟨19923064, .stn, 120, 8, 0, 1, .ro, .val 0, .any, .none⟩
/-- R167. -/
def STN.TA_ADJUSTS : Field := ⟨19923056, .stn, 112, 8, 0, 1, .ro, .val 0, .any, .none⟩
/-- R167. -/
def STN.NONCE : Field := ⟨19923040, .stn, 96, 4, 0, 1, .ro, .val 0, .any, .none⟩
/-- R188. -/
def PORT.LC_ACTIVE : Field := ⟨14682142, .port, 2078, 2, 0, 1, .ro, .val 0, .any, .none⟩
/-- R188. -/
def PORT.CABLE_PAM : Field := ⟨14682121, .port, 2057, 1, 0, 1, .rw, .flash 0, .any, .portOff⟩
/-- R188. -/
def PORT.LC_POLICY : Field := ⟨14682118, .port, 2054, 2, 0, 1, .rw, .flash 0, .codes [0, 1, 2], .portMode⟩
/-- R188. -/
def PORT.PAM_CR : Field := ⟨14682116, .port, 2052, 2, 0, 1, .rw, .flash 0, .codes [0, 1, 2], .portOff⟩
/-- R188. -/
def PORT.PAM_BAUD : Field := ⟨14682114, .port, 2050, 2, 0, 1, .rw, .flash 0, .codes [0, 1, 2], .portMode⟩
/-- R188. -/
def PORT.PAM_MOD : Field := ⟨14682112, .port, 2048, 1, 0, 1, .rw, .flash 0, .any, .portMode⟩
/-- R188. -/
def PORT.PAM_CFG_VALID : Field := ⟨14682175, .port, 2111, 1, 0, 1, .ro, .val 0, .any, .none⟩
/-- R188. -/
def PORT.PAM_SLOTS : Field := ⟨14682168, .port, 2104, 7, 0, 1, .ro, .val 0, .any, .none⟩
/-- R188. -/
def PORT.PAM_INFO_BITS : Field := ⟨14682156, .port, 2092, 11, 0, 1, .ro, .val 0, .any, .none⟩
/-- R188. -/
def PORT.ACT_STATE : Field := ⟨14682144, .port, 2080, 4, 0, 1, .ro, .val 0, .any, .none⟩
/-- R188. -/
def PORT.LOF_FALLBACK : Field := ⟨14682200, .port, 2136, 4, 0, 1, .rw, .val 3, .clamp 1 15, .none⟩
/-- R188. -/
def PORT.NO_ANSWER : Field := ⟨14682192, .port, 2128, 2, 0, 1, .ro, .val 0, .any, .none⟩
/-- R188. -/
def PORT.LOF_IN_WINDOW : Field := ⟨14682188, .port, 2124, 4, 0, 1, .ro, .val 0, .any, .none⟩
/-- R188. -/
def PORT.PAM_FAILS : Field := ⟨14682186, .port, 2122, 2, 0, 1, .ro, .val 0, .any, .none⟩
/-- R188. -/
def PORT.FALLBACK_WINDOW : Field := ⟨14682176, .port, 2112, 8, 0, 1, .rw, .val 60, .clamp 1 255, .none⟩
/-- R188. -/
def PORT.FALLBACK_COUNT : Field := ⟨14682224, .port, 2160, 16, 0, 1, .ro, .val 0, .any, .none⟩
/-- R188. -/
def PORT.FALLBACK_BLOCKED : Field := ⟨14682208, .port, 2144, 16, 0, 1, .ro, .val 0, .any, .none⟩
/-- R188. -/
def PORT.PAM_ACT : Field := ⟨14682256, .port, 2192, 16, 0, 1, .ro, .val 0, .any, .none⟩
/-- R188. -/
def PORT.PAM_ACT_FAIL : Field := ⟨14682240, .port, 2176, 16, 0, 1, .ro, .val 0, .any, .none⟩
/-- R188. -/
def PORT.PAM_CLK_OFFSET : Field := ⟨14682288, .port, 2224, 16, 0, 1, .ro, .val 0, .any, .none⟩
/-- R188. -/
def PORT.PAM_SNR : Field := ⟨14682272, .port, 2208, 10, 0, 1, .ro, .val 0, .any, .none⟩
/-- R188. -/
def PORT.EC_ERLE : Field := ⟨14682320, .port, 2256, 8, 0, 1, .ro, .val 0, .any, .none⟩
/-- R188. -/
def PORT.EC_TAPS : Field := ⟨14682312, .port, 2248, 8, 0, 1, .ro, .val 0, .any, .none⟩
/-- R188. -/
def PORT.DFE_FREEZE : Field := ⟨14682306, .port, 2242, 1, 0, 1, .rwe, .val 0, .any, .none⟩
/-- R188. -/
def PORT.FFE_FREEZE : Field := ⟨14682305, .port, 2241, 1, 0, 1, .rwe, .val 0, .any, .none⟩
/-- R188. -/
def PORT.EC_FREEZE : Field := ⟨14682304, .port, 2240, 1, 0, 1, .rwe, .val 0, .any, .none⟩
/-- R188. -/
def PORT.PAM_TX_AMP : Field := ⟨14682336, .port, 2272, 8, 0, 1, .rw, .val 192, .any, .none⟩
/-- R188. -/
def PORT.OFS_TRIM : Field := ⟨14682384, .port, 2320, 10, 32, 7, .rwe, .val 0, .any, .none⟩
/-- R188. -/
def PORT.THRESH : Field := ⟨14682368, .port, 2304, 10, 32, 7, .ro, .val 0, .any, .none⟩
/-- R210. -/
def PORT.SOFT_SCALE : Field := ⟨14682640, .port, 2576, 8, 0, 1, .rwe, .val 8, .clamp 1 255, .none⟩
/-- R210. -/
def PORT.DARN_DELAY : Field := ⟨14682632, .port, 2568, 2, 0, 1, .ro, .val 0, .any, .none⟩
/-- R210. -/
def PORT.TB_DEPTH : Field := ⟨14682624, .port, 2560, 7, 0, 1, .ro, .val 64, .any, .none⟩
/-- R210. -/
def PORT.PRE_ERR_MF : Field := ⟨14682672, .port, 2608, 16, 0, 1, .ro, .val 0, .any, .none⟩
/-- R210. -/
def PORT.PRE_BITS_MF : Field := ⟨14682656, .port, 2592, 16, 0, 1, .ro, .val 0, .any, .none⟩
/-- R210. -/
def PORT.PRE_ERR_TOTAL : Field := ⟨14682688, .port, 2624, 32, 0, 1, .ro, .val 0, .any, .none⟩
/-- R210. -/
def PORT.ABSENT_FRAMES : Field := ⟨14682736, .port, 2672, 16, 0, 1, .ro, .val 0, .any, .none⟩
/-- R210. -/
def PORT.ERASURES_MF : Field := ⟨14682720, .port, 2656, 16, 0, 1, .ro, .val 0, .any, .none⟩
/-- R241. -/
def TRIB.EQUIPPED : Field := ⟨18874399, .trib, 31, 1, 0, 1, .rw, .val 0, .any, .ctxIdle⟩
/-- R241. -/
def TRIB.WIDE : Field := ⟨18874398, .trib, 30, 1, 0, 1, .rw, .val 0, .any, .ctxIdle⟩
/-- R241. -/
def TRIB.PORT_N : Field := ⟨18874389, .trib, 21, 9, 0, 1, .rw, .val 0, .any, .ctxIdle⟩
/-- R241. -/
def TRIB.STN_N : Field := ⟨18874385, .trib, 17, 4, 0, 1, .rw, .val 0, .any, .ctxIdle⟩
/-- R241. -/
def TRIB.TX_SLOT : Field := ⟨18874376, .trib, 8, 7, 0, 1, .rw, .val 0, .clamp 0 96, .ctxIdle⟩
/-- R241. -/
def TRIB.RX_SLOT : Field := ⟨18874368, .trib, 0, 7, 0, 1, .rw, .val 0, .clamp 0 96, .ctxIdle⟩
/-- R241. -/
def TRIB.RX_LABEL : Field := ⟨18874424, .trib, 56, 8, 0, 1, .ro, .val 0, .any, .none⟩
/-- R241. -/
def TRIB.EXP_LABEL : Field := ⟨18874416, .trib, 48, 8, 0, 1, .rw, .val 1, .any, .none⟩
/-- R241. -/
def TRIB.TX_LABEL : Field := ⟨18874408, .trib, 40, 8, 0, 1, .rw, .val 1, .any, .none⟩
/-- R241. -/
def TRIB.SIG_RX : Field := ⟨18874448, .trib, 80, 16, 0, 1, .ro, .val 0, .any, .none⟩
/-- R241. -/
def TRIB.SIG_TX : Field := ⟨18874432, .trib, 64, 16, 0, 1, .ro, .val 0, .any, .none⟩
/-- R243. -/
def PORT.FORCE_HUNT : Field := ⟨14682888, .port, 2824, 1, 0, 1, .sc, .val 0, .any, .none⟩
/-- R243. -/
def PORT.LOF_COUNT : Field := ⟨14682880, .port, 2816, 4, 0, 1, .rw, .val 4, .clamp 2 15, .none⟩
/-- R243. -/
def PORT.ALIGN_STATE : Field := ⟨14682941, .port, 2877, 3, 0, 1, .ro, .val 0, .any, .none⟩
/-- R243. -/
def PORT.SURVIVORS : Field := ⟨14682928, .port, 2864, 10, 0, 1, .ro, .val 0, .any, .none⟩
/-- R243. -/
def PORT.BIT_POS : Field := ⟨14682912, .port, 2848, 10, 0, 1, .ro, .val 0, .any, .none⟩
/-- R243. -/
def PORT.FAW_ERR : Field := ⟨14682960, .port, 2896, 16, 0, 1, .ro, .val 0, .any, .none⟩
/-- R243. -/
def PORT.MFA_ERR : Field := ⟨14682944, .port, 2880, 16, 0, 1, .ro, .val 0, .any, .none⟩
/-- R243. -/
def PORT.CRC_ERR_MF : Field := ⟨14682976, .port, 2912, 32, 0, 1, .ro, .val 0, .any, .none⟩
/-- R243. -/
def PORT.CRC_GOOD_MF : Field := ⟨14683008, .port, 2944, 32, 0, 1, .ro, .val 0, .any, .none⟩
/-- R243. -/
def PORT.ALIGN_COUNT : Field := ⟨14683056, .port, 2992, 16, 0, 1, .ro, .val 0, .any, .none⟩
/-- R243. -/
def PORT.AMBIG_COUNT : Field := ⟨14683040, .port, 2976, 16, 0, 1, .ro, .val 0, .any, .none⟩
/-- R243. -/
def PORT.FA_LOSS : Field := ⟨14683088, .port, 3024, 16, 0, 1, .ro, .val 0, .any, .none⟩
/-- R243. -/
def PORT.MFA_LOSS : Field := ⟨14683072, .port, 3008, 16, 0, 1, .ro, .val 0, .any, .none⟩
/-- R243. -/
def PORT.CRC_NONE_MF : Field := ⟨14683104, .port, 3040, 32, 0, 1, .ro, .val 0, .any, .none⟩
/-- R243. -/
def PORT.RX_PORT_LABEL : Field := ⟨14683152, .port, 3088, 8, 0, 1, .ro, .val 0, .any, .none⟩
/-- R243. -/
def PORT.EXP_PORT_LABEL : Field := ⟨14683144, .port, 3080, 8, 0, 1, .rw, .flash 0, .any, .none⟩
/-- R243. -/
def PORT.TX_PORT_LABEL : Field := ⟨14683136, .port, 3072, 8, 0, 1, .rw, .flash 0, .any, .none⟩
/-- R243. -/
def PORT.TRACE_SEL : Field := ⟨14683184, .port, 3120, 4, 0, 1, .rw, .val 0, .any, .none⟩
/-- R243. -/
def PORT.SIG_HELD : Field := ⟨14683168, .port, 3104, 16, 0, 1, .ro, .val 0, .any, .none⟩
/-- R243. -/
def PORT.TX_TRACE : Field := ⟨14683200, .port, 3136, 32, 32, 4, .rw, .val 0, .any, .none⟩
/-- R243. -/
def PORT.RX_TRACE : Field := ⟨14683328, .port, 3264, 32, 32, 4, .ro, .val 0, .any, .none⟩
/-- R243. -/
def PORT.DCC_RX_OK : Field := ⟨14683472, .port, 3408, 16, 0, 1, .ro, .val 0, .any, .none⟩
/-- R243. -/
def PORT.DCC_TX : Field := ⟨14683456, .port, 3392, 16, 0, 1, .ro, .val 0, .any, .none⟩
/-- R243. -/
def PORT.DCC_CRC_ERR : Field := ⟨14683504, .port, 3440, 16, 0, 1, .ro, .val 0, .any, .none⟩
/-- R243. -/
def PORT.DCC_FMT_ERR : Field := ⟨14683488, .port, 3424, 16, 0, 1, .ro, .val 0, .any, .none⟩
/-- R243. -/
def PORT.ALIVE_REPEAT : Field := ⟨14683536, .port, 3472, 16, 0, 1, .ro, .val 0, .any, .none⟩
/-- R243. -/
def PORT.ALIVE_GAP : Field := ⟨14683520, .port, 3456, 16, 0, 1, .ro, .val 0, .any, .none⟩
/-- R243. -/
def PORT.FE_BLOCK_ERR : Field := ⟨14683568, .port, 3504, 16, 0, 1, .ro, .val 0, .any, .none⟩
/-- R243. -/
def PORT.FE_PRE_ERR : Field := ⟨14683552, .port, 3488, 8, 0, 1, .ro, .val 0, .any, .none⟩
/-- R243. -/
def PORT.STN_STATUS_LO : Field := ⟨14683584, .port, 3520, 32, 0, 1, .ro, .val 0, .any, .none⟩
/-- R243. -/
def PORT.STN_STATUS_HI : Field := ⟨14683616, .port, 3552, 32, 0, 1, .ro, .val 0, .any, .none⟩
/-- R243. -/
def PORT.DCCL_TYPE : Field := ⟨14683672, .port, 3608, 8, 0, 1, .ro, .val 0, .any, .none⟩
/-- R243. -/
def PORT.DCCL_STN : Field := ⟨14683668, .port, 3604, 4, 0, 1, .ro, .val 0, .any, .none⟩
/-- R243. -/
def PORT.DCCL_CAUSE : Field := ⟨14683666, .port, 3602, 2, 0, 1, .ro, .val 0, .any, .none⟩
/-- R266. -/
def PORT.SD_EXP : Field := ⟨14684176, .port, 4112, 4, 0, 1, .rw, .val 6, .clamp 5 9, .none⟩
/-- R266. -/
def PORT.SF_EXP : Field := ⟨14684168, .port, 4104, 4, 0, 1, .rw, .val 3, .clamp 3 5, .none⟩
/-- R266. -/
def PORT.PRE_WARN_TH : Field := ⟨14684160, .port, 4096, 8, 0, 1, .rw, .val 20, .any, .none⟩
/-- R266. -/
def PORT.PORT_FAILED : Field := ⟨14684209, .port, 4145, 1, 0, 1, .ro, .val 0, .any, .none⟩
/-- R266. -/
def PORT.TX_RDI : Field := ⟨14684208, .port, 4144, 1, 0, 1, .ro, .val 0, .any, .none⟩
/-- R266. -/
def PORT.AIS_ON_TIM : Field := ⟨14684199, .port, 4135, 1, 0, 1, .rw, .val 0, .any, .none⟩
/-- R266. -/
def PORT.AIS_ON_UNEQ : Field := ⟨14684198, .port, 4134, 1, 0, 1, .rw, .val 1, .any, .none⟩
/-- R266. -/
def PORT.AIS_ON_PLM : Field := ⟨14684197, .port, 4133, 1, 0, 1, .rw, .val 0, .any, .none⟩
/-- R266. -/
def PORT.PROT_SD_EN : Field := ⟨14684196, .port, 4132, 1, 0, 1, .rw, .val 0, .any, .none⟩
/-- R266. -/
def PORT.PROT_SF_EN : Field := ⟨14684195, .port, 4131, 1, 0, 1, .rw, .val 1, .any, .none⟩
/-- R266. -/
def PORT.SIG_FREEZE_EN : Field := ⟨14684194, .port, 4130, 1, 0, 1, .rw, .val 1, .any, .none⟩
/-- R266. -/
def PORT.RDI_EN : Field := ⟨14684193, .port, 4129, 1, 0, 1, .rw, .val 1, .any, .none⟩
/-- R266. -/
def PORT.AIS_TRUNK_EN : Field := ⟨14684192, .port, 4128, 1, 0, 1, .rw, .val 1, .any, .none⟩
/-- R266. -/
def PORT.SD_K : Field := ⟨14684248, .port, 4184, 5, 0, 1, .ro, .val 0, .any, .none⟩
/-- R266. -/
def PORT.SD_DECL : Field := ⟨14684240, .port, 4176, 5, 0, 1, .ro, .val 0, .any, .none⟩
/-- R266. -/
def PORT.SD_CLR_K : Field := ⟨14684232, .port, 4168, 5, 0, 1, .ro, .val 0, .any, .none⟩
/-- R266. -/
def PORT.SD_CLR : Field := ⟨14684224, .port, 4160, 5, 0, 1, .ro, .val 0, .any, .none⟩
/-- R266. -/
def PORT.SF_K : Field := ⟨14684280, .port, 4216, 5, 0, 1, .ro, .val 0, .any, .none⟩
/-- R266. -/
def PORT.SF_DECL : Field := ⟨14684272, .port, 4208, 5, 0, 1, .ro, .val 0, .any, .none⟩
/-- R266. -/
def PORT.SF_CLR_K : Field := ⟨14684264, .port, 4200, 5, 0, 1, .ro, .val 0, .any, .none⟩
/-- R266. -/
def PORT.SF_CLR : Field := ⟨14684256, .port, 4192, 5, 0, 1, .ro, .val 0, .any, .none⟩
/-- R266. -/
def PORT.SD_WIN_ERR : Field := ⟨14684304, .port, 4240, 16, 0, 1, .ro, .val 0, .any, .none⟩
/-- R266. -/
def PORT.SF_WIN_ERR : Field := ⟨14684288, .port, 4224, 16, 0, 1, .ro, .val 0, .any, .none⟩
/-- R266. -/
def PORT.PRE_RATE : Field := ⟨14684320, .port, 4256, 10, 0, 1, .ro, .val 0, .any, .none⟩
/-- R266. -/
def PORT.TOTAL : Field := ⟨14684416, .port, 4352, 32, 32, 8, .ro, .val 0, .any, .none⟩
/-- R266. -/
def PORT.SNAP1 : Field := ⟨14685184, .port, 5120, 32, 32, 8, .ro, .val 0, .any, .none⟩
/-- R266. -/
def PORT.SNAP15 : Field := ⟨14685440, .port, 5376, 32, 32, 8, .ro, .val 0, .any, .none⟩
/-- R267. -/
def PORT.STN_CV : Field := ⟨14684688, .port, 4624, 16, 32, 16, .ro, .val 0, .any, .none⟩
/-- R267. -/
def PORT.STN_FAILED : Field := ⟨14684682, .port, 4618, 1, 32, 16, .ro, .val 0, .any, .none⟩
/-- R267. -/
def PORT.STN_TIM : Field := ⟨14684681, .port, 4617, 1, 32, 16, .ro, .val 0, .any, .none⟩
/-- R267. -/
def PORT.STN_UNEQ : Field := ⟨14684680, .port, 4616, 1, 32, 16, .ro, .val 0, .any, .none⟩
/-- R267. -/
def PORT.STN_PLM : Field := ⟨14684679, .port, 4615, 1, 32, 16, .ro, .val 0, .any, .none⟩
/-- R267. -/
def PORT.STN_SF : Field := ⟨14684678, .port, 4614, 1, 32, 16, .ro, .val 0, .any, .none⟩
/-- R267. -/
def PORT.STN_SD : Field := ⟨14684677, .port, 4613, 1, 32, 16, .ro, .val 0, .any, .none⟩
/-- R267. -/
def PORT.STN_RDI : Field := ⟨14684676, .port, 4612, 1, 32, 16, .ro, .val 0, .any, .none⟩
/-- R267. -/
def PORT.STN_AIS : Field := ⟨14684675, .port, 4611, 1, 32, 16, .ro, .val 0, .any, .none⟩
/-- R267. -/
def PORT.STN_LOMF : Field := ⟨14684674, .port, 4610, 1, 32, 16, .ro, .val 0, .any, .none⟩
/-- R267. -/
def PORT.STN_LOF : Field := ⟨14684673, .port, 4609, 1, 32, 16, .ro, .val 0, .any, .none⟩
/-- R267. -/
def PORT.STN_LOS : Field := ⟨14684672, .port, 4608, 1, 32, 16, .ro, .val 0, .any, .none⟩
/-- R268. -/
def TRIB.TRIB_FAILED : Field := ⟨18874495, .trib, 127, 1, 0, 1, .ro, .val 0, .any, .none⟩
/-- R268. -/
def TRIB.SD_TRIG : Field := ⟨18874494, .trib, 126, 1, 0, 1, .ro, .val 0, .any, .none⟩
/-- R268. -/
def TRIB.T_PLM : Field := ⟨18874465, .trib, 97, 1, 0, 1, .ro, .val 0, .any, .none⟩
/-- R268. -/
def TRIB.T_UNEQ : Field := ⟨18874464, .trib, 96, 1, 0, 1, .ro, .val 0, .any, .none⟩
/-- R295. -/
def DEV.SRC_KIND : Field := ⟨1050115, .dev, 1539, 2, 8, 4, .rw, .flash 0, .any, .none⟩
/-- R295. -/
def DEV.SRC_LANE : Field := ⟨1050112, .dev, 1536, 3, 8, 4, .rw, .flash 0, .any, .none⟩
/-- R295. -/
def DEV.REVERTIVE : Field := ⟨1050175, .dev, 1599, 1, 0, 1, .rw, .val 0, .any, .none⟩
/-- R295. -/
def DEV.BUILD_OUT : Field := ⟨1050174, .dev, 1598, 1, 0, 1, .rwe, .val 1, .any, .none⟩
/-- R295. -/
def DEV.LOOP_BW : Field := ⟨1050172, .dev, 1596, 2, 0, 1, .rw, .val 1, .codes [0, 1, 2], .none⟩
/-- R295. -/
def DEV.SRC_QUAL : Field := ⟨1050160, .dev, 1584, 8, 0, 1, .rw, .val 2, .clamp 1 255, .none⟩
/-- R295. -/
def DEV.FORCE_EN : Field := ⟨1050155, .dev, 1579, 1, 0, 1, .rw, .val 0, .any, .none⟩
/-- R295. -/
def DEV.FORCE_ENTRY : Field := ⟨1050152, .dev, 1576, 2, 0, 1, .rw, .val 0, .any, .none⟩
/-- R295. -/
def DEV.FSYNC_OUT_EN : Field := ⟨1050144, .dev, 1568, 1, 0, 1, .rw, .val 1, .any, .none⟩
/-- R295. -/
def DEV.TSTATE : Field := ⟨1050205, .dev, 1629, 3, 0, 1, .ro, .val 0, .any, .none⟩
/-- R295. -/
def DEV.HOLD_VALID : Field := ⟨1050204, .dev, 1628, 1, 0, 1, .ro, .val 0, .any, .none⟩
/-- R295. -/
def DEV.SEL_ENTRY : Field := ⟨1050200, .dev, 1624, 2, 0, 1, .ro, .val 0, .any, .none⟩
/-- R295. -/
def DEV.SRC_QUALIFIED : Field := ⟨1050196, .dev, 1620, 4, 0, 1, .ro, .val 0, .any, .none⟩
/-- R295. -/
def DEV.SRC_FAILED : Field := ⟨1050192, .dev, 1616, 4, 0, 1, .ro, .val 0, .any, .none⟩
/-- R295. -/
def DEV.RATE_PROFILE : Field := ⟨1050176, .dev, 1600, 1, 0, 1, .ro, .flash 0, .any, .none⟩
/-- R295. -/
def DEV.SRC_SWITCHES : Field := ⟨1050224, .dev, 1648, 16, 0, 1, .ro, .val 0, .any, .none⟩
/-- R295. -/
def DEV.PHASE_ERR : Field := ⟨1050208, .dev, 1632, 16, 0, 1, .ro, .val 0, .any, .none⟩
/-- R295. -/
def DEV.NCO_OFFSET : Field := ⟨1050240, .dev, 1664, 18, 0, 1, .ro, .val 0, .any, .none⟩
/-- R295. -/
def DEV.HOLD_FREQ : Field := ⟨1050272, .dev, 1696, 18, 0, 1, .ro, .val 0, .any, .none⟩
/-- R295. -/
def DEV.TRK_OFFSET : Field := ⟨1050320, .dev, 1744, 15, 0, 1, .rw, .val 0, .clamp 0 20479, .none⟩
/-- R295. -/
def DEV.FSYNC_OFFSET : Field := ⟨1050304, .dev, 1728, 15, 0, 1, .rw, .val 0, .clamp 0 20479, .none⟩
/-- R295. -/
def DEV.ALIGN_JUMPS : Field := ⟨1050352, .dev, 1776, 16, 0, 1, .ro, .val 0, .any, .none⟩
/-- R295. -/
def DEV.HOLDOVER_SEC : Field := ⟨1050336, .dev, 1760, 16, 0, 1, .ro, .val 0, .any, .none⟩
/-- R296. -/
def DEV.TRUNK_SLIPS : Field := ⟨1067024, .dev, 18448, 16, 64, 8, .ro, .val 0, .any, .none⟩
/-- R296. -/
def DEV.PLEAT_HIT : Field := ⟨1067008, .dev, 18432, 16, 64, 8, .ro, .val 0, .any, .none⟩
/-- R296. -/
def DEV.JC_ERR : Field := ⟨1067056, .dev, 18480, 16, 64, 8, .ro, .val 0, .any, .none⟩
/-- R296. -/
def DEV.TRK_FILL : Field := ⟨1067040, .dev, 18464, 10, 64, 8, .ro, .val 0, .any, .none⟩
/-- R297. -/
def PORT.TIMING_MODE : Field := ⟨14686224, .port, 6160, 2, 0, 1, .rw, .flash 0, .codes [0, 1, 2], .portOff⟩
/-- R297. -/
def PORT.WANDER_LIM : Field := ⟨14686208, .port, 6144, 10, 0, 1, .rw, .val 256, .clamp 64 1023, .none⟩
/-- R297. -/
def PORT.SLIPS : Field := ⟨14686240, .port, 6176, 32, 0, 1, .ro, .val 0, .any, .none⟩
/-- R297. -/
def PORT.SLIP_REPEAT : Field := ⟨14686288, .port, 6224, 16, 0, 1, .ro, .val 0, .any, .none⟩
/-- R297. -/
def PORT.SLIP_DROP : Field := ⟨14686272, .port, 6208, 16, 0, 1, .ro, .val 0, .any, .none⟩
/-- R297. -/
def PORT.WANDER_HIT : Field := ⟨14686320, .port, 6256, 16, 0, 1, .ro, .val 0, .any, .none⟩
/-- R297. -/
def PORT.TIMING_MISMATCH : Field := ⟨14686304, .port, 6240, 16, 0, 1, .ro, .val 0, .any, .none⟩
/-- R297. -/
def PORT.STN_HOLDOVER : Field := ⟨14686361, .port, 6297, 1, 0, 1, .ro, .val 0, .any, .none⟩
/-- R297. -/
def PORT.STN_SELF_TIMED : Field := ⟨14686360, .port, 6296, 1, 0, 1, .ro, .val 0, .any, .none⟩
/-- R297. -/
def PORT.STN_CLK_OFFSET : Field := ⟨14686352, .port, 6288, 8, 0, 1, .ro, .val 0, .any, .none⟩
/-- R297. -/
def PORT.SLIP_FILL : Field := ⟨14686336, .port, 6272, 10, 0, 1, .ro, .val 0, .any, .none⟩
/-- R297. -/
def PORT.TX_OFFSET : Field := ⟨14686384, .port, 6320, 16, 0, 1, .ro, .val 0, .any, .none⟩
/-- R297. -/
def PORT.TREF_IDX : Field := ⟨14686368, .port, 6304, 12, 0, 1, .rw, .val 0, .any, .none⟩
/-- R298. -/
def TRIB.PLEAT : Field := ⟨18874527, .trib, 159, 1, 0, 1, .rw, .val 0, .any, .ctxIdle⟩
/-- R298. -/
def TRIB.DESYNC_ACTIVE : Field := ⟨18874526, .trib, 158, 1, 0, 1, .ro, .val 0, .any, .none⟩
/-- R298. -/
def TRIB.PLEAT_IDX : Field := ⟨18874512, .trib, 144, 12, 0, 1, .rw, .val 0, .any, .ctxIdle⟩
/-- R298. -/
def TRIB.PLEAT_SLIPS : Field := ⟨18874496, .trib, 128, 16, 0, 1, .ro, .val 0, .any, .none⟩
/-- R330. -/
def MANGLE.COPY_ON_SWAP : Field := ⟨11534848, .mangle, 512, 1, 0, 1, .rw, .val 1, .any, .none⟩
/-- R330. -/
def MANGLE.SWAP_PENDING : Field := ⟨11534911, .mangle, 575, 1, 0, 1, .ro, .val 0, .any, .none⟩
/-- R330. -/
def MANGLE.COPY_BUSY : Field := ⟨11534910, .mangle, 574, 1, 0, 1, .ro, .val 0, .any, .none⟩
/-- R330. -/
def MANGLE.ACTIVE_PAGE : Field := ⟨11534896, .mangle, 560, 1, 0, 1, .ro, .val 0, .any, .none⟩
/-- R330. -/
def MANGLE.SWAP_COUNT : Field := ⟨11534880, .mangle, 544, 16, 0, 1, .ro, .val 0, .any, .none⟩
/-- R330. -/
def MANGLE.WALK_MAX : Field := ⟨11534928, .mangle, 592, 16, 0, 1, .ro, .val 0, .any, .none⟩
/-- R330. -/
def MANGLE.WALK_LAST : Field := ⟨11534912, .mangle, 576, 16, 0, 1, .ro, .val 0, .any, .none⟩
/-- R330. -/
def MANGLE.ENTRIES : Field := ⟨11534944, .mangle, 608, 16, 0, 1, .ro, .val 0, .any, .none⟩
/-- R330. -/
def MANGLE.WALK_LATE : Field := ⟨11534976, .mangle, 640, 32, 0, 1, .ro, .val 0, .any, .none⟩
/-- R330. -/
def MANGLE.CM_BAD : Field := ⟨11535008, .mangle, 672, 32, 0, 1, .ro, .val 0, .any, .none⟩
/-- R330. -/
def MANGLE.DUP_DST : Field := ⟨11535040, .mangle, 704, 32, 0, 1, .ro, .val 0, .any, .none⟩
/-- R330. -/
def MANGLE.CM_WR_DROP : Field := ⟨11535072, .mangle, 736, 32, 0, 1, .ro, .val 0, .any, .none⟩
/-- R330. -/
def MANGLE.BAD_VALID : Field := ⟨11535135, .mangle, 799, 1, 0, 1, .w1c, .val 0, .any, .none⟩
/-- R330. -/
def MANGLE.BAD_CAUSE : Field := ⟨11535120, .mangle, 784, 3, 0, 1, .ro, .val 0, .any, .none⟩
/-- R330. -/
def MANGLE.BAD_PAGE : Field := ⟨11535119, .mangle, 783, 1, 0, 1, .ro, .val 0, .any, .none⟩
/-- R330. -/
def MANGLE.BAD_INDEX : Field := ⟨11535104, .mangle, 768, 15, 0, 1, .ro, .val 0, .any, .none⟩
/-- R330. -/
def MANGLE.SYNC : Field := ⟨11535391, .mangle, 1055, 1, 64, 16, .ro, .val 0, .any, .none⟩
/-- R330. -/
def MANGLE.USED : Field := ⟨11535390, .mangle, 1054, 1, 64, 16, .ro, .val 0, .any, .none⟩
/-- R330. -/
def MANGLE.CLEAR : Field := ⟨11535389, .mangle, 1053, 1, 64, 16, .sc, .val 0, .any, .none⟩
/-- R330. -/
def MANGLE.SYNC_LOSS : Field := ⟨11535360, .mangle, 1024, 16, 64, 16, .ro, .val 0, .any, .none⟩
/-- R330. -/
def MANGLE.BIT_ERR : Field := ⟨11535392, .mangle, 1056, 32, 64, 16, .ro, .val 0, .any, .none⟩
/-- R331. -/
def TRUNK.LOOPBACK : Field := ⟨12583431, .trunk, 519, 1, 0, 1, .rwe, .val 0, .any, .none⟩
/-- R331. -/
def TRUNK.PAIR_EN : Field := ⟨12583428, .trunk, 516, 1, 0, 1, .rw, .val 0, .any, .none⟩
/-- R331. -/
def TRUNK.TX_INV : Field := ⟨12583426, .trunk, 514, 1, 0, 1, .rw, .val 0, .any, .none⟩
/-- R331. -/
def TRUNK.RX_INV : Field := ⟨12583425, .trunk, 513, 1, 0, 1, .rw, .val 0, .any, .none⟩
/-- R331. -/
def TRUNK.RATE : Field := ⟨12583424, .trunk, 512, 1, 0, 1, .rw, .flash 0, .any, .trunkOff⟩
/-- R331. -/
def TRUNK.RX_TLABEL : Field := ⟨12583472, .trunk, 560, 8, 0, 1, .ro, .val 0, .any, .none⟩
/-- R331. -/
def TRUNK.EXP_TLABEL : Field := ⟨12583464, .trunk, 552, 8, 0, 1, .rw, .val 0, .any, .none⟩
/-- R331. -/
def TRUNK.TX_TLABEL : Field := ⟨12583456, .trunk, 544, 8, 0, 1, .rw, .flash 0, .any, .none⟩
/-- R331. -/
def TRUNK.TX_TRACE : Field := ⟨12583488, .trunk, 576, 32, 32, 4, .rw, .val 0, .any, .none⟩
/-- R331. -/
def TRUNK.RX_TRACE : Field := ⟨12583616, .trunk, 704, 32, 32, 4, .ro, .val 0, .any, .none⟩
/-- R331. -/
def TRUNK.ALIGN : Field := ⟨12583774, .trunk, 862, 2, 0, 1, .ro, .val 0, .any, .none⟩
/-- R331. -/
def TRUNK.CDR_LOCK : Field := ⟨12583773, .trunk, 861, 1, 0, 1, .ro, .val 0, .any, .none⟩
/-- R331. -/
def TRUNK.FAILED : Field := ⟨12583752, .trunk, 840, 1, 0, 1, .ro, .val 0, .any, .none⟩
/-- R331. -/
def TRUNK.DEFECTS : Field := ⟨12583744, .trunk, 832, 8, 0, 1, .ro, .val 0, .any, .none⟩
/-- R331. -/
def TRUNK.TSD_CLR : Field := ⟨12583792, .trunk, 880, 8, 0, 1, .rw, .val 5, .any, .none⟩
/-- R331. -/
def TRUNK.TSD_DECL : Field := ⟨12583784, .trunk, 872, 8, 0, 1, .rw, .val 50, .clamp 1 255, .none⟩
/-- R331. -/
def TRUNK.TRDI_EN : Field := ⟨12583779, .trunk, 867, 1, 0, 1, .rw, .val 1, .any, .none⟩
/-- R331. -/
def TRUNK.AIS_ON_TTIM : Field := ⟨12583778, .trunk, 866, 1, 0, 1, .rw, .val 0, .any, .none⟩
/-- R331. -/
def TRUNK.AIS_ON_TPLM : Field := ⟨12583777, .trunk, 865, 1, 0, 1, .rw, .val 1, .any, .none⟩
/-- R331. -/
def TRUNK.AIS_SRC_EN : Field := ⟨12583776, .trunk, 864, 1, 0, 1, .rw, .val 1, .any, .none⟩
/-- R331. -/
def TRUNK.CRC_ERR_MF : Field := ⟨12583808, .trunk, 896, 32, 0, 1, .ro, .val 0, .any, .none⟩
/-- R331. -/
def TRUNK.CRC_GOOD_MF : Field := ⟨12583840, .trunk, 928, 32, 0, 1, .ro, .val 0, .any, .none⟩
/-- R331. -/
def TRUNK.FAW_ERR : Field := ⟨12583888, .trunk, 976, 16, 0, 1, .ro, .val 0, .any, .none⟩
/-- R331. -/
def TRUNK.FA_LOSS : Field := ⟨12583872, .trunk, 960, 16, 0, 1, .ro, .val 0, .any, .none⟩
/-- R331. -/
def TRUNK.TSIG_HELD : Field := ⟨12583920, .trunk, 1008, 16, 0, 1, .ro, .val 0, .any, .none⟩
/-- R331. -/
def TRUNK.TSD_WIN_ERR : Field := ⟨12583904, .trunk, 992, 16, 0, 1, .ro, .val 0, .any, .none⟩
/-- R331. -/
def TRUNK.RX_EPOCH : Field := ⟨12583936, .trunk, 1024, 32, 0, 1, .ro, .val 0, .any, .none⟩
/-- R331. -/
def TRUNK.RX_SEL_EPOCH : Field := ⟨12583968, .trunk, 1056, 32, 0, 1, .ro, .val 0, .any, .none⟩
/-- R331. -/
def TRUNK.TX_ROLE : Field := ⟨12584016, .trunk, 1104, 8, 0, 1, .ro, .val 0, .any, .none⟩
/-- R331. -/
def TRUNK.RX_ROLE : Field := ⟨12584000, .trunk, 1088, 8, 0, 1, .ro, .val 0, .any, .none⟩
/-- R331. -/
def TRUNK.FE_CRC_ERR : Field := ⟨12584048, .trunk, 1136, 16, 0, 1, .ro, .val 0, .any, .none⟩
/-- R331. -/
def TRUNK.EXP_TTRACE : Field := ⟨12584064, .trunk, 1152, 32, 32, 4, .rw, .val 0, .any, .none⟩
/-- R349. -/
def PORT.PROT_EN : Field := ⟨14686495, .port, 6431, 1, 0, 1, .rw, .val 0, .any, .portOff⟩
/-- R349. -/
def PORT.BIDIR : Field := ⟨14686494, .port, 6430, 1, 0, 1, .rw, .val 1, .any, .portOff⟩
/-- R349. -/
def PORT.REVERTIVE : Field := ⟨14686493, .port, 6429, 1, 0, 1, .rw, .val 1, .any, .none⟩
/-- R349. -/
def PORT.PARTNER : Field := ⟨14686480, .port, 6416, 9, 0, 1, .rw, .val 0, .any, .portOff⟩
/-- R349. -/
def PORT.WTR : Field := ⟨14686476, .port, 6412, 4, 0, 1, .rw, .val 5, .clamp 1 12, .none⟩
/-- R349. -/
def PORT.HOLD_OFF : Field := ⟨14686464, .port, 6400, 7, 0, 1, .rw, .val 0, .clamp 0 100, .none⟩
/-- R349. -/
def PORT.COMMAND : Field := ⟨14686496, .port, 6432, 3, 0, 1, .rw, .val 0, .any, .none⟩
/-- R349. -/
def PORT.TOP_REQ : Field := ⟨14686556, .port, 6492, 4, 0, 1, .ro, .val 0, .any, .none⟩
/-- R349. -/
def PORT.LOCAL_REQ : Field := ⟨14686552, .port, 6488, 4, 0, 1, .ro, .val 0, .any, .none⟩
/-- R349. -/
def PORT.REMOTE_REQ : Field := ⟨14686548, .port, 6484, 4, 0, 1, .ro, .val 0, .any, .none⟩
/-- R349. -/
def PORT.SELECTED : Field := ⟨14686547, .port, 6483, 1, 0, 1, .ro, .val 0, .any, .none⟩
/-- R349. -/
def PORT.MISMATCH : Field := ⟨14686546, .port, 6482, 1, 0, 1, .ro, .val 0, .any, .none⟩
/-- R349. -/
def PORT.PROT_VALID : Field := ⟨14686545, .port, 6481, 1, 0, 1, .ro, .val 0, .any, .none⟩
/-- R349. -/
def PORT.WTR_LEFT : Field := ⟨14686528, .port, 6464, 16, 0, 1, .ro, .val 0, .any, .none⟩
/-- R349. -/
def PORT.RX_F4 : Field := ⟨14686576, .port, 6512, 10, 0, 1, .ro, .val 0, .any, .none⟩
/-- R349. -/
def PORT.RX_F5 : Field := ⟨14686560, .port, 6496, 10, 0, 1, .ro, .val 0, .any, .none⟩
/-- R349. -/
def PORT.TX_F4 : Field := ⟨14686608, .port, 6544, 10, 0, 1, .ro, .val 0, .any, .none⟩
/-- R349. -/
def PORT.TX_F5 : Field := ⟨14686592, .port, 6528, 10, 0, 1, .ro, .val 0, .any, .none⟩
/-- R349. -/
def PORT.SWITCHES : Field := ⟨14686640, .port, 6576, 16, 0, 1, .ro, .val 0, .any, .none⟩
/-- R349. -/
def PORT.CMD_REFUSED : Field := ⟨14686624, .port, 6560, 16, 0, 1, .ro, .val 0, .any, .none⟩
/-- R349. -/
def PORT.MISMATCH_COUNT : Field := ⟨14686672, .port, 6608, 16, 0, 1, .ro, .val 0, .any, .none⟩
/-- R350. -/
def TRIB.COMMAND : Field := ⟨18874554, .trib, 186, 3, 0, 1, .rw, .val 0, .any, .none⟩
/-- R350. -/
def TRIB.REVERTIVE : Field := ⟨18874553, .trib, 185, 1, 0, 1, .rw, .val 1, .any, .none⟩
/-- R350. -/
def TRIB.WTR : Field := ⟨18874544, .trib, 176, 4, 0, 1, .rw, .val 5, .clamp 1 12, .none⟩
/-- R350. -/
def TRIB.HOLD_OFF : Field := ⟨18874528, .trib, 160, 7, 0, 1, .rw, .val 0, .clamp 0 100, .none⟩
/-- R350. -/
def TRIB.SWITCHES : Field := ⟨18874576, .trib, 208, 16, 0, 1, .ro, .val 0, .any, .none⟩
/-- R350. -/
def TRIB.CMD_REFUSED : Field := ⟨18874568, .trib, 200, 8, 0, 1, .ro, .val 0, .any, .none⟩
/-- R350. -/
def TRIB.USERS : Field := ⟨18874560, .trib, 192, 8, 0, 1, .ro, .val 0, .any, .none⟩
/-- R351. -/
def DEV.PAIR_REVERTIVE : Field := ⟨1067551, .dev, 18975, 1, 128, 4, .rw, .val 0, .any, .none⟩
/-- R351. -/
def DEV.PAIR_COMMAND : Field := ⟨1067544, .dev, 18968, 3, 128, 4, .rw, .val 0, .any, .none⟩
/-- R351. -/
def DEV.PAIR_WTR : Field := ⟨1067536, .dev, 18960, 4, 128, 4, .rw, .val 5, .clamp 1 12, .none⟩
/-- R351. -/
def DEV.PAIR_HOLD_OFF : Field := ⟨1067520, .dev, 18944, 7, 128, 4, .rw, .val 0, .clamp 0 100, .none⟩
/-- R351. -/
def DEV.PAIR_TOP_REQ : Field := ⟨1067580, .dev, 19004, 4, 128, 4, .ro, .val 0, .any, .none⟩
/-- R351. -/
def DEV.PAIR_SELECTED : Field := ⟨1067579, .dev, 19003, 1, 128, 4, .ro, .val 0, .any, .none⟩
/-- R351. -/
def DEV.PAIR_WTR_LEFT : Field := ⟨1067552, .dev, 18976, 16, 128, 4, .ro, .val 0, .any, .none⟩
/-- R351. -/
def DEV.PAIR_SWITCHES : Field := ⟨1067600, .dev, 19024, 16, 128, 4, .ro, .val 0, .any, .none⟩
/-- R351. -/
def DEV.PAIR_CMD_REFUSED : Field := ⟨1067584, .dev, 19008, 16, 128, 4, .ro, .val 0, .any, .none⟩
/-- R352. -/
def DEV.QUERY_INDEX : Field := ⟨1050368, .dev, 1792, 15, 0, 1, .rw, .val 0, .any, .none⟩
/-- R352. -/
def DEV.Q_KIND : Field := ⟨1050430, .dev, 1854, 2, 0, 1, .ro, .val 0, .any, .none⟩
/-- R352. -/
def DEV.Q_SELECTED : Field := ⟨1050429, .dev, 1853, 1, 0, 1, .ro, .val 0, .any, .none⟩
/-- R352. -/
def DEV.Q_HOLDOFF_RUN : Field := ⟨1050428, .dev, 1852, 1, 0, 1, .ro, .val 0, .any, .none⟩
/-- R352. -/
def DEV.Q_TOP_REQ : Field := ⟨1050424, .dev, 1848, 4, 0, 1, .ro, .val 0, .any, .none⟩
/-- R352. -/
def DEV.Q_WTR_LEFT : Field := ⟨1050400, .dev, 1824, 16, 0, 1, .ro, .val 0, .any, .none⟩
/-- R379. -/
def HAMPER.DIMM_GIB : Field := ⟨9437712, .hamper, 528, 9, 0, 1, .ro, .flash 0, .any, .none⟩
/-- R379. -/
def HAMPER.RANKS : Field := ⟨9437704, .hamper, 520, 3, 0, 1, .ro, .flash 0, .any, .none⟩
/-- R379. -/
def HAMPER.DPC : Field := ⟨9437696, .hamper, 512, 2, 0, 1, .ro, .flash 0, .any, .none⟩
/-- R379. -/
def HAMPER.DATA_RATE : Field := ⟨9437728, .hamper, 544, 16, 0, 1, .ro, .val 0, .any, .none⟩
/-- R379. -/
def HAMPER.CAPACITY_GIB : Field := ⟨9437760, .hamper, 576, 12, 0, 1, .ro, .val 0, .any, .none⟩
/-- R379. -/
def HAMPER.REC_SIZE_GIB : Field := ⟨9437792, .hamper, 608, 12, 0, 1, .rw, .flash 0, .any, .ownRow⟩
/-- R379. -/
def HAMPER.REC_RETENTION : Field := ⟨9437824, .hamper, 640, 32, 0, 1, .ro, .val 0, .any, .none⟩
/-- R379. -/
def HAMPER.REC_REFUSED : Field := ⟨9437872, .hamper, 688, 16, 0, 1, .ro, .val 0, .any, .none⟩
/-- R379. -/
def HAMPER.REC_STREAMS : Field := ⟨9437856, .hamper, 672, 15, 0, 1, .ro, .val 0, .any, .none⟩
/-- R379. -/
def HAMPER.REC_BLOCKS : Field := ⟨9437888, .hamper, 704, 32, 0, 1, .ro, .val 0, .any, .none⟩
/-- R379. -/
def HAMPER.SEG_DROPS : Field := ⟨9437920, .hamper, 736, 16, 0, 1, .ro, .val 0, .any, .none⟩
/-- R379. -/
def HAMPER.WIN_BUSY : Field := ⟨9437983, .hamper, 799, 1, 0, 1, .ro, .val 0, .any, .none⟩
/-- R379. -/
def HAMPER.WIN_BASE : Field := ⟨9437952, .hamper, 768, 11, 0, 1, .rw, .val 0, .any, .none⟩
/-- R379. -/
def HAMPER.APT_OOR : Field := ⟨9438000, .hamper, 816, 16, 0, 1, .ro, .val 0, .any, .none⟩
/-- R379. -/
def HAMPER.APT_WR_DROP : Field := ⟨9437984, .hamper, 800, 16, 0, 1, .ro, .val 0, .any, .none⟩
/-- R379. -/
def HAMPER.LOOKUP_GO : Field := ⟨9438047, .hamper, 863, 1, 0, 1, .sc, .val 0, .any, .none⟩
/-- R379. -/
def HAMPER.SECOND : Field := ⟨9438046, .hamper, 862, 1, 0, 1, .rw, .val 0, .any, .none⟩
/-- R379. -/
def HAMPER.LOOKUP_TRIB : Field := ⟨9438016, .hamper, 832, 14, 0, 1, .rw, .val 0, .any, .none⟩
/-- R379. -/
def HAMPER.LOOKUP_TIME_LO : Field := ⟨9438048, .hamper, 864, 32, 0, 1, .rw, .val 0, .any, .none⟩
/-- R379. -/
def HAMPER.LOOKUP_TIME_HI : Field := ⟨9438080, .hamper, 896, 32, 0, 1, .rw, .val 0, .any, .none⟩
/-- R379. -/
def HAMPER.LOOKUP_LA_LO : Field := ⟨9438112, .hamper, 928, 32, 0, 1, .ro, .val 0, .any, .none⟩
/-- R379. -/
def HAMPER.LOOKUP_STATUS : Field := ⟨9438174, .hamper, 990, 2, 0, 1, .ro, .val 0, .any, .none⟩
/-- R379. -/
def HAMPER.LOOKUP_LA_HI : Field := ⟨9438144, .hamper, 960, 9, 0, 1, .ro, .val 0, .any, .none⟩
/-- R379. -/
def HAMPER.DLY_INDEX : Field := ⟨9438176, .hamper, 992, 12, 0, 1, .rw, .val 0, .any, .none⟩
/-- R379. -/
def HAMPER.DLY_USED : Field := ⟨9438239, .hamper, 1055, 1, 0, 1, .ro, .val 0, .any, .none⟩
/-- R379. -/
def HAMPER.DELAY : Field := ⟨9438208, .hamper, 1024, 14, 0, 1, .rw, .val 0, .clamp 0 16000, .none⟩
/-- R379. -/
def HAMPER.CLIP_GO : Field := ⟨9438271, .hamper, 1087, 1, 0, 1, .sc, .val 0, .any, .none⟩
/-- R379. -/
def HAMPER.VERIFIED : Field := ⟨9438270, .hamper, 1086, 1, 0, 1, .ro, .val 0, .any, .none⟩
/-- R379. -/
def HAMPER.CLIP : Field := ⟨9438240, .hamper, 1056, 12, 0, 1, .rw, .val 0, .any, .none⟩
/-- R379. -/
def HAMPER.PLAY_ERR : Field := ⟨9438288, .hamper, 1104, 16, 0, 1, .ro, .val 0, .any, .none⟩
/-- R379. -/
def HAMPER.PLAYS : Field := ⟨9438272, .hamper, 1088, 9, 0, 1, .ro, .val 0, .any, .none⟩
/-- R379. -/
def HAMPER.EXTRACTS : Field := ⟨9438304, .hamper, 1120, 5, 0, 1, .ro, .val 0, .any, .none⟩
/-- R379. -/
def HAMPER.CE_COUNT : Field := ⟨9438336, .hamper, 1152, 32, 64, 4, .ro, .val 0, .any, .none⟩
/-- R379. -/
def HAMPER.UE_COUNT : Field := ⟨9438368, .hamper, 1184, 32, 64, 4, .ro, .val 0, .any, .none⟩
/-- R379. -/
def HAMPER.SCRUB_EN : Field := ⟨9438623, .hamper, 1439, 1, 0, 1, .rw, .val 1, .any, .none⟩
/-- R379. -/
def HAMPER.SCRUB_PASSES : Field := ⟨9438592, .hamper, 1408, 16, 0, 1, .ro, .val 0, .any, .none⟩
/-- R379. -/
def HAMPER.CE_LIMIT : Field := ⟨9438624, .hamper, 1440, 16, 0, 1, .rw, .val 256, .any, .none⟩
/-- R379. -/
def HAMPER.UE_LA_LO : Field := ⟨9438656, .hamper, 1472, 32, 0, 1, .ro, .val 0, .any, .none⟩
/-- R379. -/
def HAMPER.UE_LA_HI : Field := ⟨9438688, .hamper, 1504, 9, 0, 1, .ro, .val 0, .any, .none⟩
/-- R380. -/
def TRIB.REC_EN : Field := ⟨18874623, .trib, 255, 1, 0, 1, .rw, .val 1, .any, .none⟩
/-- R380. -/
def TRIB.REC_WIDE : Field := ⟨18874622, .trib, 254, 1, 0, 1, .rw, .val 1, .any, .none⟩
/-- R380. -/
def TRIB.REC_ACTIVE : Field := ⟨18874621, .trib, 253, 1, 0, 1, .ro, .val 0, .any, .none⟩
/-- R380. -/
def TRIB.REC_ACTIVE2 : Field := ⟨18874620, .trib, 252, 1, 0, 1, .ro, .val 0, .any, .none⟩
/-- R380. -/
def TRIB.REC_REFUSED : Field := ⟨18874619, .trib, 251, 1, 0, 1, .ro, .val 0, .any, .none⟩
/-- R410. -/
def PAIR.ECHO_LANES : Field := ⟨4194832, .pair, 528, 8, 0, 1, .rw, .flash 0, .any, .none⟩
/-- R410. -/
def PAIR.CKPT_PERIOD : Field := ⟨4194824, .pair, 520, 8, 0, 1, .rw, .val 10, .clamp 1 255, .none⟩
/-- R410. -/
def PAIR.AUTO_RESOLVE : Field := ⟨4194818, .pair, 514, 1, 0, 1, .rw, .flash 0, .any, .none⟩
/-- R410. -/
def PAIR.MIRROR_RECORD : Field := ⟨4194817, .pair, 513, 1, 0, 1, .rw, .val 1, .any, .none⟩
/-- R410. -/
def PAIR.GAP_MODE : Field := ⟨4194816, .pair, 512, 1, 0, 1, .rw, .val 0, .any, .none⟩
/-- R410. -/
def PAIR.ECHO_GRACE : Field := ⟨4194856, .pair, 552, 8, 0, 1, .rw, .val 50, .clamp 1 255, .none⟩
/-- R410. -/
def PAIR.CLAIM_NOW : Field := ⟨4194849, .pair, 545, 1, 0, 1, .sc, .val 0, .any, .none⟩
/-- R410. -/
def PAIR.RESOLVE : Field := ⟨4194848, .pair, 544, 1, 0, 1, .sc, .val 0, .any, .none⟩
/-- R410. -/
def PAIR.ROLE : Field := ⟨4194909, .pair, 605, 3, 0, 1, .ro, .val 0, .any, .none⟩
/-- R410. -/
def PAIR.SYNCED : Field := ⟨4194908, .pair, 604, 1, 0, 1, .ro, .val 0, .any, .none⟩
/-- R410. -/
def PAIR.MATE_UP : Field := ⟨4194907, .pair, 603, 1, 0, 1, .ro, .val 0, .any, .none⟩
/-- R410. -/
def PAIR.LANE_UP : Field := ⟨4194905, .pair, 601, 2, 0, 1, .ro, .val 0, .any, .none⟩
/-- R410. -/
def PAIR.ISOLATED : Field := ⟨4194904, .pair, 600, 1, 0, 1, .ro, .val 0, .any, .none⟩
/-- R410. -/
def PAIR.MISMATCH : Field := ⟨4194903, .pair, 599, 1, 0, 1, .ro, .val 0, .any, .none⟩
/-- R410. -/
def PAIR.OWN_CLAIM : Field := ⟨4194902, .pair, 598, 1, 0, 1, .ro, .val 0, .any, .none⟩
/-- R410. -/
def PAIR.PEER_PINS : Field := ⟨4194900, .pair, 596, 2, 0, 1, .ro, .val 0, .any, .none⟩
/-- R410. -/
def PAIR.PEER_CLAIMS : Field := ⟨4194899, .pair, 595, 1, 0, 1, .ro, .val 0, .any, .none⟩
/-- R410. -/
def PAIR.HB_OK : Field := ⟨4194898, .pair, 594, 1, 0, 1, .ro, .val 0, .any, .none⟩
/-- R410. -/
def PAIR.EPOCH : Field := ⟨4194912, .pair, 608, 32, 0, 1, .ro, .val 0, .any, .none⟩
/-- R410. -/
def PAIR.PEER_EPOCH : Field := ⟨4194944, .pair, 640, 32, 0, 1, .ro, .val 0, .any, .none⟩
/-- R410. -/
def PAIR.CKPT_GEN_LO : Field := ⟨4194976, .pair, 672, 32, 0, 1, .ro, .val 0, .any, .none⟩
/-- R410. -/
def PAIR.CKPT_GEN_HI : Field := ⟨4195008, .pair, 704, 32, 0, 1, .ro, .val 0, .any, .none⟩
/-- R410. -/
def PAIR.CKPT_AGE : Field := ⟨4195040, .pair, 736, 32, 0, 1, .ro, .val 0, .any, .none⟩
/-- R410. -/
def PAIR.JSEQ : Field := ⟨4195072, .pair, 768, 32, 0, 1, .ro, .val 0, .any, .none⟩
/-- R410. -/
def PAIR.JSEQ_APPLIED : Field := ⟨4195104, .pair, 800, 32, 0, 1, .ro, .val 0, .any, .none⟩
/-- R410. -/
def PAIR.OWN_HEALTH : Field := ⟨4195136, .pair, 832, 32, 0, 1, .ro, .val 0, .any, .none⟩
/-- R410. -/
def PAIR.PEER_HEALTH : Field := ⟨4195168, .pair, 864, 32, 0, 1, .ro, .val 0, .any, .none⟩
/-- R410. -/
def PAIR.TB_OFFSET_LO : Field := ⟨4195200, .pair, 896, 32, 0, 1, .ro, .val 0, .any, .none⟩
/-- R410. -/
def PAIR.TB_OFFSET_HI : Field := ⟨4195232, .pair, 928, 32, 0, 1, .ro, .val 0, .any, .none⟩
/-- R410. -/
def PAIR.TAKEOVERS : Field := ⟨4195280, .pair, 976, 16, 0, 1, .ro, .val 0, .any, .none⟩
/-- R410. -/
def PAIR.DEMOTIONS : Field := ⟨4195264, .pair, 960, 16, 0, 1, .ro, .val 0, .any, .none⟩
/-- R410. -/
def PAIR.CAUSE : Field := ⟨4195324, .pair, 1020, 4, 0, 1, .ro, .val 0, .any, .none⟩
/-- R410. -/
def PAIR.COLD : Field := ⟨4195323, .pair, 1019, 1, 0, 1, .ro, .val 0, .any, .none⟩
/-- R410. -/
def PAIR.GAP_FRAMES : Field := ⟨4195296, .pair, 992, 16, 0, 1, .ro, .val 0, .any, .none⟩
/-- R410. -/
def PAIR.JRN_RESEND : Field := ⟨4195344, .pair, 1040, 16, 0, 1, .ro, .val 0, .any, .none⟩
/-- R410. -/
def PAIR.CKPT_NAK : Field := ⟨4195328, .pair, 1024, 16, 0, 1, .ro, .val 0, .any, .none⟩
/-- R410. -/
def PAIR.MIRROR_GAP : Field := ⟨4195376, .pair, 1072, 16, 0, 1, .ro, .val 0, .any, .none⟩
/-- R410. -/
def PAIR.JRN_OVERFLOW : Field := ⟨4195360, .pair, 1056, 16, 0, 1, .ro, .val 0, .any, .none⟩
/-- R410. -/
def PAIR.ECHO_STALE : Field := ⟨4195408, .pair, 1104, 16, 0, 1, .ro, .val 0, .any, .none⟩
/-- R410. -/
def PAIR.EPOCH_BACK : Field := ⟨4195392, .pair, 1088, 16, 0, 1, .ro, .val 0, .any, .none⟩
/-- R410. -/
def PAIR.HB_LOSS : Field := ⟨4195440, .pair, 1136, 16, 0, 1, .ro, .val 0, .any, .none⟩
/-- R410. -/
def PAIR.CLAIM_WIRE : Field := ⟨4195424, .pair, 1120, 16, 0, 1, .ro, .val 0, .any, .none⟩
/-- R410. -/
def PAIR.MATE_CRC_ERR : Field := ⟨4195456, .pair, 1152, 32, 0, 1, .ro, .val 0, .any, .none⟩
/-- R439. -/
def NDL.WAIT_MASK : Field := ⟨15729172, .ndl, 532, 6, 0, 1, .ro, .val 63, .any, .none⟩
/-- R439. -/
def NDL.HOOK : Field := ⟨15729164, .ndl, 524, 5, 0, 1, .ro, .val 0, .any, .none⟩
/-- R439. -/
def NDL.PC : Field := ⟨15729152, .ndl, 512, 12, 0, 1, .ro, .val 0, .any, .none⟩
/-- R439. -/
def NDL.PORTS : Field := ⟨15729200, .ndl, 560, 5, 0, 1, .ro, .val 0, .any, .none⟩
/-- R439. -/
def NDL.QUEUE : Field := ⟨15729184, .ndl, 544, 7, 0, 1, .ro, .val 0, .any, .none⟩
/-- R439. -/
def NDL.INSTR_MF : Field := ⟨15729216, .ndl, 576, 32, 0, 1, .ro, .val 0, .any, .none⟩
/-- R439. -/
def NDL.ACCT_PEAK : Field := ⟨15729264, .ndl, 624, 16, 0, 1, .ro, .val 0, .any, .none⟩
/-- R439. -/
def NDL.ACCT_USED : Field := ⟨15729248, .ndl, 608, 16, 0, 1, .ro, .val 0, .any, .none⟩
/-- R439. -/
def NDL.OVERRUNS : Field := ⟨15729296, .ndl, 656, 16, 0, 1, .ro, .val 0, .any, .none⟩
/-- R439. -/
def NDL.FAULTS : Field := ⟨15729280, .ndl, 640, 16, 0, 1, .ro, .val 0, .any, .none⟩
/-- R439. -/
def NDL.HOOK_DROP : Field := ⟨15729328, .ndl, 688, 16, 0, 1, .ro, .val 0, .any, .none⟩
/-- R439. -/
def NDL.ACCT_OVERRUNS : Field := ⟨15729312, .ndl, 672, 16, 0, 1, .ro, .val 0, .any, .none⟩
/-- R439. -/
def NDL.NF_VALID : Field := ⟨15729375, .ndl, 735, 1, 0, 1, .w1c, .val 0, .any, .none⟩
/-- R439. -/
def NDL.NF_CAUSE : Field := ⟨15729372, .ndl, 732, 3, 0, 1, .ro, .val 0, .any, .none⟩
/-- R439. -/
def NDL.NF_PC : Field := ⟨15729360, .ndl, 720, 12, 0, 1, .ro, .val 0, .any, .none⟩
/-- R439. -/
def NDL.NF_CUST : Field := ⟨15729356, .ndl, 716, 1, 0, 1, .ro, .val 0, .any, .none⟩
/-- R439. -/
def NDL.NF_PORT : Field := ⟨15729344, .ndl, 704, 9, 0, 1, .ro, .val 0, .any, .none⟩
/-- R439. -/
def NDL.CODE_WR_DROP : Field := ⟨15729392, .ndl, 752, 16, 0, 1, .ro, .val 0, .any, .none⟩
/-- R439. -/
def NDL.WIN_SHARED : Field := ⟨15729412, .ndl, 772, 1, 0, 1, .rw, .val 0, .any, .none⟩
/-- R439. -/
def NDL.WIN_BANK : Field := ⟨15729408, .ndl, 768, 4, 0, 1, .rw, .val 0, .any, .none⟩
/-- R439. -/
def NDL.IMAGE_CRC : Field := ⟨15729440, .ndl, 800, 32, 0, 1, .ro, .val 0, .any, .none⟩
/-- R439. -/
def NDL.VENDOR_VER : Field := ⟨15729488, .ndl, 848, 16, 0, 1, .ro, .val 0, .any, .none⟩
/-- R439. -/
def NDL.CUST_VER : Field := ⟨15729472, .ndl, 832, 16, 0, 1, .ro, .val 0, .any, .none⟩
/-- R439. -/
def NDL.EN : Field := ⟨15729695, .ndl, 1055, 1, 32, 32, .rwe, .val 0, .any, .entryWrite⟩
/-- R439. -/
def NDL.ADDR : Field := ⟨15729664, .ndl, 1024, 12, 32, 32, .rwe, .val 0, .any, .entryWrite⟩
/-- R439. -/
def NDL.N : Field := ⟨15730688, .ndl, 2048, 20, 32, 16, .rwe, .val 0, .any, .engineStopped⟩
/-- R439. -/
def NDL.FLAGS : Field := ⟨15731200, .ndl, 2560, 3, 0, 1, .rwe, .val 0, .any, .engineStopped⟩
/-- R439. -/
def NDL.DATA : Field := ⟨15761408, .ndl, 32768, 20, 32, 2048, .rw, .val 0, .any, .none⟩
/-- R439. -/
def NDL.WIN : Field := ⟨15826944, .ndl, 98304, 24, 32, 1024, .rwe, .val 0, .any, .none⟩
/-- R440. -/
def PORT.NDL_PEAK : Field := ⟨14686736, .port, 6672, 16, 0, 1, .ro, .val 0, .any, .none⟩
/-- R440. -/
def PORT.NDL_USED : Field := ⟨14686720, .port, 6656, 16, 0, 1, .ro, .val 0, .any, .none⟩
/-- R440. -/
def PORT.NDL_OVERRUNS : Field := ⟨14686768, .port, 6704, 16, 0, 1, .ro, .val 0, .any, .none⟩
/-- R440. -/
def PORT.HOOKS_SKIPPED : Field := ⟨14686752, .port, 6688, 16, 0, 1, .ro, .val 0, .any, .none⟩
/-- R440. -/
def PORT.CUST_EN : Field := ⟨14686784, .port, 6720, 1, 0, 1, .rw, .val 1, .any, .none⟩
/-- R446. -/
def MTX.PRIO_T0 : Field := ⟨7340544, .mtx, 512, 4, 64, 18, .rw, .prio, .any, .none⟩
/-- R446. -/
def MTX.PRIO_T1 : Field := ⟨7340548, .mtx, 516, 4, 64, 18, .rw, .prio, .any, .none⟩
/-- R446. -/
def MTX.PRIO_T2 : Field := ⟨7340552, .mtx, 520, 4, 64, 18, .rw, .prio, .any, .none⟩
/-- R446. -/
def MTX.PRIO_T3 : Field := ⟨7340556, .mtx, 524, 4, 64, 18, .rw, .prio, .any, .none⟩
/-- R446. -/
def MTX.PRIO_T4 : Field := ⟨7340560, .mtx, 528, 4, 64, 18, .rw, .prio, .any, .none⟩
/-- R446. -/
def MTX.PRIO_T5 : Field := ⟨7340564, .mtx, 532, 4, 64, 18, .rw, .prio, .any, .none⟩
/-- R446. -/
def MTX.PRIO_T6 : Field := ⟨7340568, .mtx, 536, 4, 64, 18, .rw, .prio, .any, .none⟩
/-- R446. -/
def MTX.PRIO_T7 : Field := ⟨7340572, .mtx, 540, 4, 64, 18, .rw, .prio, .any, .none⟩
/-- R446. -/
def MTX.PRIO_T8 : Field := ⟨7340576, .mtx, 544, 4, 64, 18, .rw, .prio, .any, .none⟩
/-- R446. -/
def MTX.AGE_LIMIT : Field := ⟨7341696, .mtx, 1664, 16, 0, 1, .rw, .val 655, .clamp 1 65535, .none⟩
/-- R446. -/
def MTX.OUTSTANDING : Field := ⟨7341728, .mtx, 1696, 11, 0, 1, .ro, .val 0, .any, .none⟩
/-- R446. -/
def MTX.HOLD_ORDER : Field := ⟨7341760, .mtx, 1728, 32, 0, 1, .ro, .val 0, .any, .none⟩
/-- R446. -/
def MTX.HOLD_RESERVE : Field := ⟨7341792, .mtx, 1760, 32, 0, 1, .ro, .val 0, .any, .none⟩
/-- R446. -/
def MTX.AB_VALID : Field := ⟨7341855, .mtx, 1823, 1, 0, 1, .w1c, .val 0, .any, .none⟩
/-- R446. -/
def MTX.AB_MASTER : Field := ⟨7341832, .mtx, 1800, 5, 0, 1, .ro, .val 0, .any, .none⟩
/-- R446. -/
def MTX.AB_TARGET : Field := ⟨7341824, .mtx, 1792, 4, 0, 1, .ro, .val 0, .any, .none⟩
/-- R446. -/
def MTX.ABORTS : Field := ⟨7341856, .mtx, 1824, 32, 0, 1, .ro, .val 0, .any, .none⟩
/-- R446. -/
def MTX.OUT_M : Field := ⟨7342080, .mtx, 2048, 7, 32, 18, .ro, .val 0, .any, .none⟩
/-- R456. -/
def HOSTQ.MBX_EVT_STATUS : Field := ⟨5243392, .hostq, 512, 12, 0, 1, .w1c, .val 0, .any, .none⟩
/-- R456. -/
def HOSTQ.MBX_EVT_ENABLE : Field := ⟨5243424, .hostq, 544, 12, 0, 1, .rw, .val 0, .any, .none⟩
/-- R456. -/
def HOSTQ.MBX_CHK_ERR : Field := ⟨5243472, .hostq, 592, 16, 0, 1, .ro, .val 0, .any, .none⟩
/-- R456. -/
def HOSTQ.DCC_TX_DROP : Field := ⟨5243456, .hostq, 576, 16, 0, 1, .ro, .val 0, .any, .none⟩
/-- R456. -/
def HOSTQ.CPL_WAIT : Field := ⟨5243488, .hostq, 608, 10, 0, 1, .ro, .val 0, .any, .none⟩
/-- R456. -/
def HOSTQ.IN_FLUSH : Field := ⟨5244959, .hostq, 2079, 1, 128, 14, .sc, .val 0, .any, .none⟩
/-- R456. -/
def HOSTQ.IN_GEN : Field := ⟨5244944, .hostq, 2064, 8, 128, 14, .ro, .val 0, .any, .none⟩
/-- R456. -/
def HOSTQ.IN_CREDIT : Field := ⟨5244928, .hostq, 2048, 9, 128, 14, .ro, .credit, .any, .none⟩
/-- R456. -/
def HOSTQ.IN_PUSH_HEAD : Field := ⟨5244960, .hostq, 2080, 32, 128, 14, .wo, .val 0, .any, .none⟩
/-- R456. -/
def HOSTQ.IN_PUSH_DATA : Field := ⟨5244992, .hostq, 2112, 32, 128, 14, .wo, .val 0, .any, .none⟩
/-- R456. -/
def HOSTQ.IN_FLUSH_DISCARD : Field := ⟨5245040, .hostq, 2160, 16, 128, 14, .ro, .val 0, .any, .none⟩
/-- R456. -/
def HOSTQ.IN_ITEM_ABORT : Field := ⟨5245024, .hostq, 2144, 16, 128, 14, .ro, .val 0, .any, .none⟩
/-- R456. -/
def HOSTQ.RING_BASE_LO : Field := ⟨5246982, .hostq, 4102, 26, 256, 15, .rw, .val 0, .any, .none⟩
/-- R456. -/
def HOSTQ.RING_BASE_HI : Field := ⟨5247008, .hostq, 4128, 32, 256, 15, .rw, .val 0, .any, .none⟩
/-- R456. -/
def HOSTQ.RING_FLUSH : Field := ⟨5247071, .hostq, 4191, 1, 256, 15, .sc, .val 0, .any, .none⟩
/-- R456. -/
def HOSTQ.RING_ENABLE : Field := ⟨5247070, .hostq, 4190, 1, 256, 15, .rw, .val 0, .any, .none⟩
/-- R456. -/
def HOSTQ.RING_GEN : Field := ⟨5247056, .hostq, 4176, 8, 256, 15, .ro, .val 0, .any, .none⟩
/-- R456. -/
def HOSTQ.RING_SIZE_LOG2 : Field := ⟨5247040, .hostq, 4160, 4, 256, 15, .rw, .val 8, .clamp 6 12, .ringOff⟩
/-- R456. -/
def HOSTQ.RING_CI : Field := ⟨5247088, .hostq, 4208, 16, 256, 15, .rw, .val 0, .any, .none⟩
/-- R456. -/
def HOSTQ.RING_PI : Field := ⟨5247072, .hostq, 4192, 16, 256, 15, .ro, .val 0, .any, .none⟩
/-- R456. -/
def HOSTQ.RING_DROPPED : Field := ⟨5247120, .hostq, 4240, 16, 256, 15, .ro, .val 0, .any, .none⟩
/-- R456. -/
def HOSTQ.RING_ITEMS : Field := ⟨5247136, .hostq, 4256, 32, 256, 15, .ro, .val 0, .any, .none⟩
/-- R464. -/
def CHK.UNIT_EVT_STATUS : Field := ⟨6291968, .chk, 512, 32, 0, 1, .w1c, .val 0, .any, .none⟩
/-- R464. -/
def CHK.UNIT_EVT_ENABLE : Field := ⟨6292000, .chk, 544, 32, 0, 1, .rw, .val 0, .any, .none⟩
/-- R464. -/
def CHK.U_POLY_LO : Field := ⟨6293504, .chk, 2048, 32, 1024, 16, .rw, .val 0, .any, .none⟩
/-- R464. -/
def CHK.U_POLY_HI : Field := ⟨6293536, .chk, 2080, 32, 1024, 16, .rw, .val 0, .any, .none⟩
/-- R464. -/
def CHK.U_INIT_LO : Field := ⟨6293568, .chk, 2112, 32, 1024, 16, .rw, .val 0, .any, .none⟩
/-- R464. -/
def CHK.U_INIT_HI : Field := ⟨6293600, .chk, 2144, 32, 1024, 16, .rw, .val 0, .any, .none⟩
/-- R464. -/
def CHK.U_XOROUT_LO : Field := ⟨6293632, .chk, 2176, 32, 1024, 16, .rw, .val 0, .any, .none⟩
/-- R464. -/
def CHK.U_XOROUT_HI : Field := ⟨6293664, .chk, 2208, 32, 1024, 16, .rw, .val 0, .any, .none⟩
/-- R464. -/
def CHK.U_START : Field := ⟨6293727, .chk, 2271, 1, 1024, 16, .wo, .val 0, .any, .none⟩
/-- R464. -/
def CHK.U_BITS : Field := ⟨6293720, .chk, 2264, 6, 1024, 16, .rw, .val 0, .clamp 0 32, .none⟩
/-- R464. -/
def CHK.U_BE : Field := ⟨6293712, .chk, 2256, 4, 1024, 16, .rw, .val 15, .any, .none⟩
/-- R464. -/
def CHK.U_REFOUT : Field := ⟨6293705, .chk, 2249, 1, 1024, 16, .rw, .val 0, .any, .none⟩
/-- R464. -/
def CHK.U_REFIN : Field := ⟨6293704, .chk, 2248, 1, 1024, 16, .rw, .val 0, .any, .none⟩
/-- R464. -/
def CHK.U_WIDTH : Field := ⟨6293696, .chk, 2240, 7, 1024, 16, .rw, .val 32, .clamp 1 64, .none⟩
/-- R464. -/
def CHK.U_DATA : Field := ⟨6293728, .chk, 2272, 32, 1024, 16, .wo, .val 0, .any, .none⟩
/-- R464. -/
def CHK.U_RUNNING_LO : Field := ⟨6293760, .chk, 2304, 32, 1024, 16, .rw, .val 0, .any, .none⟩
/-- R464. -/
def CHK.U_RUNNING_HI : Field := ⟨6293792, .chk, 2336, 32, 1024, 16, .rw, .val 0, .any, .none⟩
/-- R464. -/
def CHK.U_RESULT_LO : Field := ⟨6293824, .chk, 2368, 32, 1024, 16, .ro, .val 0, .any, .none⟩
/-- R464. -/
def CHK.U_RESULT_HI : Field := ⟨6293856, .chk, 2400, 32, 1024, 16, .ro, .val 0, .any, .none⟩
/-- R464. -/
def CHK.U_BUSY : Field := ⟨6293919, .chk, 2463, 1, 1024, 16, .ro, .val 0, .any, .none⟩
/-- R464. -/
def CHK.U_VALID : Field := ⟨6293918, .chk, 2462, 1, 1024, 16, .ro, .val 1, .any, .none⟩
/-- R464. -/
def CHK.U_MATCH : Field := ⟨6293917, .chk, 2461, 1, 1024, 16, .ro, .val 0, .any, .none⟩
/-- R464. -/
def CHK.U_RESULT_SEQ : Field := ⟨6293888, .chk, 2432, 8, 1024, 16, .ro, .val 0, .any, .none⟩
/-- R464. -/
def CHK.U_LSTATUS : Field := ⟨6293920, .chk, 2464, 32, 1024, 16, .ro, .val 0, .any, .none⟩
/-- R464. -/
def CHK.U_CHECK_LO : Field := ⟨6293952, .chk, 2496, 32, 1024, 16, .rw, .val 0, .any, .none⟩
/-- R464. -/
def CHK.U_CHECK_HI : Field := ⟨6293984, .chk, 2528, 32, 1024, 16, .rw, .val 0, .any, .none⟩
/-- R464. -/
def CHK.U_FIRST : Field := ⟨6294036, .chk, 2580, 1, 1024, 16, .rw, .val 1, .any, .none⟩
/-- R464. -/
def CHK.U_EXPECTED : Field := ⟨6294032, .chk, 2576, 4, 1024, 16, .rw, .val 0, .any, .none⟩
/-- R464. -/
def CHK.U_LAST : Field := ⟨6294028, .chk, 2572, 4, 1024, 16, .rw, .val 0, .any, .none⟩
/-- R464. -/
def CHK.U_GAP : Field := ⟨6294017, .chk, 2561, 1, 1024, 16, .ro, .val 0, .any, .none⟩
/-- R464. -/
def CHK.U_REPEAT : Field := ⟨6294016, .chk, 2560, 1, 1024, 16, .ro, .val 0, .any, .none⟩
/-- R464. -/
def CHK.U_ALIVE_SEEN : Field := ⟨6294048, .chk, 2592, 4, 1024, 16, .wo, .val 0, .any, .none⟩
/-- R481. -/
def STARCH.CAL_MARGIN : Field := ⟨3146248, .starch, 520, 4, 0, 1, .rwe, .val 2, .any, .none⟩
/-- R481. -/
def STARCH.DEFER_RETRY : Field := ⟨3146241, .starch, 513, 1, 0, 1, .rwe, .val 1, .any, .none⟩
/-- R481. -/
def STARCH.CAL_MODE : Field := ⟨3146240, .starch, 512, 1, 0, 1, .rw, .flash 0, .any, .none⟩
/-- R481. -/
def STARCH.CAL_BUSY : Field := ⟨3146303, .starch, 575, 1, 0, 1, .ro, .val 0, .any, .none⟩
/-- R481. -/
def STARCH.DEFERRED_PORTS : Field := ⟨3146288, .starch, 560, 10, 0, 1, .ro, .val 0, .any, .none⟩
/-- R481. -/
def STARCH.SUSPECT_ELEMS : Field := ⟨3146272, .starch, 544, 12, 0, 1, .ro, .val 0, .any, .none⟩
/-- R481. -/
def STARCH.CAL_COUNT : Field := ⟨3146304, .starch, 576, 32, 0, 1, .ro, .flash 0, .any, .none⟩
/-- R481. -/
def STARCH.CAL_LAST_TB_LO : Field := ⟨3146336, .starch, 608, 32, 0, 1, .ro, .val 0, .any, .none⟩
/-- R481. -/
def STARCH.CAL_LAST_TB_HI : Field := ⟨3146368, .starch, 640, 32, 0, 1, .ro, .val 0, .any, .none⟩
/-- R481. -/
def STARCH.CAL_LAST_WALL : Field := ⟨3146400, .starch, 672, 32, 0, 1, .ro, .val 0, .any, .none⟩
/-- R481. -/
def STARCH.CAL_LAST_TJ : Field := ⟨3146432, .starch, 704, 10, 0, 1, .ro, .val 0, .any, .none⟩
/-- R481. -/
def STARCH.BIN_VALID : Field := ⟨3146464, .starch, 736, 32, 0, 1, .ro, .flash 0, .any, .none⟩
/-- R481. -/
def STARCH.SENSOR_VALID : Field := ⟨3146512, .starch, 784, 16, 0, 1, .ro, .val 0, .any, .none⟩
/-- R481. -/
def STARCH.TJ_MAX : Field := ⟨3146496, .starch, 768, 10, 0, 1, .ro, .val 0, .any, .none⟩
/-- R481. -/
def STARCH.SENSOR_BAD : Field := ⟨3146544, .starch, 816, 16, 0, 1, .ro, .val 0, .any, .none⟩
/-- R481. -/
def STARCH.WALK_STEPS : Field := ⟨3146528, .starch, 800, 16, 0, 1, .ro, .val 0, .any, .none⟩
/-- R481. -/
def STARCH.AVS_READ : Field := ⟨3146576, .starch, 848, 10, 0, 1, .ro, .val 0, .any, .none⟩
/-- R481. -/
def STARCH.AVS_TARGET : Field := ⟨3146560, .starch, 832, 10, 0, 1, .ro, .val 0, .any, .none⟩
/-- R481. -/
def STARCH.AVS_TIMEOUTS : Field := ⟨3146608, .starch, 880, 16, 0, 1, .ro, .val 0, .any, .none⟩
/-- R481. -/
def STARCH.AVS_CRC_ERR : Field := ⟨3146600, .starch, 872, 8, 0, 1, .ro, .val 0, .any, .none⟩
/-- R481. -/
def STARCH.AVS_DIV : Field := ⟨3146592, .starch, 864, 8, 0, 1, .rw, .val 7, .clamp 3 255, .none⟩
/-- R481. -/
def STARCH.ELEM_QUERY : Field := ⟨3146624, .starch, 896, 11, 0, 1, .rw, .val 0, .any, .none⟩
/-- R481. -/
def STARCH.Q_SUSPECT : Field := ⟨3146687, .starch, 959, 1, 0, 1, .ro, .val 0, .any, .none⟩
/-- R481. -/
def STARCH.Q_SAT : Field := ⟨3146686, .starch, 958, 1, 0, 1, .ro, .val 0, .any, .none⟩
/-- R481. -/
def STARCH.Q_REGION : Field := ⟨3146672, .starch, 944, 4, 0, 1, .ro, .val 0, .any, .none⟩
/-- R481. -/
def STARCH.Q_TARGET : Field := ⟨3146664, .starch, 936, 6, 0, 1, .ro, .val 0, .any, .none⟩
/-- R481. -/
def STARCH.Q_TAP : Field := ⟨3146656, .starch, 928, 6, 0, 1, .ro, .val 0, .any, .none⟩
/-- R481. -/
def STARCH.SENSOR_V : Field := ⟨3146783, .starch, 1055, 1, 32, 16, .ro, .val 0, .any, .none⟩
/-- R481. -/
def STARCH.SENSOR_READING : Field := ⟨3146752, .starch, 1024, 10, 32, 16, .ro, .val 0, .any, .none⟩
/-- R482. -/
def PORT.CAL_DEFERRED : Field := ⟨14687007, .port, 6943, 1, 0, 1, .ro, .val 0, .any, .none⟩
/-- R482. -/
def PORT.NEVER_CAL : Field := ⟨14687006, .port, 6942, 1, 0, 1, .ro, .val 1, .any, .none⟩
/-- R482. -/
def PORT.ITEM_SUSPECT : Field := ⟨14687000, .port, 6936, 4, 0, 1, .ro, .val 0, .any, .none⟩
/-- R482. -/
def PORT.DC_TRIM : Field := ⟨14686976, .port, 6912, 10, 0, 1, .rwe, .val 0, .any, .none⟩
/-- R482. -/
def PORT.PORT_CAL_TB : Field := ⟨14687008, .port, 6944, 32, 0, 1, .ro, .val 0, .any, .none⟩
/-- R482. -/
def PORT.RETRIES : Field := ⟨14687056, .port, 6992, 16, 0, 1, .ro, .val 0, .any, .none⟩
/-- R504. -/
def LINT.ESC_WINDOW : Field := ⟨2097680, .lint0, 528, 8, 0, 1, .rw, .val 10, .clamp 1 255, .none⟩
/-- R504. -/
def LINT.ESC_COUNT : Field := ⟨2097672, .lint0, 520, 4, 0, 1, .rw, .val 3, .clamp 1 15, .none⟩
/-- R504. -/
def LINT.SHADOW_FRAMES : Field := ⟨2097664, .lint0, 512, 8, 0, 1, .rw, .val 16, .any, .none⟩
/-- R504. -/
def LINT.FIRST_VALID : Field := ⟨2097727, .lint0, 575, 1, 0, 1, .w1c, .val 0, .any, .none⟩
/-- R504. -/
def LINT.FIRST_CLASS : Field := ⟨2097725, .lint0, 573, 2, 0, 1, .ro, .val 0, .any, .none⟩
/-- R504. -/
def LINT.FIRST_WIRE : Field := ⟨2097724, .lint0, 572, 1, 0, 1, .ro, .val 0, .any, .none⟩
/-- R504. -/
def LINT.FIRST_INJ : Field := ⟨2097723, .lint0, 571, 1, 0, 1, .ro, .val 0, .any, .none⟩
/-- R504. -/
def LINT.FIRST_ESC : Field := ⟨2097722, .lint0, 570, 1, 0, 1, .ro, .val 0, .any, .none⟩
/-- R504. -/
def LINT.FIRST_SOURCE : Field := ⟨2097696, .lint0, 544, 14, 0, 1, .ro, .val 0, .any, .none⟩
/-- R504. -/
def LINT.FIRST_TB_LO : Field := ⟨2097728, .lint0, 576, 32, 0, 1, .ro, .val 0, .any, .none⟩
/-- R504. -/
def LINT.FIRST_TB_HI : Field := ⟨2097760, .lint0, 608, 32, 0, 1, .ro, .val 0, .any, .none⟩
/-- R504. -/
def LINT.FIRST_DETAIL : Field := ⟨2097792, .lint0, 640, 32, 0, 1, .ro, .val 0, .any, .none⟩
/-- R504. -/
def LINT.OVERFLOW : Field := ⟨2097855, .lint0, 703, 1, 0, 1, .w1c, .val 0, .any, .none⟩
/-- R504. -/
def LINT.OVF_COUNT : Field := ⟨2097824, .lint0, 672, 16, 0, 1, .ro, .val 0, .any, .none⟩
/-- R504. -/
def LINT.CLASS_COUNT : Field := ⟨2097856, .lint0, 704, 32, 32, 4, .ro, .val 0, .any, .none⟩
/-- R504. -/
def LINT.WIRE_COUNT : Field := ⟨2097984, .lint0, 832, 32, 0, 1, .ro, .val 0, .any, .none⟩
/-- R504. -/
def LINT.CONSEQ_COUNT : Field := ⟨2098016, .lint0, 864, 32, 0, 1, .ro, .val 0, .any, .none⟩
/-- R504. -/
def LINT.INJ_COUNT : Field := ⟨2098048, .lint0, 896, 32, 0, 1, .ro, .val 0, .any, .none⟩
/-- R504. -/
def LINT.ESC_TOTAL : Field := ⟨2098080, .lint0, 928, 32, 0, 1, .ro, .val 0, .any, .none⟩
/-- R504. -/
def LINT.LAST_INFO : Field := ⟨2098112, .lint0, 960, 32, 0, 1, .ro, .val 0, .any, .none⟩
/-- R504. -/
def LINT.LAST_TB_LO : Field := ⟨2098144, .lint0, 992, 32, 0, 1, .ro, .val 0, .any, .none⟩
/-- R504. -/
def LINT.INJ_KEY : Field := ⟨2098176, .lint0, 1024, 16, 0, 1, .wo, .val 0, .any, .none⟩
/-- R504. -/
def LINT.INJ_ARMED : Field := ⟨2098239, .lint0, 1087, 1, 0, 1, .ro, .val 0, .any, .none⟩
/-- R504. -/
def LINT.INJ_ACTIVE : Field := ⟨2098238, .lint0, 1086, 1, 0, 1, .rw, .val 0, .any, .none⟩
/-- R504. -/
def LINT.INJ_MODE : Field := ⟨2098236, .lint0, 1084, 2, 0, 1, .rw, .val 0, .codes [0, 1, 2], .none⟩
/-- R504. -/
def LINT.INJ_SOURCE : Field := ⟨2098208, .lint0, 1056, 14, 0, 1, .rw, .val 0, .any, .none⟩
/-- R504. -/
def LINT.SHADOWS : Field := ⟨2098240, .lint0, 1088, 8, 0, 1, .ro, .val 0, .any, .none⟩
/-- R506. -/
def BIST.RUNNING : Field := ⟨8389151, .bist, 543, 1, 0, 1, .ro, .val 0, .any, .none⟩
/-- R506. -/
def BIST.ROLLING : Field := ⟨8389150, .bist, 542, 1, 0, 1, .ro, .val 0, .any, .none⟩
/-- R506. -/
def BIST.ITEM : Field := ⟨8389120, .bist, 512, 8, 0, 1, .ro, .val 0, .any, .none⟩
/-- R506. -/
def BIST.SLICES_RUN : Field := ⟨8389168, .bist, 560, 8, 0, 1, .ro, .val 0, .any, .none⟩
/-- R506. -/
def BIST.SLICES_FAILED : Field := ⟨8389152, .bist, 544, 8, 0, 1, .ro, .val 0, .any, .none⟩
/-- R506. -/
def BIST.PART_FAILED : Field := ⟨8389184, .bist, 576, 24, 0, 1, .ro, .val 0, .any, .none⟩
/-- R506. -/
def BIST.FAIL_ITEM : Field := ⟨8389216, .bist, 608, 32, 0, 1, .ro, .val 4294967295, .any, .none⟩
/-- R506. -/
def BIST.FAIL_SIG_LO : Field := ⟨8389248, .bist, 640, 32, 0, 1, .ro, .val 0, .any, .none⟩
/-- R506. -/
def BIST.FAIL_SIG_HI : Field := ⟨8389280, .bist, 672, 32, 0, 1, .ro, .val 0, .any, .none⟩
/-- R506. -/
def BIST.FAIL_REF_LO : Field := ⟨8389312, .bist, 704, 32, 0, 1, .ro, .val 0, .any, .none⟩
/-- R506. -/
def BIST.FAIL_REF_HI : Field := ⟨8389344, .bist, 736, 32, 0, 1, .ro, .val 0, .any, .none⟩
/-- R506. -/
def BIST.ROUND_FAILS : Field := ⟨8389392, .bist, 784, 16, 0, 1, .ro, .val 0, .any, .none⟩
/-- R506. -/
def BIST.ROUNDS : Field := ⟨8389376, .bist, 768, 16, 0, 1, .ro, .val 0, .any, .none⟩
/-- R506. -/
def BIST.REV_MATCH : Field := ⟨8389409, .bist, 801, 1, 0, 1, .ro, .val 0, .any, .none⟩
/-- R506. -/
def BIST.REF_OK : Field := ⟨8389408, .bist, 800, 1, 0, 1, .ro, .val 0, .any, .none⟩
/-- R506. -/
def BIST.LAST_RUN_TB : Field := ⟨8389440, .bist, 832, 32, 0, 1, .ro, .val 0, .any, .none⟩
/-- R517. -/
def DEV.GPIO_OE : Field := ⟨1050512, .dev, 1936, 16, 0, 1, .rw, .val 0, .any, .none⟩
/-- R517. -/
def DEV.GPIO_OUT : Field := ⟨1050496, .dev, 1920, 16, 0, 1, .rw, .val 0, .any, .none⟩
/-- R517. -/
def DEV.GPIO_IN : Field := ⟨1050528, .dev, 1952, 16, 0, 1, .ro, .val 0, .any, .none⟩
/-- R517. -/
def DEV.GPIO_EVT_EN : Field := ⟨1050560, .dev, 1984, 16, 0, 1, .rw, .val 0, .any, .none⟩
/-- R517. -/
def DEV.GPIO_CHANGED : Field := ⟨1050592, .dev, 2016, 16, 0, 1, .w1c, .val 0, .any, .none⟩
/-- R242. -/
def STN.EXP_TRACE : Field := ⟨19923072, .stn, 128, 32, 32, 4, .rw, .val 0, .any, .none⟩
/-- R505. -/
def LINT.STICKY : Field := ⟨16777728, .lint1, 512, 32, 32, 348, .w1c, .val 0, .any, .none⟩
/-- R505. -/
def LINT.PRESENT : Field := ⟨17826304, .lint2, 512, 32, 32, 348, .ro, .val 0, .any, .none⟩

/-- The fields of one dev page or context, in address order. -/
def fieldsDev : List Field :=
  [DEV.STATE, DEV.BOOT_STEP, DEV.PROG_ACTIVE, DEV.PROG_TARGET, DEV.PROG_BUSY, DEV.PROG_ADVICE, DEV.L2T_DELAY, DEV.T2L_DELAY, DEV.LOAD_UNITS, DEV.LOAD_PCT, DEV.LOAD_REFUSED, DEV.FREEZE] ++
  [DEV.WALK_PIN, DEV.MIG_BUSY, DEV.MIG_COUNT, DEV.TIMEBASE_LO, DEV.TIMEBASE_HI, DEV.DL_MISS_TOTAL, DEV.DL_LANE, DEV.DL_STAGE, DEV.DL_PORT, DEV.DL_DIR, DEV.DL_ABANDON, DEV.DL_MIGRATE] ++
  [DEV.PAIR_ROLE, DEV.BOOT_SRC, DEV.TEST_MODE, DEV.PCIE_ID, DEV.BOOT_SRCS, DEV.HDR_A_BAD, DEV.HDR_B_BAD, DEV.SIG_REQUIRED, DEV.CMD_REJECT, DEV.CMD_BUSY, DEV.CMD_INFLIGHT, DEV.WALLCLOCK] ++
  [DEV.PIN_EN, DEV.VEC_ACK, DEV.BUS_ADDR, DEV.RANGE, DEV.SUBWORD, DEV.EVT_TOP_LO, DEV.EVT_TOP_HI, DEV.SRC_LANE, DEV.SRC_KIND, DEV.FSYNC_OUT_EN, DEV.FORCE_ENTRY, DEV.FORCE_EN] ++
  [DEV.SRC_QUAL, DEV.LOOP_BW, DEV.BUILD_OUT, DEV.REVERTIVE, DEV.RATE_PROFILE, DEV.SRC_FAILED, DEV.SRC_QUALIFIED, DEV.SEL_ENTRY, DEV.HOLD_VALID, DEV.TSTATE, DEV.PHASE_ERR, DEV.SRC_SWITCHES] ++
  [DEV.NCO_OFFSET, DEV.HOLD_FREQ, DEV.FSYNC_OFFSET, DEV.TRK_OFFSET, DEV.HOLDOVER_SEC, DEV.ALIGN_JUMPS, DEV.QUERY_INDEX, DEV.Q_WTR_LEFT, DEV.Q_TOP_REQ, DEV.Q_HOLDOFF_RUN, DEV.Q_SELECTED, DEV.Q_KIND] ++
  [DEV.GPIO_OUT, DEV.GPIO_OE, DEV.GPIO_IN, DEV.GPIO_EVT_EN, DEV.GPIO_CHANGED, DEV.LANE_CAP, DEV.LANE_LOAD, DEV.PORTS, DEV.MISS_WINDOW, DEV.OVERRUN, DEV.LANE_RESET, DEV.LANE_MISS] ++
  [DEV.EVT_SUMMARY, DEV.LEAF_VEC, DEV.PLEAT_HIT, DEV.TRUNK_SLIPS, DEV.TRK_FILL, DEV.JC_ERR, DEV.PAIR_HOLD_OFF, DEV.PAIR_WTR, DEV.PAIR_COMMAND, DEV.PAIR_REVERTIVE, DEV.PAIR_WTR_LEFT, DEV.PAIR_SELECTED] ++
  [DEV.PAIR_TOP_REQ, DEV.PAIR_CMD_REFUSED, DEV.PAIR_SWITCHES]
/-- The fields of one port page or context, in address order. -/
def fieldsPort : List Field :=
  [PORT.LANE, PORT.LANE_PIN, PORT.ENGINE, PORT.ENGINE_PIN, PORT.PENDING, PORT.LOS_HYST, PORT.DC_SHIFT, PORT.LOS_THRESH, PORT.OVR_COUNT, PORT.ALARM_FRAMES, PORT.SAMPLE_GAP, PORT.FRAME_ENERGY] ++
  [PORT.SF_CODE, PORT.D_CODE, PORT.CR, PORT.INFO_BITS, PORT.N_SLOTS, PORT.CFG_VALID, PORT.PORT_WORD, PORT.NOISE_FLOOR, PORT.DET_FACTOR, PORT.DET_THRESH, PORT.TX_AMP, PORT.ACT_WAIT] ++
  [PORT.SNR_EST, PORT.ACQ_STATE, PORT.RX_FRAME_PHASE, PORT.CLK_OFFSET, PORT.PRE_DET, PORT.PW_REJECT, PORT.PW_LAST, PORT.OFFER_FAIL, PORT.OFFERS, PORT.RX_LEVEL_NEC, PORT.NEC_FREEZE, PORT.LAYER_SNR] ++
  [PORT.CAPTURE_MARGIN, PORT.BURST_SLOTS, PORT.WINDOWS, PORT.CYCLE, PORT.COLL_ACTIVE, PORT.COLL_MODE, PORT.SHARED, PORT.BURST_LOS, PORT.TA_TRIM, PORT.MAX_RTT, PORT.DROP_TIME, PORT.BURST_SYMS] ++
  [PORT.WINDOW_SYMS, PORT.GRANT_LO, PORT.GRANT_HI, PORT.ACTIVE_MASK, PORT.MAP_PENDING, PORT.FULL, PORT.COLL_DELTA, PORT.COLL_B_STN, PORT.COLL_B_VALID, PORT.COLL_A_STN, PORT.COLL_A_VALID, PORT.COLL_WINDOW] ++
  [PORT.COLL_OUTCOME, PORT.COLL_TIME, PORT.BURST_MISSED, PORT.BURST_OK, PORT.HDR_ERR, PORT.BURST_CHK_ERR, PORT.LOST_DET, PORT.FALSE_DET, PORT.RANGE_ERR, PORT.WRONG_WINDOW, PORT.COLL_IGNORED, PORT.CAPTURED] ++
  [PORT.FORK_ONE, PORT.FORK_BOTH, PORT.JOIN_REJECT, PORT.FORK_NONE, PORT.STN_DROPS, PORT.JOIN_OK, PORT.PAM_MOD, PORT.PAM_BAUD, PORT.PAM_CR, PORT.LC_POLICY, PORT.CABLE_PAM, PORT.LC_ACTIVE] ++
  [PORT.ACT_STATE, PORT.PAM_INFO_BITS, PORT.PAM_SLOTS, PORT.PAM_CFG_VALID, PORT.FALLBACK_WINDOW, PORT.PAM_FAILS, PORT.LOF_IN_WINDOW, PORT.NO_ANSWER, PORT.LOF_FALLBACK, PORT.FALLBACK_BLOCKED, PORT.FALLBACK_COUNT, PORT.PAM_ACT_FAIL] ++
  [PORT.PAM_ACT, PORT.PAM_SNR, PORT.PAM_CLK_OFFSET, PORT.EC_FREEZE, PORT.FFE_FREEZE, PORT.DFE_FREEZE, PORT.EC_TAPS, PORT.EC_ERLE, PORT.PAM_TX_AMP, PORT.THRESH, PORT.OFS_TRIM, PORT.TB_DEPTH] ++
  [PORT.DARN_DELAY, PORT.SOFT_SCALE, PORT.PRE_BITS_MF, PORT.PRE_ERR_MF, PORT.PRE_ERR_TOTAL, PORT.ERASURES_MF, PORT.ABSENT_FRAMES, PORT.LOF_COUNT, PORT.FORCE_HUNT, PORT.BIT_POS, PORT.SURVIVORS, PORT.ALIGN_STATE] ++
  [PORT.MFA_ERR, PORT.FAW_ERR, PORT.CRC_ERR_MF, PORT.CRC_GOOD_MF, PORT.AMBIG_COUNT, PORT.ALIGN_COUNT, PORT.MFA_LOSS, PORT.FA_LOSS, PORT.CRC_NONE_MF, PORT.TX_PORT_LABEL, PORT.EXP_PORT_LABEL, PORT.RX_PORT_LABEL] ++
  [PORT.SIG_HELD, PORT.TRACE_SEL, PORT.TX_TRACE, PORT.RX_TRACE, PORT.DCC_TX, PORT.DCC_RX_OK, PORT.DCC_FMT_ERR, PORT.DCC_CRC_ERR, PORT.ALIVE_GAP, PORT.ALIVE_REPEAT, PORT.FE_PRE_ERR, PORT.FE_BLOCK_ERR] ++
  [PORT.STN_STATUS_LO, PORT.STN_STATUS_HI, PORT.DCCL_CAUSE, PORT.DCCL_STN, PORT.DCCL_TYPE, PORT.PRE_WARN_TH, PORT.SF_EXP, PORT.SD_EXP, PORT.AIS_TRUNK_EN, PORT.RDI_EN, PORT.SIG_FREEZE_EN, PORT.PROT_SF_EN] ++
  [PORT.PROT_SD_EN, PORT.AIS_ON_PLM, PORT.AIS_ON_UNEQ, PORT.AIS_ON_TIM, PORT.TX_RDI, PORT.PORT_FAILED, PORT.SD_CLR, PORT.SD_CLR_K, PORT.SD_DECL, PORT.SD_K, PORT.SF_CLR, PORT.SF_CLR_K] ++
  [PORT.SF_DECL, PORT.SF_K, PORT.SF_WIN_ERR, PORT.SD_WIN_ERR, PORT.PRE_RATE, PORT.TOTAL, PORT.STN_LOS, PORT.STN_LOF, PORT.STN_LOMF, PORT.STN_AIS, PORT.STN_RDI, PORT.STN_SD] ++
  [PORT.STN_SF, PORT.STN_PLM, PORT.STN_UNEQ, PORT.STN_TIM, PORT.STN_FAILED, PORT.STN_CV, PORT.SNAP1, PORT.SNAP15, PORT.WANDER_LIM, PORT.TIMING_MODE, PORT.SLIPS, PORT.SLIP_DROP] ++
  [PORT.SLIP_REPEAT, PORT.TIMING_MISMATCH, PORT.WANDER_HIT, PORT.SLIP_FILL, PORT.STN_CLK_OFFSET, PORT.STN_SELF_TIMED, PORT.STN_HOLDOVER, PORT.TREF_IDX, PORT.TX_OFFSET, PORT.HOLD_OFF, PORT.WTR, PORT.PARTNER] ++
  [PORT.REVERTIVE, PORT.BIDIR, PORT.PROT_EN, PORT.COMMAND, PORT.WTR_LEFT, PORT.PROT_VALID, PORT.MISMATCH, PORT.SELECTED, PORT.REMOTE_REQ, PORT.LOCAL_REQ, PORT.TOP_REQ, PORT.RX_F5] ++
  [PORT.RX_F4, PORT.TX_F5, PORT.TX_F4, PORT.CMD_REFUSED, PORT.SWITCHES, PORT.MISMATCH_COUNT, PORT.NDL_USED, PORT.NDL_PEAK, PORT.HOOKS_SKIPPED, PORT.NDL_OVERRUNS, PORT.CUST_EN, PORT.DC_TRIM] ++
  [PORT.ITEM_SUSPECT, PORT.NEVER_CAL, PORT.CAL_DEFERRED, PORT.PORT_CAL_TB, PORT.RETRIES]
/-- The fields of one trib page or context, in address order. -/
def fieldsTrib : List Field :=
  [TRIB.RX_SLOT, TRIB.TX_SLOT, TRIB.STN_N, TRIB.PORT_N, TRIB.WIDE, TRIB.EQUIPPED, TRIB.TX_LABEL, TRIB.EXP_LABEL, TRIB.RX_LABEL, TRIB.SIG_TX, TRIB.SIG_RX, TRIB.T_UNEQ] ++
  [TRIB.T_PLM, TRIB.SD_TRIG, TRIB.TRIB_FAILED, TRIB.PLEAT_SLIPS, TRIB.PLEAT_IDX, TRIB.DESYNC_ACTIVE, TRIB.PLEAT, TRIB.HOLD_OFF, TRIB.WTR, TRIB.REVERTIVE, TRIB.COMMAND, TRIB.USERS] ++
  [TRIB.CMD_REFUSED, TRIB.SWITCHES, TRIB.REC_REFUSED, TRIB.REC_ACTIVE2, TRIB.REC_ACTIVE, TRIB.REC_WIDE, TRIB.REC_EN, TRIB.BANK, TRIB.BANK_PIN, TRIB.REC_CH, TRIB.REC_RANK, TRIB.REC_PIN] ++
  [TRIB.PENDING]
/-- The fields of one jlane page or context, in address order. -/
def fieldsJlane : List Field :=
  [JLANE.RX_INV, JLANE.TX_INV, JLANE.LANE_ID, JLANE.LINK, JLANE.TX_SWING, JLANE.TX_POST, JLANE.TX_PRE, JLANE.CDR_LOCK, JLANE.SH_LOCK, JLANE.EMB_LOCK, JLANE.SH_ERR, JLANE.CRC12_ERR] ++
  [JLANE.M, JLANE.L_CODE, JLANE.FS_SEL, JLANE.SYSREF_TRACK, JLANE.E, JLANE.F, JLANE.RBD, JLANE.SYNC_TIMEOUT, JLANE.LINK_STATE, JLANE.SYSREF_MISALIGN]
/-- The fields of one afec page or context, in address order. -/
def fieldsAfec : List Field :=
  [AFEC.SPI_DIV, AFEC.HOLD, AFEC.BUSY, AFEC.HELD, AFEC.AFE_PRESENT, AFEC.TARGET_CHIRP, AFEC.TARGET_PAM, AFEC.OVR_LIMIT, AFEC.GF_PORT, AFEC.GF_CAUSE, AFEC.GF_VALID, AFEC.RAW_CS] ++
  [AFEC.RAW_MASTER, AFEC.RAW_GO, AFEC.RAW_TX, AFEC.RAW_RX, AFEC.PORT_GAIN, AFEC.RX_LEVEL, AFEC.GAIN_STATE, AFEC.GAIN_APPLIED, AFEC.GAIN_ADVICE]
/-- The fields of one stn page or context, in address order. -/
def fieldsStn : List Field :=
  [STN.TA, STN.S_WINDOW, STN.STN_STATE, STN.LAST_OFFSET, STN.BURST_SNR, STN.STN_BURST_BAD, STN.STN_BURST_OK, STN.NONCE, STN.TA_ADJUSTS, STN.JOINS, STN.EXP_TRACE]
/-- The fields of one mangle page or context, in address order. -/
def fieldsMangle : List Field :=
  [MANGLE.COPY_ON_SWAP, MANGLE.SWAP_COUNT, MANGLE.ACTIVE_PAGE, MANGLE.COPY_BUSY, MANGLE.SWAP_PENDING, MANGLE.WALK_LAST, MANGLE.WALK_MAX, MANGLE.ENTRIES, MANGLE.WALK_LATE, MANGLE.CM_BAD, MANGLE.DUP_DST, MANGLE.CM_WR_DROP] ++
  [MANGLE.BAD_INDEX, MANGLE.BAD_PAGE, MANGLE.BAD_CAUSE, MANGLE.BAD_VALID, MANGLE.SYNC_LOSS, MANGLE.CLEAR, MANGLE.USED, MANGLE.SYNC, MANGLE.BIT_ERR]
/-- The fields of one trunk page or context, in address order. -/
def fieldsTrunk : List Field :=
  [TRUNK.RATE, TRUNK.RX_INV, TRUNK.TX_INV, TRUNK.PAIR_EN, TRUNK.LOOPBACK, TRUNK.TX_TLABEL, TRUNK.EXP_TLABEL, TRUNK.RX_TLABEL, TRUNK.TX_TRACE, TRUNK.RX_TRACE, TRUNK.DEFECTS, TRUNK.FAILED] ++
  [TRUNK.CDR_LOCK, TRUNK.ALIGN, TRUNK.AIS_SRC_EN, TRUNK.AIS_ON_TPLM, TRUNK.AIS_ON_TTIM, TRUNK.TRDI_EN, TRUNK.TSD_DECL, TRUNK.TSD_CLR, TRUNK.CRC_ERR_MF, TRUNK.CRC_GOOD_MF, TRUNK.FA_LOSS, TRUNK.FAW_ERR] ++
  [TRUNK.TSD_WIN_ERR, TRUNK.TSIG_HELD, TRUNK.RX_EPOCH, TRUNK.RX_SEL_EPOCH, TRUNK.RX_ROLE, TRUNK.TX_ROLE, TRUNK.FE_CRC_ERR, TRUNK.EXP_TTRACE]
/-- The fields of one hamper page or context, in address order. -/
def fieldsHamper : List Field :=
  [HAMPER.DPC, HAMPER.RANKS, HAMPER.DIMM_GIB, HAMPER.DATA_RATE, HAMPER.CAPACITY_GIB, HAMPER.REC_SIZE_GIB, HAMPER.REC_RETENTION, HAMPER.REC_STREAMS, HAMPER.REC_REFUSED, HAMPER.REC_BLOCKS, HAMPER.SEG_DROPS, HAMPER.WIN_BASE] ++
  [HAMPER.WIN_BUSY, HAMPER.APT_WR_DROP, HAMPER.APT_OOR, HAMPER.LOOKUP_TRIB, HAMPER.SECOND, HAMPER.LOOKUP_GO, HAMPER.LOOKUP_TIME_LO, HAMPER.LOOKUP_TIME_HI, HAMPER.LOOKUP_LA_LO, HAMPER.LOOKUP_LA_HI, HAMPER.LOOKUP_STATUS, HAMPER.DLY_INDEX] ++
  [HAMPER.DELAY, HAMPER.DLY_USED, HAMPER.CLIP, HAMPER.VERIFIED, HAMPER.CLIP_GO, HAMPER.PLAYS, HAMPER.PLAY_ERR, HAMPER.EXTRACTS, HAMPER.CE_COUNT, HAMPER.UE_COUNT, HAMPER.SCRUB_PASSES, HAMPER.SCRUB_EN] ++
  [HAMPER.CE_LIMIT, HAMPER.UE_LA_LO, HAMPER.UE_LA_HI]
/-- The fields of one pair page or context, in address order. -/
def fieldsPair : List Field :=
  [PAIR.GAP_MODE, PAIR.MIRROR_RECORD, PAIR.AUTO_RESOLVE, PAIR.CKPT_PERIOD, PAIR.ECHO_LANES, PAIR.RESOLVE, PAIR.CLAIM_NOW, PAIR.ECHO_GRACE, PAIR.HB_OK, PAIR.PEER_CLAIMS, PAIR.PEER_PINS, PAIR.OWN_CLAIM] ++
  [PAIR.MISMATCH, PAIR.ISOLATED, PAIR.LANE_UP, PAIR.MATE_UP, PAIR.SYNCED, PAIR.ROLE, PAIR.EPOCH, PAIR.PEER_EPOCH, PAIR.CKPT_GEN_LO, PAIR.CKPT_GEN_HI, PAIR.CKPT_AGE, PAIR.JSEQ] ++
  [PAIR.JSEQ_APPLIED, PAIR.OWN_HEALTH, PAIR.PEER_HEALTH, PAIR.TB_OFFSET_LO, PAIR.TB_OFFSET_HI, PAIR.DEMOTIONS, PAIR.TAKEOVERS, PAIR.GAP_FRAMES, PAIR.COLD, PAIR.CAUSE, PAIR.CKPT_NAK, PAIR.JRN_RESEND] ++
  [PAIR.JRN_OVERFLOW, PAIR.MIRROR_GAP, PAIR.EPOCH_BACK, PAIR.ECHO_STALE, PAIR.CLAIM_WIRE, PAIR.HB_LOSS, PAIR.MATE_CRC_ERR]
/-- The fields of one ndl page or context, in address order. -/
def fieldsNdl : List Field :=
  [NDL.PC, NDL.HOOK, NDL.WAIT_MASK, NDL.QUEUE, NDL.PORTS, NDL.INSTR_MF, NDL.ACCT_USED, NDL.ACCT_PEAK, NDL.FAULTS, NDL.OVERRUNS, NDL.ACCT_OVERRUNS, NDL.HOOK_DROP] ++
  [NDL.NF_PORT, NDL.NF_CUST, NDL.NF_PC, NDL.NF_CAUSE, NDL.NF_VALID, NDL.CODE_WR_DROP, NDL.WIN_BANK, NDL.WIN_SHARED, NDL.IMAGE_CRC, NDL.CUST_VER, NDL.VENDOR_VER, NDL.ADDR] ++
  [NDL.EN, NDL.N, NDL.FLAGS, NDL.DATA, NDL.WIN]
/-- The fields of one mtx page or context, in address order. -/
def fieldsMtx : List Field :=
  [MTX.PRIO_T0, MTX.PRIO_T1, MTX.PRIO_T2, MTX.PRIO_T3, MTX.PRIO_T4, MTX.PRIO_T5, MTX.PRIO_T6, MTX.PRIO_T7, MTX.PRIO_T8, MTX.AGE_LIMIT, MTX.OUTSTANDING, MTX.HOLD_ORDER] ++
  [MTX.HOLD_RESERVE, MTX.AB_TARGET, MTX.AB_MASTER, MTX.AB_VALID, MTX.ABORTS, MTX.OUT_M]
/-- The fields of one hostq page or context, in address order. -/
def fieldsHostq : List Field :=
  [HOSTQ.MBX_EVT_STATUS, HOSTQ.MBX_EVT_ENABLE, HOSTQ.DCC_TX_DROP, HOSTQ.MBX_CHK_ERR, HOSTQ.CPL_WAIT, HOSTQ.IN_CREDIT, HOSTQ.IN_GEN, HOSTQ.IN_FLUSH, HOSTQ.IN_PUSH_HEAD, HOSTQ.IN_PUSH_DATA, HOSTQ.IN_ITEM_ABORT, HOSTQ.IN_FLUSH_DISCARD] ++
  [HOSTQ.RING_BASE_LO, HOSTQ.RING_BASE_HI, HOSTQ.RING_SIZE_LOG2, HOSTQ.RING_GEN, HOSTQ.RING_ENABLE, HOSTQ.RING_FLUSH, HOSTQ.RING_PI, HOSTQ.RING_CI, HOSTQ.RING_DROPPED, HOSTQ.RING_ITEMS]
/-- The fields of one chk page or context, in address order. -/
def fieldsChk : List Field :=
  [CHK.UNIT_EVT_STATUS, CHK.UNIT_EVT_ENABLE, CHK.U_POLY_LO, CHK.U_POLY_HI, CHK.U_INIT_LO, CHK.U_INIT_HI, CHK.U_XOROUT_LO, CHK.U_XOROUT_HI, CHK.U_WIDTH, CHK.U_REFIN, CHK.U_REFOUT, CHK.U_BE] ++
  [CHK.U_BITS, CHK.U_START, CHK.U_DATA, CHK.U_RUNNING_LO, CHK.U_RUNNING_HI, CHK.U_RESULT_LO, CHK.U_RESULT_HI, CHK.U_RESULT_SEQ, CHK.U_MATCH, CHK.U_VALID, CHK.U_BUSY, CHK.U_LSTATUS] ++
  [CHK.U_CHECK_LO, CHK.U_CHECK_HI, CHK.U_REPEAT, CHK.U_GAP, CHK.U_LAST, CHK.U_EXPECTED, CHK.U_FIRST, CHK.U_ALIVE_SEEN]
/-- The fields of one starch page or context, in address order. -/
def fieldsStarch : List Field :=
  [STARCH.CAL_MODE, STARCH.DEFER_RETRY, STARCH.CAL_MARGIN, STARCH.SUSPECT_ELEMS, STARCH.DEFERRED_PORTS, STARCH.CAL_BUSY, STARCH.CAL_COUNT, STARCH.CAL_LAST_TB_LO, STARCH.CAL_LAST_TB_HI, STARCH.CAL_LAST_WALL, STARCH.CAL_LAST_TJ, STARCH.BIN_VALID] ++
  [STARCH.TJ_MAX, STARCH.SENSOR_VALID, STARCH.WALK_STEPS, STARCH.SENSOR_BAD, STARCH.AVS_TARGET, STARCH.AVS_READ, STARCH.AVS_DIV, STARCH.AVS_CRC_ERR, STARCH.AVS_TIMEOUTS, STARCH.ELEM_QUERY, STARCH.Q_TAP, STARCH.Q_TARGET] ++
  [STARCH.Q_REGION, STARCH.Q_SAT, STARCH.Q_SUSPECT, STARCH.SENSOR_READING, STARCH.SENSOR_V]
/-- The fields of one lint0 page or context, in address order. -/
def fieldsLint0 : List Field :=
  [LINT.SHADOW_FRAMES, LINT.ESC_COUNT, LINT.ESC_WINDOW, LINT.FIRST_SOURCE, LINT.FIRST_ESC, LINT.FIRST_INJ, LINT.FIRST_WIRE, LINT.FIRST_CLASS, LINT.FIRST_VALID, LINT.FIRST_TB_LO, LINT.FIRST_TB_HI, LINT.FIRST_DETAIL] ++
  [LINT.OVF_COUNT, LINT.OVERFLOW, LINT.CLASS_COUNT, LINT.WIRE_COUNT, LINT.CONSEQ_COUNT, LINT.INJ_COUNT, LINT.ESC_TOTAL, LINT.LAST_INFO, LINT.LAST_TB_LO, LINT.INJ_KEY, LINT.INJ_SOURCE, LINT.INJ_MODE] ++
  [LINT.INJ_ACTIVE, LINT.INJ_ARMED, LINT.SHADOWS]
/-- The fields of one bist page or context, in address order. -/
def fieldsBist : List Field :=
  [BIST.ITEM, BIST.ROLLING, BIST.RUNNING, BIST.SLICES_FAILED, BIST.SLICES_RUN, BIST.PART_FAILED, BIST.FAIL_ITEM, BIST.FAIL_SIG_LO, BIST.FAIL_SIG_HI, BIST.FAIL_REF_LO, BIST.FAIL_REF_HI, BIST.ROUNDS] ++
  [BIST.ROUND_FAILS, BIST.REF_OK, BIST.REV_MATCH, BIST.LAST_RUN_TB]
/-- The fields of one lint1 page or context, in address order. -/
def fieldsLint1 : List Field :=
  [LINT.STICKY]
/-- The fields of one lint2 page or context, in address order. -/
def fieldsLint2 : List Field :=
  [LINT.PRESENT]

end Sys2Proof.Machine
end

