-- ==== Sys2Proof/Machine/ServiceState.lean ====
section
/-! DEFINITION. The state of the bus matrix and of the CHK units behind their registers (R441 to R464). -/

namespace Sys2Proof.Machine

/-- A request that waits at its master port or at its target (R442 to R444). -/
structure MtxReq where
  master  : Nat
  target  : Nat
  id      : Nat
  beats   : Nat
  since   : Nat     -- TIMEBASE at which it was made
  order   : Bool    -- counted in HOLD_ORDER
  reserve : Bool    -- counted in HOLD_RESERVE
  deriving DecidableEq, Repr

/-- A granted transaction that has not had its response. -/
structure MtxOut where
  master  : Nat
  target  : Nat
  id      : Nat
  ends    : Nat     -- TIMEBASE of the burst's last beat
  dropped : Bool    -- its master was reset (R445)
  deriving DecidableEq, Repr

/-- The bus matrix. `last` holds the last winner plus one, by 17 × target + priority, and the last aged winner at 16. -/
structure MtxSt where
  waiting : List MtxReq
  out     : List MtxOut
  last    : FMap Nat
  deriving DecidableEq, Repr

def MtxSt.reset : MtxSt := ⟨[], [], []⟩

/-- An entry of a CHK unit's queue (R458): `pair` 0 POLY, 1 INIT, 2 XOROUT, 3 RUNNING, 4 CHECK. -/
inductive ChkEntry where
  | cfg (start refout refin : Bool) (bits be width : Nat)
  | data (v : Nat)
  | pair (p lo hi : Nat)
  deriving DecidableEq, Repr

/-- A CHK unit: its queue, oldest first (entries past the fourth wait at the matrix), the staged LO words, the high word of
the present RESULT, and the master whose computation RUNNING holds: 0 the host, 1 + e engine e (R431, R461). -/
structure ChkUnit where
  queue  : List ChkEntry
  staged : FMap Nat
  hi     : Nat
  user   : Option Nat
  deriving DecidableEq, Repr

def ChkUnit.reset : ChkUnit := ⟨[], [], 0, none⟩

/-- The matrix and the CHK units. -/
structure ServiceSt where
  mtx : MtxSt
  chk : FMap ChkUnit
  deriving DecidableEq, Repr

def ServiceSt.reset : ServiceSt := ⟨MtxSt.reset, []⟩

end Sys2Proof.Machine
end

