-- ==== Sys2Proof/Machine/SysState.lean ====
section
/-! DEFINITION. The state of system timing and of STARCH behind the registers of R295 to R297, R481 and R482. -/

namespace Sys2Proof.Machine

/-- The reference of a trunk timing source (R274). -/
structure TrkRef where
  ref    : Option Nat
  bad    : Nat     -- consecutive bad periods
  good   : Nat     -- consecutive good periods
  failed : Bool    -- three bad periods in a row, not yet cleared
  aligned : Bool   -- the lane has trunk frame alignment
  deriving DecidableEq, Repr

/-- One entry of DEV.TIMING_SRC (R273, R274). -/
structure EntrySt where
  since     : Nat    -- TIMEBASE from which the entry has been unfailed
  failed    : Bool
  qualified : Bool
  deriving DecidableEq, Repr

/-- A slip buffer (R283): the last frame's boundary, none before the first frame of a delivery. -/
structure SlipSt where
  b      : Option Nat
  held   : List Nat      -- the words of the last frame, for a repeat
  deriving DecidableEq, Repr

def SlipSt.empty : SlipSt := ⟨none, []⟩

/-- A pleater (R287 to R289). -/
structure PleatSt where
  buf    : List Bool     -- oldest first, at most 640
  active : Bool          -- the fill has reached 320 since the start
  code   : Nat           -- the justification word of the current multiframe
  words  : List Nat      -- the trunk slot's 16 words of the current multiframe
  stamp  : Nat           -- TIMEBASE of the last word written
  deriving DecidableEq, Repr

def PleatSt.empty : PleatSt := ⟨[], false, 0, [], 0⟩

/-- A desynchronizer (R290 to R293). -/
structure DesyncSt where
  buf    : List Bool     -- oldest first, at most 640
  active : Bool
  start  : Bool          -- it became active in this multiframe: writing starts with the next
  bad    : Nat           -- consecutive wrong markers
  good   : Nat           -- consecutive right markers while inactive
  mf     : List Nat      -- the trunk slot's words of the multiframe so far
  last   : Nat           -- the last word read
  just   : Int           -- decided for the multiframe: bits beyond 160
  njo    : Bool
  hit    : Bool          -- a slip fell in the multiframe (R293)
  deriving DecidableEq, Repr

def DesyncSt.empty : DesyncSt := ⟨[], false, false, 0, 0, [], 0x155, 0, false, false⟩

/-- System timing. -/
structure SysSt where
  sysPhase  : Nat            -- SYS_PHASE (R270)
  nextFrame : Nat            -- TIMEBASE of the next system frame boundary
  nextMf    : Nat            -- TIMEBASE of the next system multiframe boundary
  mfNum     : Nat            -- MF_NUM (R362)
  mfStarted : Bool           -- a system multiframe boundary has passed since RESET
  trk       : FMap TrkRef    -- per trunk lane
  srcs      : FMap Nat       -- KIND + 4 × LANE in effect per entry of TIMING_SRC (R273)
  entries   : FMap EntrySt   -- per entry of TIMING_SRC
  sel       : Option Nat     -- the entry selected, none before the first selection
  buildOut  : Int            -- R277
  jumpDue   : Bool           -- a source was selected outside RUN and the next boundary may jump (R276)
  okRun     : Nat            -- consecutive phase samples with |e| ≤ 8
  farRun    : Nat            -- consecutive phase samples with |e| > 64
  lockedAt  : Option Nat     -- TIMEBASE of the entry to LOCKED
  hist      : List (Nat × Int)  -- oscillator offsets while LOCKED, newest first, of the last 17 s (R278)
  holdSince : Option Nat     -- TIMEBASE of the entry to HOLDOVER
  phi       : FMap (Option Nat) -- phase of a LOOP port's wander store (R280)
  loop      : Int            -- what the timing loop has kept, 1/65,536 of 1/256 ppm (R271)
  mean      : Int            -- the last mean oscillator offset taken while LOCKED (R278)
  rates     : FMap Int       -- what a TRIB port's loop has kept, 1/65,536 of 1/16 ppm (R291)
  slips     : FMap SlipSt    -- key: port, or 512 + trunk lane
  pleats    : FMap PleatSt   -- per pleat index
  desyncs   : FMap DesyncSt  -- per pleat index
  deriving DecidableEq, Repr

def TrkRef.reset : TrkRef := ⟨none, 0, 0, false, false⟩
def EntrySt.reset : EntrySt := ⟨0, true, false⟩

def SysSt.reset : SysSt :=
  { sysPhase := 0, nextFrame := 20480, nextMf := 327680, mfNum := 0, mfStarted := true, trk := [], srcs := [], entries := [], sel := none, buildOut := 0, jumpDue := false,
    okRun := 0, farRun := 0, lockedAt := none, hist := [], holdSince := none, phi := [], loop := 0, mean := 0, rates := [], slips := [], pleats := [],
    desyncs := [] }

/-- One die sensor (R474). -/
structure SensorSt where
  prev     : Option Int    -- the previous reading, 0.25 °C units
  excluded : Bool
  run      : Nat           -- consecutive plausible readings while excluded
  deriving DecidableEq, Repr

def SensorSt.reset : SensorSt := ⟨none, false, 0⟩

/-- A calibration run of CMD_CAL_RUN (R479). -/
structure CalRun where
  tag   : Nat
  scope : Nat
  port  : Nat
  deriving DecidableEq, Repr

/-- A value that moves to its target by one code per frame (R470). -/
structure Ramp where
  port   : Nat
  item   : Nat     -- 0 LOS_THRESH, 1 NOISE_FLOOR, 2 + i OFS_TRIM[i], 9 DC_TRIM
  target : Int
  deriving DecidableEq, Repr

/-- STARCH. -/
structure StarchSt where
  taps      : FMap Nat      -- the tap in effect per element; 0 unlisted
  target    : FMap Nat      -- the target of R475 per element
  suspect   : FMap Bool
  sat       : FMap Bool
  bins      : FMap Nat      -- (8 p + b) × 2048 + e, as 255 − tap; unlisted: 0xFF, unfilled (R472)
  calTap    : FMap Nat      -- programme × 2048 + element: 1 + the tap of the last calibration in that programme
  calAt     : FMap (Option Int)  -- the Tj of the last calibration in a programme
  sensors   : FMap SensorSt
  nextRead  : Nat           -- TIMEBASE of the next sensor reading
  stepTimes : List (Nat × Nat)  -- readings of the last second: TIMEBASE and tap steps (R481)
  run       : Option CalRun
  passes    : FMap (List PortItems)  -- retry passes of a deferred port not yet paired off (R470)
  expert    : FMap Bool     -- port × 16 + item written at the expert level since the port was deferred (R470)
  ramps     : List Ramp
  window    : FMap Nat      -- frames of the quiet window so far, per port (R470)
  touched   : FMap Bool     -- a correlator detection fell into the port's quiet window (R470)
  avsFar    : Nat           -- consecutive readings beyond 25 mV (R477)
  avsNear   : Nat
  deriving DecidableEq, Repr

def StarchSt.reset : StarchSt :=
  { taps := [], target := [], suspect := [], sat := [], bins := [], calTap := [], calAt := [], sensors := [], nextRead := 0,
    stepTimes := [], run := none, passes := [], expert := [], ramps := [], window := [], touched := [], avsFar := 0, avsNear := 0 }

end Sys2Proof.Machine
end

