-- ==== Sys2Proof/Machine/State.lean ====
section
/-! DEFINITION. The state of the PN9640 and of its command queue, the reasons a step can stop, and the state after reset. -/

namespace Sys2Proof.Machine

/-- The cases of misuse of R77: the device's behaviour after each is undefined. -/
inductive Misuse where
  | reservedWrite   -- nonzero writes to reserved fields or offsets (R11)
  | activePage      -- expert writes to the active connection page while a swap is pending
  | basketCredit    -- exceeding basket credits (R449)
  | portConfig      -- changing a port's mode, Fs, SF or D while the port is enabled
  | pinCapacity     -- PLACE pins that exceed capacity (R36)
  | engineStore     -- writing a running engine's instruction store
  | remapAccess     -- aperture access to a region being remapped (R371)
  | argRange        -- command arguments out of their documented range (R67)
  | contextWrite    -- writing a context of an UP port, except live fields (R46)
  | trunkRate       -- changing the trunk rate while the trunk is enabled (R324)
  | rawSpi          -- raw AFE SPI access without HELD (R105)
  | chkShare        -- a second master's use of a CHK unit without its RUNNING saved and restored (R461)
  deriving DecidableEq, Repr

/-- Why a step can stop with a fault. -/
inductive Fault where
  /-- Raised by a host write or a command that R77 lists as misuse, whose behaviour the spec leaves undefined. Safe: the model
  stops where the device would go on in an unknown way. -/
  | misuse (m : Misuse)
  deriving DecidableEq, Repr

/-- Why a step can be refused. -/
inductive Refusal where
  /-- Raised by exec for a command that has no meaning yet, under its mnemonic. Safe: the model stops. -/
  | notModelled (mnemonic : String)
  deriving DecidableEq, Repr

/-- The device: everything but the queue of commands. -/
structure Dev where
  timebase : Nat          -- TIMEBASE (R15)
  mode     : Mode         -- DEV.STATE.STATE (R26)
  calFrom  : Mode         -- the state a CMD_CAL_RUN returns to (R27)
  regs     : FMap Nat     -- register and context fields, by Field.key, XORed with their Reset value (R12)
  flash    : FMap Nat     -- values of fields loaded from DEVICE_CONFIG, same form (R12)
  free     : Nat          -- the count the open choices of Config are taken by (the model's own)
  host     : HostSt
  arch     : ArchSt
  line     : LineSt
  lint     : LintSt
  sys      : SysSt
  starch   : StarchSt
  lines    : PortsSt
  mangle   : MangleSt
  needle   : NeedleSt
  service  : ServiceSt
  hamper   : HamperSt
  pair     : PairSt
  deriving DecidableEq, Repr

/-- The device right after RESET_N is released (R12, R15, R74). -/
def Dev.reset : Dev :=
  { timebase := 0, mode := .reset, calFrom := .boot, regs := [], flash := [], free := 0, host := HostSt.reset, arch := ArchSt.reset,
    line := LineSt.reset, lint := LintSt.reset, sys := SysSt.reset,
    starch := StarchSt.reset, lines := PortsSt.reset, mangle := MangleSt.reset, needle := NeedleSt.reset, service := ServiceSt.reset,
    hamper := HamperSt.reset, pair := PairSt.reset }

/-- The device and the commands that wait, first in, first out. -/
structure State where
  pending : List Instr
  dev     : Dev
  deriving DecidableEq, Repr

/-- The machine right after reset: the device after RESET_N is released, and no command waiting. -/
def State.reset : State := { pending := [], dev := Dev.reset }

end Sys2Proof.Machine
end

