-- ==== Sys2Proof/Machine/Ops.lean ====
section
/-! DEFINITION. The named operations every command is built from: reading and writing register fields, the clock frame of
R15 around an effect, ring and message output, placement data of ports. -/

namespace Sys2Proof.Machine

/-! ### Registers -/

/-- The value of element `idx` of a field on instance `inst`. -/
def Dev.rd (d : Dev) (f : Field) (inst : Nat := 0) (idx : Nat := 0) : Nat :=
  FMap.get 0 d.regs (f.key inst idx) ^^^ f.resetAt idx

/-- The device with a field element set to the low `width` bits of a value. -/
def Dev.wr (d : Dev) (f : Field) (inst idx v : Nat) : Dev :=
  { d with regs := FMap.set 0 d.regs (f.key inst idx) ((v % 2 ^ f.width) ^^^ f.resetAt idx) }

/-- A counter field counted up by `n`, saturating. -/
def Dev.inc (d : Dev) (f : Field) (inst : Nat := 0) (idx : Nat := 0) (n : Nat := 1) : Dev :=
  d.wr f inst idx (satAdd f.width (d.rd f inst idx) n)

/-- Whether a one-bit field is 1. -/
def Dev.on (d : Dev) (f : Field) (inst : Nat := 0) (idx : Nat := 0) : Bool := d.rd f inst idx != 0

/-- A one-bit field set to a truth value. -/
def Dev.flag (d : Dev) (f : Field) (inst idx : Nat) (b : Bool) : Dev := d.wr f inst idx (if b then 1 else 0)

/-- A field as a two's complement number. -/
def Dev.rdS (d : Dev) (f : Field) (inst : Nat := 0) (idx : Nat := 0) : Int := signedOf f.width (d.rd f inst idx)

/-- A field element returned to the value of R12: its Reset value, or the one DEVICE_CONFIG gave it. -/
def Dev.restore (d : Dev) (f : Field) (inst idx : Nat) : Dev :=
  { d with regs := FMap.set 0 d.regs (f.key inst idx) (FMap.get 0 d.flash (f.key inst idx)) }

/-- Every field of a page instance returned to its Reset value (R12, R56). -/
def Dev.restoreAll (d : Dev) (fs : List Field) (inst : Nat) : Dev :=
  fs.foldl (fun d f => (List.range f.count).foldl (fun d i => d.restore f inst i) d) d

/-! ### Time -/

/-- TIMEBASE ticks of one frame (R15). -/
def frameTicks : Nat := 20480
/-- TIMEBASE ticks of one multiframe. -/
def mfTicks : Nat := 327680
/-- TIMEBASE ticks of `n` microseconds, rounded up. -/
def usTicks (n : Nat) : Nat := ceilDiv (n * 16384) 100
/-- TIMEBASE ticks of `n` milliseconds. -/
def msTicks (n : Nat) : Nat := n * 163840
/-- TIMEBASE ticks of `n` seconds. -/
def secTicks (n : Nat) : Nat := n * 163840000

/-- Whether `n` ticks have passed since a TIMEBASE value. -/
def Dev.passed (d : Dev) (since n : Nat) : Bool := decide (since + n ≤ d.timebase)

/-- Whether an instant that is awaited has come. -/
def Dev.reached (d : Dev) (at? : Option Nat) : Bool := match at? with | some t => decide (t ≤ d.timebase) | none => false

/-! ### Frames of an effect (R15, R26) -/

/-- An effect that leaves TIMEBASE and the device state as they were: no command, soft reset or state change alters
TIMEBASE (R15), and only the causes of R26 change the device state. -/
def stay (s : State) (f : Dev → Dev) : Host.Outcome State Fault Refusal :=
  .next { s with dev := { f s.dev with timebase := s.dev.timebase, mode := s.dev.mode } }

/-- An effect that may change the device state under R26 and leaves TIMEBASE as it was (R15). -/
def shift (s : State) (f : Dev → Dev) : Host.Outcome State Fault Refusal :=
  .next { s with dev := { f s.dev with timebase := s.dev.timebase } }

/-- The effect where the event can occur; where its condition does not hold the device does not produce it, and nothing
happens (log entry 2). -/
def whenDev (c : Dev → Bool) (f : Dev → Dev) (d : Dev) : Dev := if c d then f d else d

/-- The outcome where a write is no misuse; misuse stops the machine (R77). -/
def unlessMisuse (m : Option Misuse) (o : Host.Outcome State Fault Refusal) : Host.Outcome State Fault Refusal :=
  match m with
  | some k => .fault (.misuse k)
  | none => o

/-! ### Output -/

/-- Something sent to the outside. -/
def Dev.emit (d : Dev) (o : Output) : Dev := { d with host := { d.host with out := o :: d.host.out } }

/-- The bit number `b` of a word set. -/
def orBit (v b : Nat) : Nat := v ||| (1 <<< b)

/-- The mask words of the MSI-X table have their mask bit set after reset (PRESUMED from the PCI rules, log entry 7). -/
def msixReset (word : Nat) : Nat := if word % 4 = 3 then 1 else 0

/-- Word `word` of the MSI-X table. -/
def Dev.msixWord (d : Dev) (word : Nat) : Nat := FMap.get 0 d.host.msixTable word ^^^ msixReset word

/-- The MSI-X message of vector `v`: sent, or left pending while the vector is masked (R59). While PERST# holds the
endpoint in reset nothing is sent (R49). -/
def Dev.msixSend (d : Dev) (v : Nat) : Dev :=
  if d.host.perst then d
  else if (d.msixWord (4 * v + 3)).testBit 0 then
    { d with host := { d.host with msixPend := FMap.set false d.host.msixPend v true } }
  else d.emit (.msix v)

/-! ### The journal (R395) -/

/-- Whether this unit is the active unit of a pair (R381). -/
def Dev.pairActive (d : Dev) : Bool := d.on (HDR.ENABLE .pair) && d.host.identity.isSome && d.mode == .run

/-- A change journalled at the active unit of a pair: word 0, SEQ and the payload of R395. Above 4,096 unacknowledged entries
journalling stops, the overflow counts and a checkpoint is due (R396). -/
def Dev.jrnAdd (d : Dev) (kind : Nat) (payload : List Nat) : Dev :=
  if !d.pairActive || d.pair.jrnStop then d
  else
    let seq := (d.pair.jrnSeq + 1) % 2 ^ 32
    let alive := (d.pair.jrnAlive + 1) % 16
    let e : JrnOut := ⟨seq, [alive * 2 ^ 28 + kind * 65536 + (payload.length - 1), seq] ++ payload, none⟩
    let d1 := { d with pair := { d.pair with jrnSeq := seq, jrnAlive := alive, jrnOut := d.pair.jrnOut ++ [e] } }
    if 4096 < d1.pair.jrnOut.length then
      ({ d1 with pair := { d1.pair with jrnStop := true, jrnLost := true, jrnOut := [], ckptDue := true } }).inc PAIR.JRN_OVERFLOW
    else d1

/-! ### Rings (R451) -/

/-- The slots of a ring. -/
def Dev.ringSlots (d : Dev) (r : Nat) : Nat := 2 ^ d.rd HOSTQ.RING_SIZE_LOG2 0 r

/-- The credits a ring gives its producer (R451, R453). -/
def Dev.ringCredits (d : Dev) (r : Nat) : Nat :=
  if d.on HOSTQ.RING_ENABLE 0 r then
    d.ringSlots r - (d.rd HOSTQ.RING_PI 0 r + 65536 - d.rd HOSTQ.RING_CI 0 r) % 65536
  else 0

/-- BASE of a ring (R456). -/
def Dev.ringBase (d : Dev) (r : Nat) : Nat := d.rd HOSTQ.RING_BASE_HI 0 r * 2 ^ 32 + d.rd HOSTQ.RING_BASE_LO 0 r * 64

/-- An item written into the next slot of a ring, then the PI word behind the slots (R451). -/
def Dev.ringPut (d : Dev) (r : Nat) (words : List Nat) : Dev :=
  let pi := d.rd HOSTQ.RING_PI 0 r
  let pi' := (pi + 1) % 65536
  (((d.emit (.ringItem r (d.ringBase r + 64 * (pi % d.ringSlots r)) words)).wr HOSTQ.RING_PI 0 r pi').inc HOSTQ.RING_ITEMS 0 r).emit
    (.ringPi r (d.ringBase r + 64 * d.ringSlots r) (d.rd HOSTQ.RING_GEN 0 r * 2 ^ 24 + pi'))

/-- The header word of an item of `n` words (R61, R448). -/
def itemHeader (n type tag : Nat) : Nat := (n - 1) * 2 ^ 28 + type * 2 ^ 20 + tag % 4096

/-! ### Choices the spec leaves to SORT -/

/-- The next choice, and the device with the running count advanced. -/
def Dev.choose (d : Dev) : Nat × Dev := (Config.sortChoice d.free, { d with free := d.free + 1 })

/-- The element of a list that a choice names. -/
def pickFrom {α : Type} (xs : List α) (n : Nat) : Option α := xs[n % xs.length]?

/-! ### Ports, links and load -/

/-- The state of a port (R30). -/
def Dev.portMode (d : Dev) (n : Nat) : PortMode := FMap.get .disabled d.arch.ports n

/-- A port put into a state. -/
def Dev.setPort (d : Dev) (n : Nat) (m : PortMode) : Dev :=
  { d with arch := { d.arch with ports := FMap.set .disabled d.arch.ports n m } }

/-- Whether a port is enabled: not DISABLED. -/
def Dev.enabled (d : Dev) (n : Nat) : Bool := d.portMode n != .disabled

/-- Whether a port carries service: UP or DEGRADED. -/
def Dev.inService (d : Dev) (n : Nat) : Bool := d.portMode n == .up || d.portMode n == .degraded

/-- The enabled ports, in rising order. -/
def Dev.enabledPorts (d : Dev) : List Nat := d.arch.ports.map (fun e => e.1)

/-- What lies behind a port's registers. -/
def Dev.port (d : Dev) (n : Nat) : PortSt := FMap.get PortSt.reset d.lines.ports n

def Dev.setPortSt (d : Dev) (n : Nat) (x : PortSt) : Dev :=
  { d with lines := { d.lines with ports := FMap.set PortSt.reset d.lines.ports n x } }

def Dev.modPort (d : Dev) (n : Nat) (f : PortSt → PortSt) : Dev := d.setPortSt n (f (d.port n))

/-- The link of a port, its converter index, and its AFE master and chip select (R78). -/
def portLink (n : Nat) : Nat := n / 16
def portConv (n : Nat) : Nat := n % 16
def linkMaster (k : Nat) : Nat := k / 8
def linkCs (k : Nat) : Nat := k % 8

/-- The link page of a link: the lowest-numbered page of LANE_ID 0 that names it (R82). -/
def Dev.linkPage (d : Dev) (k : Nat) : Option Nat :=
  (List.range 48).find? (fun j => d.rd JLANE.LINK j == k && d.rd JLANE.LANE_ID j == 0)

/-- A link field; 0 while no page holds the link's fields (R82, R107). -/
def Dev.linkField (d : Dev) (k : Nat) (f : Field) : Nat :=
  match d.linkPage k with
  | some j => d.rd f j
  | none => 0

/-- The sample rate of a port in units of 4.096 MS/s (R79); a port whose link has no link page has none. -/
def Dev.portUnits (d : Dev) (n : Nat) : Nat :=
  match d.linkPage (portLink n) with
  | some j => 2 ^ d.rd JLANE.FS_SEL j
  | none => 0

/-- The sample rate of a port in kS/s. -/
def Dev.portKs (d : Dev) (n : Nat) : Nat := 4096 * d.portUnits n

/-- The total sample load in units of 4.096 MS/s (R31). -/
def Dev.loadUnits (d : Dev) : Nat := (d.enabledPorts.map d.portUnits).foldl (· + ·) 0

/-- The sample load ceiling of a programme in per cent of 16,384 units (R37). -/
def ceilingPct (prog : Nat) : Nat := match prog with | 0 => 50 | 1 => 80 | 2 => 100 | _ => 65

/-- Whether a load lies within a programme's ceiling (R31, R39). -/
def withinCeiling (units prog : Nat) : Bool := decide (units * 100 ≤ ceilingPct prog * 16384)

/-- The programme in effect (R37). -/
def Dev.prog (d : Dev) : Nat := d.rd DEV.PROG_ACTIVE

/-- The deadline margin in ticks (R18). -/
def Dev.margin (d : Dev) : Nat := if d.prog = 3 then 6554 else 3277

/-- The traceback depth of DARN (R37). -/
def Dev.traceback (d : Dev) : Nat := match d.prog with | 0 => 48 | 2 => 96 | _ => 64

/-- The ports placed on a lane (R13): the enabled ports whose PLACE names it. -/
def Dev.lanePorts (d : Dev) (l : Nat) : List Nat := d.enabledPorts.filter (fun n => d.rd PORT.LANE n == l)

/-- The load of a lane in kS/s (R44). -/
def Dev.laneLoad (d : Dev) (l : Nat) : Nat := ((d.lanePorts l).map d.portKs).foldl (· + ·) 0

/-- The ports placed on an engine (R428): the enabled ports whose PLACE names it. -/
def Dev.enginePorts (d : Dev) (e : Nat) : List Nat := d.enabledPorts.filter (fun n => d.rd PORT.ENGINE n == e)

/-- An engine. -/
def Dev.engine (d : Dev) (e : Nat) : EngineSt := FMap.get EngineSt.reset d.needle.engines e

/-- The engine of a port once a planned move of its handlers is made (R428). -/
def Dev.engineAfter (d : Dev) (n : Nat) : Nat := (FMap.get none d.arch.engPlan n).getD (d.rd PORT.ENGINE n)

/-- The ports that an engine has once the planned moves are made. -/
def Dev.portsAfter (d : Dev) (e : Nat) : List Nat := d.enabledPorts.filter (fun n => d.engineAfter n == e)

/-- Whether an event goes to the engine that PLACE names: it concerns port `n` and is no timer's (R422). -/
def HookEv.ofPort (ev : HookEv) (n : Nat) : Bool := ev.port == some n && decide (ev.k < 5)

/-- Whether an engine still has events of a port, queued or in hand. -/
def EngineSt.serves (x : EngineSt) (n : Nat) : Bool :=
  x.queue.any (fun ev => ev.ofPort n) || (match x.running with | some iv => iv.ev.ofPort n | none => false) ||
    (match x.waiting with | some w => w.1.ofPort n | none => false)

/-- Whether the engine that a port's handlers were moved from still finishes the events it queued before the boundary: it is not STOPPED
and has some (R427, R428; log entry 58). -/
def Dev.engFinishing (d : Dev) (n : Nat) : Bool :=
  match FMap.get none d.arch.engFrom n with
  | some x => d.rd PORT.ENGINE n != x && d.rd (HDR.STATE .ndl) x != 0 && (d.engine x).serves n
  | none => false

/-! ### Port-frames in their lane -/

/-- The port-frames of a direction of a port (0 receive, 1 transmit) in their lane, oldest first. -/
def Dev.lane (d : Dev) (n dir : Nat) : List PortFrame := FMap.get [] d.arch.frames (2 * n + dir)

def Dev.setLane (d : Dev) (n dir : Nat) (fs : List PortFrame) : Dev :=
  { d with arch := { d.arch with frames := FMap.set [] d.arch.frames (2 * n + dir) fs } }

/-- One port-frame changed, or taken out of the lane. -/
def Dev.modFrame (d : Dev) (n dir num : Nat) (f : PortFrame → PortFrame) : Dev :=
  d.setLane n dir ((d.lane n dir).map (fun g => if g.num = num then f g else g))
def Dev.dropFrame (d : Dev) (n dir num : Nat) : Dev := d.setLane n dir ((d.lane n dir).filter (fun g => g.num != num))

end Sys2Proof.Machine
end

