-- ==== Sys2Proof/Machine/Flags.lean ====
section
/-! DEFINITION. The status flags: event bits and levels (R54, R55), the leaves and their vectors (R57 to R60), EVT items
(R448, R452), fault sources (R484), completion items (R62, R452). -/

namespace Sys2Proof.Machine

/-! ### Leaves -/

/-- EVT_STATUS AND EVT_ENABLE of a page. -/
def Dev.evtAnd (d : Dev) (p : Page) (inst : Nat) : Nat :=
  d.rd (HDR.EVT_STATUS p) inst &&& d.rd (HDR.EVT_ENABLE p) inst

/-- The value of leaf `l` (R57). -/
def Dev.leaf (d : Dev) (l : Nat) : Bool :=
  if l < 512 then d.evtAnd .port l % 65536 != 0
  else if l < 1024 then d.evtAnd .port (l - 512) / 65536 != 0
  else if l < 1120 then d.evtAnd .ndl (l - 1024) != 0
  else if l < 1168 then d.evtAnd .jlane (l - 1120) % 65536 != 0
  else if l < 1184 then
    ((d.rd CHK.UNIT_EVT_STATUS &&& d.rd CHK.UNIT_EVT_ENABLE) / 2 ^ (2 * (l - 1168))) % 4 != 0
  else if l < 1216 then
    match d.linkPage (l - 1184) with
    | some j => d.evtAnd .jlane j / 65536 != 0
    | none => false
  else if l < 1224 then d.evtAnd .trunk (l - 1216) != 0
  else if l < 1240 then d.on DEV.OVERRUN 0 (l - 1224) || d.on DEV.LANE_RESET 0 (l - 1224)
  else if l < 1252 then (d.rd HOSTQ.MBX_EVT_STATUS &&& d.rd HOSTQ.MBX_EVT_ENABLE).testBit (l - 1240)
  else if l = 1252 then d.evtAnd .dev 0 % 256 != 0
  else if l = 1253 then d.evtAnd .lint0 0 != 0
  else if l = 1254 then d.evtAnd .lint1 0 != 0
  else if l = 1255 then d.evtAnd .lint2 0 != 0
  else if l = 1256 then d.evtAnd .starch 0 != 0
  else if l = 1257 then d.evtAnd .pair 0 != 0
  else if l = 1258 then d.evtAnd .hostq 0 != 0
  else if l = 1259 then d.evtAnd .chk 0 != 0
  else if l = 1260 then d.evtAnd .mtx 0 != 0
  else if l = 1261 then d.evtAnd .bist 0 != 0
  else if l = 1262 then d.evtAnd .hamper 0 % 65536 != 0
  else if l = 1263 then (d.evtAnd .afec 0).testBit 0
  else if l = 1264 then d.evtAnd .mangle 0 != 0
  else if l < 1269 then (d.evtAnd .hamper 0 / 2 ^ (16 + 4 * (l - 1265))) % 8 != 0
  else if l < 1273 then (d.evtAnd .afec 0).testBit (1 + (l - 1269))
  else if l < 1280 then (d.evtAnd .dev 0).testBit (8 + (l - 1273))
  else false

/-- The leaf that a page's event bit feeds (R57, R82, R108, R379). -/
def Dev.leafOf (d : Dev) (p : Page) (inst bit : Nat) : Option Nat :=
  match p with
  | .port => some (if bit < 16 then inst else 512 + inst)
  | .ndl => some (1024 + inst)
  | .jlane =>
    if bit < 16 then some (1120 + inst)
    else if d.linkPage (d.rd JLANE.LINK inst) == some inst then some (1184 + d.rd JLANE.LINK inst)
    else none
  | .trunk => some (1216 + inst)
  | .dev => if bit < 8 then some 1252 else if bit < 15 then some (1265 + bit) else none
  | .lint0 => some 1253
  | .lint1 => some 1254
  | .lint2 => some 1255
  | .starch => some 1256
  | .pair => some 1257
  | .hostq => some 1258
  | .chk => some 1259
  | .mtx => some 1260
  | .bist => some 1261
  | .hamper => if bit < 16 then some 1262 else some (1265 + (bit - 16) / 4)
  | .afec => if bit = 0 then some 1263 else if bit < 5 then some (1268 + bit) else none
  | .mangle => some 1264
  | .trib | .stn => none

/-- EVT_STATUS of the page behind a leaf (R448). -/
def Dev.leafStatus (d : Dev) (l : Nat) : Nat :=
  if l < 512 then d.rd (HDR.EVT_STATUS .port) l
  else if l < 1024 then d.rd (HDR.EVT_STATUS .port) (l - 512)
  else if l < 1120 then d.rd (HDR.EVT_STATUS .ndl) (l - 1024)
  else if l < 1168 then d.rd (HDR.EVT_STATUS .jlane) (l - 1120)
  else if l < 1184 then d.rd (HDR.EVT_STATUS .chk)
  else if l < 1216 then
    match d.linkPage (l - 1184) with
    | some j => d.rd (HDR.EVT_STATUS .jlane) j
    | none => 0
  else if l < 1224 then d.rd (HDR.EVT_STATUS .trunk) (l - 1216)
  else if l < 1240 then d.rd (HDR.EVT_STATUS .dev)
  else if l < 1252 then d.rd (HDR.EVT_STATUS .hostq)
  else if l = 1252 then d.rd (HDR.EVT_STATUS .dev)
  else if l = 1253 then d.rd (HDR.EVT_STATUS .lint0)
  else if l = 1254 then d.rd (HDR.EVT_STATUS .lint1)
  else if l = 1255 then d.rd (HDR.EVT_STATUS .lint2)
  else if l = 1256 then d.rd (HDR.EVT_STATUS .starch)
  else if l = 1257 then d.rd (HDR.EVT_STATUS .pair)
  else if l = 1258 then d.rd (HDR.EVT_STATUS .hostq)
  else if l = 1259 then d.rd (HDR.EVT_STATUS .chk)
  else if l = 1260 then d.rd (HDR.EVT_STATUS .mtx)
  else if l = 1261 then d.rd (HDR.EVT_STATUS .bist)
  else if l = 1262 then d.rd (HDR.EVT_STATUS .hamper)
  else if l = 1263 then d.rd (HDR.EVT_STATUS .afec)
  else if l = 1264 then d.rd (HDR.EVT_STATUS .mangle)
  else if l < 1269 then d.rd (HDR.EVT_STATUS .hamper)
  else if l < 1273 then d.rd (HDR.EVT_STATUS .afec)
  else d.rd (HDR.EVT_STATUS .dev)

/-- EVT_SUMMARY word `w` (R57, R75). -/
def Dev.evtSummary (d : Dev) (w : Nat) : Nat :=
  (List.range 32).foldl (fun v b => if d.leaf (32 * w + b) then orBit v b else v) 0

/-- The bits of EVT_TOP (R75). -/
def Dev.evtTop (d : Dev) : Nat :=
  (List.range 40).foldl (fun v w => if d.evtSummary w != 0 then orBit v w else v) 0

/-- The level IRQ_N is driven to: low while PIN_EN is 1 and any leaf is 1 (R60). -/
def Dev.irqLow (d : Dev) : Bool := d.on DEV.PIN_EN && (List.range 1280).any d.leaf

/-- The OR of the leaves mapped to a vector (R59). -/
def Dev.vecOr (d : Dev) (v : Nat) : Bool :=
  (List.range 1280).any (fun l => d.leaf l && d.rd DEV.LEAF_VEC 0 l == v)

/-! ### Rising leaves -/

/-- The message of a vector whose OR has changed from 0 to 1 since `d0` (R59). -/
def Dev.vecRise (d0 : Dev) (v : Nat) (d : Dev) : Dev :=
  if 2 ≤ v && !d0.vecOr v && d.vecOr v then d.msixSend v else d

/-- EVT_STATUS with a bit set, without the consequences at the leaf. -/
def Dev.setEvt (d : Dev) (p : Page) (inst bit : Nat) : Dev :=
  d.wr (HDR.EVT_STATUS p) inst 0 (orBit (d.rd (HDR.EVT_STATUS p) inst) bit)

/-- The EVT item of a leaf that has changed from 0 to 1 since `d0`: written, or dropped for want of credit, which raises
ITEM_DROP and may itself fall due at HOSTQ's leaf (R448, R452, R453). -/
def Dev.evtItem : Nat → Dev → Nat → Dev → Dev
  | 0, _, _, d => d
  | fuel + 1, d0, l, d =>
    if d0.leaf l || !d.leaf l || !d.on HOSTQ.RING_ENABLE 0 1 then d
    else
      let seq := d.host.evtSeq
      let d1 := { d with host := { d.host with evtSeq := (seq + 1) % 4096 } }
      if 0 < d1.ringCredits 1 then
        (d1.ringPut 1 [itemHeader 5 0xFE seq, l, d1.leafStatus l, d1.timebase % 2 ^ 32, d1.timebase / 2 ^ 32]).msixSend 1
      else
        let d2 := d1.inc HOSTQ.RING_DROPPED 0 1
        let d3 := d2.setEvt .hostq 0 1
        Dev.evtItem fuel d2 1258 (d2.vecRise (d2.rd DEV.LEAF_VEC 0 1258) d3)

/-- The consequences of leaves that may have changed since `d0`: one message per vector whose OR rises, one EVT item per
leaf that rises. -/
def Dev.leavesRise (d0 : Dev) (ls : List Nat) (d : Dev) : Dev :=
  let vs := (ls.map (fun l => d.rd DEV.LEAF_VEC 0 l)).eraseDups
  let d1 := vs.foldl (fun e v => Dev.vecRise d0 v e) d
  ls.foldl (fun e l => Dev.evtItem 3 d0 l e) d1

/-- The consequences of registers loaded at once, as at a takeover: the leaves that have risen since `d0`, and those that now feed another
vector (R59, R448). -/
def Dev.allRise (d0 d : Dev) : Dev :=
  Dev.leavesRise d0
    ((List.range 1280).filter (fun l => d.leaf l && (!d0.leaf l || d0.rd DEV.LEAF_VEC 0 l != d.rd DEV.LEAF_VEC 0 l))) d

/-- An event: its EVT_STATUS bit is set (R55), with the consequences at the leaf it feeds. -/
def Dev.raise (d : Dev) (p : Page) (inst bit : Nat) : Dev :=
  let d1 := d.setEvt p inst bit
  match d.leafOf p inst bit with
  | some l => Dev.leavesRise d [l] d1
  | none => d1

/-- A condition of a page's LEVEL word becomes present: its rise is the event (R55). -/
def Dev.condSet (d : Dev) (p : Page) (inst bit : Nat) : Dev :=
  if (d.rd (HDR.LEVEL p) inst).testBit bit then d
  else (d.wr (HDR.LEVEL p) inst 0 (orBit (d.rd (HDR.LEVEL p) inst) bit)).raise p inst bit

/-- A condition of a page's LEVEL word ends. -/
def Dev.condClear (d : Dev) (p : Page) (inst bit : Nat) : Dev :=
  if (d.rd (HDR.LEVEL p) inst).testBit bit then
    d.wr (HDR.LEVEL p) inst 0 (d.rd (HDR.LEVEL p) inst - 2 ^ bit)
  else d

/-- A condition made present or absent. -/
def Dev.cond (d : Dev) (p : Page) (inst bit : Nat) (b : Bool) : Dev :=
  if b then d.condSet p inst bit else d.condClear p inst bit

/-! ### Fault sources (R484, R486) -/

/-- What LINT holds of a source. -/
def Dev.src (d : Dev) (n : Nat) : SrcSt := FMap.get SrcSt.idle d.lint.src n

/-- A source set. -/
def Dev.setSrc (d : Dev) (n : Nat) (x : SrcSt) : Dev :=
  { d with lint := { d.lint with src := FMap.set SrcSt.idle d.lint.src n x } }

/-- Whether a source drives 10. -/
def SrcSt.drives (x : SrcSt) : Bool := x.cond || x.held

/-- LINT[2].EVT_STATUS bit 0, a condition while any source drives 10 (R504). -/
def Dev.presentCond (d : Dev) : Dev := d.cond .lint2 0 0 (d.lint.src.any (fun e => e.2.drives))

/-- A source reports an occurrence: it drives 10 until LINT has recorded it (R484). -/
def Dev.fault (d : Dev) (n : Nat) (detail : Nat := 0) : Dev :=
  (d.setSrc n { d.src n with held := true, detail := if (d.src n).held then (d.src n).detail else detail }).presentCond

/-- A source reports a condition: it drives 10 while the condition is present (R484). -/
def Dev.faultCond (d : Dev) (n : Nat) (b : Bool) : Dev := (d.setSrc n { d.src n with cond := b }).presentCond

/-- The source numbers of R486: 16 × index + local source. -/
def srcDev (x : Nat) : Nat := x
def srcStarch (x : Nat) : Nat := 32 + x
def srcPair (x : Nat) : Nat := 48 + x
def srcMtx : Nat := 96
def srcBist : Nat := 112
def srcHamper : Nat := 128
def srcAfec : Nat := 144
def srcMangle : Nat := 160
def srcLane (l x : Nat) : Nat := 16 * (24 + l) + x
def srcJlane (j x : Nat) : Nat := 16 * (40 + j) + x
def srcNdl (e x : Nat) : Nat := 16 * (88 + e) + x
def srcPort (n : Nat) : Nat := 16 * (184 + n)

/-! ### Completion items (R62, R63, R452) -/

/-- The completion statuses of R62. -/
inductive Status where
  | ok | wrongState | busy
  deriving DecidableEq, Repr

def Status.code : Status → Nat
  | .ok => 0 | .wrongState => 1 | .busy => 2

/-- DEV.CMD_INFLIGHT: the commands taken and not yet completed, with those whose completion waits for credit (R63, R452). -/
def Dev.countInflight (d : Dev) : Dev :=
  (d.wr DEV.CMD_INFLIGHT 0 0 (d.host.inflight.length + d.host.cplWait.length)).wr HOSTQ.CPL_WAIT 0 0 d.host.cplWait.length

/-- The waiting completions written while the CPL ring has credits, oldest first (R452); vector 0 follows each PI word. -/
def Dev.cplDrain : List (List Nat) → Dev → Dev
  | [], d => { d with host := { d.host with cplWait := [] } }
  | w :: r, d =>
    if 0 < d.ringCredits 0 then Dev.cplDrain r ((d.ringPut 0 w).msixSend 0)
    else { d with host := { d.host with cplWait := w :: r } }

/-- The words of a completion item (R62). -/
def cplWords (code tag : Nat) (st : Status) (aborted : Bool) (tb : Nat) (res : List Nat) : List Nat :=
  [itemHeader (4 + res.length) (code ||| 128) tag, (if aborted then 4 else 0) + st.code, tb % 2 ^ 32, tb / 2 ^ 32] ++ res

/-- The counts and events a completion brings: DEV.CMD_REJECT and CMD_REJECTED with WRONG_STATE, DEV.CMD_BUSY with BUSY
(R65, R76). -/
def Dev.countStatus (d : Dev) : Status → Dev
  | .ok => d
  | .wrongState => (d.inc DEV.CMD_REJECT).raise .dev 0 0
  | .busy => d.inc DEV.CMD_BUSY

/-- A completion of a command that has left `inflight`: its item joins the queue and is written as credits allow. -/
def Dev.cplPush (d : Dev) (c : Inflight) (st : Status) (aborted : Bool) (res : List Nat) : Dev :=
  let d1 := d.countStatus st
  if c.silent then d1.countInflight
  else
    (Dev.cplDrain (d1.host.cplWait ++ [cplWords c.code c.tag st aborted d1.timebase res]) d1).countInflight

/-- The command in flight with a tag. -/
def Dev.findCmd (d : Dev) (tag : Nat) : Option Inflight := d.host.inflight.find? (fun c => c.tag == tag)

/-- Whether a command code is listed in R64. -/
def knownCode (code : Nat) : Bool := 1 ≤ code && code ≤ 14

/-- Whether an earlier command in flight makes a command wait (R63): any earlier command for CMD_STATE, an earlier CMD_STATE
for all, an earlier start or stop of the same port for CMD_PORT_START and CMD_PORT_STOP, a BIST run for CMD_CAL_RUN. A command whose
completion waits for CPL credit counts as completed (DESIGN CHOICE, log entry 130); CMD_STATE(RESET) waits for a CMD_CAL_RUN as any
CMD_STATE does (DEDUCED, log entry 131). -/
def Dev.waits (d : Dev) (c : Inflight) : Bool :=
  let earlier := d.host.inflight.takeWhile (fun x => x.tag != c.tag)
  earlier.any (fun x => x.code == 13) || (c.code == 13 && !earlier.isEmpty) ||
  ((c.code == 2 || c.code == 3) && earlier.any (fun x => (x.code == 2 || x.code == 3) && x.args[0]? == c.args[0]?)) ||
  (c.code == 5 && d.lint.run.isSome)

/-- The commands whose completions with OK are journalled as commands; a page swap has an entry kind of its own (R395). -/
def journalled (code : Nat) : Bool := code == 2 || code == 3 || code == 4 || code == 11

/-- A command item as taken (R61). -/
def cmdItem (c : Inflight) : List Nat := itemHeader (1 + c.args.length) c.code c.tag :: c.args

/-- A command completed: it leaves the commands in flight, and its completion is written or waits. Commands of unknown type
that now start complete with WRONG_STATE at once (R65). -/
def Dev.complete (d : Dev) (tag : Nat) (st : Status) (res : List Nat := []) (aborted : Bool := false) : Dev :=
  match d.findCmd tag with
  | none => d
  | some c =>
    let d1 := { d with host := { d.host with inflight := d.host.inflight.filter (fun x => x.tag != tag) } }
    let d2 := (if st = .ok ∧ journalled c.code then d1.jrnAdd 3 (cmdItem c ++ [d1.timebase % 2 ^ 32, d1.timebase / 2 ^ 32]) else d1).cplPush c st
      aborted res
    let unknown := d2.host.inflight.filter (fun x => !knownCode x.code && !d2.waits x)
    let d3 := { d2 with host := { d2.host with inflight := d2.host.inflight.filter (fun x => !unknown.any (fun y => y.tag == x.tag)) } }
    (unknown.foldl (fun e x => e.cplPush x .wrongState false []) d3).countInflight

/-- A command marked started. -/
def Dev.start (d : Dev) (tag : Nat) : Dev :=
  { d with host := { d.host with
      inflight := d.host.inflight.map (fun c => if c.tag = tag then { c with started := true } else c) } }

/-- The states in which a command may start (R64, R27). -/
def legalIn (code : Nat) (m : Mode) : Bool :=
  match code with
  | 1 => m == .ready || m == .run
  | 2 => m == .run
  | 3 => m == .run
  | 4 => m == .ready || m == .run
  | 5 => m == .ready || m == .maint
  | 6 => m == .maint
  | 7 => m == .run
  | 8 => m == .run || m == .standby
  | 9 => m == .ready || m == .run || m == .standby || m == .maint
  | 10 => m == .run
  | 11 => m == .ready || m == .run
  | 12 => m == .ready || m == .maint
  | 14 => m == .ready || m == .run
  | _ => false

/-- The start of a command of a code (R63, R65): the event needs a command in flight with that tag and code, not started and
not waiting. In a state where it is not legal it completes with WRONG_STATE and has no side effect; else it starts. -/
def Dev.startCmd (d : Dev) (code tag : Nat) (run : Inflight → Dev → Dev) : Dev :=
  match d.findCmd tag with
  | none => d
  | some c =>
    if c.code != code || c.started || d.waits c then d
    else if legalIn code d.mode then run c (d.start tag)
    else d.complete tag .wrongState

/-- The command that would start now in a state where it is legal. -/
def Dev.ready (d : Dev) (code tag : Nat) : Option Inflight :=
  match d.findCmd tag with
  | none => none
  | some c => if c.code != code || c.started || d.waits c || !legalIn code d.mode then none else some c

/-- Misuse of a command's arguments (R67), found when it starts. -/
def argMisuse (s : State) (code tag : Nat) (bad : List Nat → Bool) : Option Misuse :=
  match s.dev.ready code tag with
  | some c => if bad c.args then some .argRange else none
  | none => none

/-- When the device enters SAFE, RESET or STANDBY, commands that have started and are no longer legal complete with
WRONG_STATE and ABORTED; CMD_STATE(RESET) is the exception (R66). -/
def Dev.abortIllegal (d : Dev) : Dev :=
  let bad := d.host.inflight.filter (fun c => c.started && !(c.code == 13 && c.args.getD 0 0 == 0) && !legalIn c.code d.mode)
  bad.foldl (fun e c => e.complete c.tag .wrongState [] true) d

end Sys2Proof.Machine
end

