-- ==== Sys2Proof/Machine/Operands.lean ====
section
/-! DEFINITION. The operand forms of host accesses: the regions of BAR0 (R53), the field elements of a 32-bit word, range
handling (R52), access types (R8, R10), guards of the owning rules and reserved bits (R11). -/

namespace Sys2Proof.Machine

/-! ### Regions of BAR0 (R53) -/

/-- What a 32-bit word of BAR0 belongs to. -/
inductive Region where
  | page (p : Page) (inst off : Nat)
  | msixTable (word : Nat)
  | msixPba (word : Nat)
  | cmd (word : Nat)
  | cmem (page entry : Nat) (high : Bool)
  | ndlData (e i : Nat)
  | ndlWin (e i : Nat)
  | reserved
  deriving DecidableEq, Repr

/-- The region of a BAR0 byte offset (R53, R439). -/
def region (a : Nat) : Region :=
  let p := a / 4096
  let o := a % 4096 / 4 * 4
  if p = 0 then .page .dev 0 o
  else if p = 1 then .page .lint0 0 o
  else if p = 2 then .page .lint1 0 o
  else if p = 3 then .page .lint2 0 o
  else if p = 4 then .page .starch 0 o
  else if p = 5 then .page .pair 0 o
  else if p = 6 then .page .hostq 0 o
  else if p = 7 then .page .chk 0 o
  else if p = 8 then .page .mtx 0 o
  else if p = 9 then .page .bist 0 o
  else if p = 10 then .page .hamper 0 o
  else if p = 11 then .page .afec 0 o
  else if p = 12 then .page .mangle 0 o
  else if p = 13 then
    if o < 2048 then .msixTable (o / 4) else if o < 2064 then .msixPba ((o - 2048) / 4) else .reserved
  else if 16 ≤ p ∧ p < 24 then .page .trunk (p - 16) o
  else if 32 ≤ p ∧ p < 80 then .page .jlane (p - 32) o
  else if 256 ≤ p ∧ p < 768 then .page .port (p - 256) o
  else if 0x400000 ≤ a ∧ a < 0x580000 then
    let e := (a - 0x400000) / 16384
    let w := (a - 0x400000) % 16384 / 4 * 4
    if w < 4096 then .page .ndl e w
    else if w < 0x3000 then .ndlData e ((w - 4096) / 4)
    else .ndlWin e ((w - 0x3000) / 4)
  else if 0x600000 ≤ a ∧ a < 0x604000 then .cmd ((a - 0x600000) / 4)
  else if 0x800000 ≤ a ∧ a < 0x840000 then .cmem 0 ((a - 0x800000) / 8) ((a - 0x800000) / 4 % 2 == 1)
  else if 0x840000 ≤ a ∧ a < 0x880000 then .cmem 1 ((a - 0x840000) / 8) ((a - 0x840000) / 4 % 2 == 1)
  else if 0x1000000 ≤ a ∧ a < 0x1100000 then .page .trib ((a - 0x1000000) / 64) ((a - 0x1000000) % 64 / 4 * 4)
  else if 0x1100000 ≤ a ∧ a < 0x1180000 then .page .stn ((a - 0x1100000) / 32) ((a - 0x1100000) % 32 / 4 * 4)
  else .reserved

/-- The fields of a page or context that the chapters list, without the header. -/
def ownFields : Page → List Field
  | .dev => fieldsDev | .lint0 => fieldsLint0 | .lint1 => fieldsLint1 | .lint2 => fieldsLint2 | .starch => fieldsStarch
  | .pair => fieldsPair | .hostq => fieldsHostq | .chk => fieldsChk | .mtx => fieldsMtx | .bist => fieldsBist
  | .hamper => fieldsHamper | .afec => fieldsAfec | .mangle => fieldsMangle | .trunk => fieldsTrunk | .jlane => fieldsJlane
  | .port => fieldsPort | .ndl => fieldsNdl | .trib => fieldsTrib | .stn => fieldsStn

/-- Whether the page begins with the header of R54. -/
def hasHeader : Page → Bool
  | .trib | .stn => false
  | _ => true

/-- Every field of a page or context. -/
def fieldsOf (p : Page) : List Field := (if hasHeader p then fieldsHdr p else []) ++ ownFields p

/-- The elements of a field that lie in the 32-bit word at byte offset `off`. -/
def Field.inWord (f : Field) (off : Nat) : List Nat :=
  if f.stride = 0 then (if 8 * off ≤ f.bit ∧ f.bit < 8 * off + 32 then [0] else [])
  else
    let i0 := (8 * off - f.bit) / f.stride
    ((List.range 33).map (fun k => i0 + k)).filter
      (fun i => i < f.count ∧ 8 * off ≤ f.bit + f.stride * i ∧ f.bit + f.stride * i < 8 * off + 32)

/-- The position of an element within its 32-bit word. -/
def Field.lsb (f : Field) (i : Nat) : Nat := (f.bit + f.stride * i) % 32

/-- The part of a written word that belongs to an element. -/
def Field.part (f : Field) (i v : Nat) : Nat := v / 2 ^ f.lsb i % 2 ^ f.width

/-- The event bits a page has (R76, R106, R107, R108, R135, R168, R189, R244, R269, R330, R331, R353, R379, R411, R439, R446,
R456, R464, R481, R504, R506); the others are reserved. -/
def evtMask (p : Page) (inst : Nat) : Nat :=
  match p with
  | .dev => 0x7F1F | .lint0 => 0xFF | .lint1 => 1 | .lint2 => 1 | .starch => 0x1FF | .pair => 0x7FF | .hostq => 0x3F | .chk => 0
  | .mtx => 1 | .bist => 7 | .hamper => 0x7777000F | .afec => 0x1F | .mangle => 0xFF | .trunk => 0xFFF | .jlane => 0xF000F
  | .port => 0x7FFFFFFF | .ndl => if inst = 0 then 0x7F else 0x3F | .trib => 0 | .stn => 0

/-- The bits of a header word that are not reserved (R54). PLACE on pages without placement takes any value. -/
def hdrMask (p : Page) (inst off : Nat) : Option Nat :=
  if !hasHeader p || 0x40 ≤ off then none
  else if off = 0 then some 0xFFFFFFFF
  else if off = 4 then some 0xFFFF
  else if off = 8 then some 7
  else if off = 12 then
    some (match p with | .dev => 0xF0F | .port => 7 | .ndl => 3 | .hamper => 3 | _ => 0xFFFFFFFF)
  else if off = 16 ∨ off = 20 ∨ off = 24 ∨ off = 0x24 then some (evtMask p inst)
  else if off = 0x1C then some 0xE000FFFF
  else if off = 0x20 then some 0xFFFFFFFF
  else if off = 0x28 then match p with | .port => none | _ => some 0xFFFFFFFF
  else some 0

/-- The bits of a word that belong to a field. -/
def wordMask (p : Page) (inst off : Nat) : Nat :=
  match hdrMask p inst off with
  | some m => m
  | none =>
    (ownFields p).foldl
      (fun m f => (f.inWord off).foldl (fun m i => m ||| ((2 ^ f.width - 1) * 2 ^ f.lsb i)) m) 0

/-! ### Guards -/

/-- Whether an instance's RWE fields are at the expert level (R8, R46): contexts are governed by DEV. -/
def Dev.expert (d : Dev) (p : Page) (inst : Nat) : Bool :=
  match p with
  | .trib | .stn => d.on (HDR.EXPERT .dev)
  | _ => d.on (HDR.EXPERT p) inst

/-- The port of a tributary or station context. -/
def Dev.ctxPort (d : Dev) (p : Page) (inst : Nat) : Nat :=
  match p with
  | .trib => d.rd TRIB.PORT_N inst
  | _ => inst / 32

/-- How a host write to a field is taken. -/
inductive Take where
  | yes | ignore | misuse (m : Misuse)
  deriving DecidableEq, Repr

/-- Whether a page is the link page of the link it names (R82). -/
def Dev.isLinkPage (d : Dev) (j : Nat) : Bool := d.linkPage (d.rd JLANE.LINK j) == some j

/-- The guard of a field's owning rule on a write of a value that differs from the one held. -/
def Dev.guard (d : Dev) (f : Field) (inst idx : Nat) : Take :=
  match f.guard with
  | .none => .yes
  | .readyOnly => if d.mode = .ready then .yes else .ignore
  | .portMode => if d.enabled inst then .misuse .portConfig else .yes
  | .portOff => if d.enabled inst then .ignore else .yes
  | .laneOff => if d.on (HDR.ENABLE .jlane) inst then .ignore else .yes
  | .linkField => if d.isLinkPage inst then .yes else .ignore
  | .linkFieldLaneOff => if d.isLinkPage inst && !d.on (HDR.ENABLE .jlane) inst then .yes else .ignore
  | .linkFieldFs =>
    if !d.isLinkPage inst then .ignore
    else if d.enabledPorts.any (fun n => portLink n == d.rd JLANE.LINK inst) then .misuse .portConfig
    else .yes
  | .ctxIdle => if d.inService (d.ctxPort f.page inst) then .misuse .contextWrite else .yes
  | .trunkOff => if d.on (HDR.ENABLE .trunk) inst then .misuse .trunkRate else .yes
  | .ringOff => if d.on HOSTQ.RING_ENABLE 0 idx then .ignore else .yes
  | .engineStopped => if d.rd (HDR.STATE .ndl) inst = 0 then .yes else .ignore
  | .entryWrite => .yes
  | .ownRow => .ignore

/-! ### Range handling (R52) -/

/-- E of R81 for a link page: multiblocks per extended multiblock. -/
def embE (m : Nat) : Nat := if m = 12 then 9 else 3

/-- The value a write leaves in an RW or RWE field, and whether it was outside the field's range. -/
def Dev.ranged (d : Dev) (f : Field) (inst idx v : Nat) : Nat × Bool :=
  match f.range with
  | .any => (v, false)
  | .clamp lo hi => if v < lo then (lo, true) else if hi < v then (hi, true) else (v, false)
  | .codes cs => if cs.contains v then (v, false) else (d.rd f inst idx, true)
  | .rbd =>
    let hi := 32 * embE (d.rd JLANE.M inst) - 1
    if hi < v then (hi, true) else (v, false)

/-- DEV.BUS_ERR.RANGE or SUBWORD set with the offset, and the BUS_ERR event (R50, R52, R76). -/
def Dev.busErr (d : Dev) (f : Field) (addr : Nat) : Dev :=
  ((d.wr f 0 0 1).wr DEV.BUS_ADDR 0 0 addr).raise .dev 0 3

/-! ### The read of one word -/

/-- A 32-bit word of a page or context as its fields hold it; write-only and self-clearing fields read 0 (R10). -/
def Dev.readFields (d : Dev) (p : Page) (inst off : Nat) : Nat :=
  (fieldsOf p).foldl
    (fun v f => match f.access with
      | .wo | .sc => v
      | _ => (f.inWord off).foldl (fun v i => v + d.rd f inst i * 2 ^ f.lsb i) v) 0

/-! ### The write of one word -/

/-- Whether a write to one element is misuse: a value the guard calls so that still differs from the one held after R52 has settled a value
out of range. -/
def Dev.elemMisuse (d : Dev) (f : Field) (inst idx v : Nat) : Option Misuse :=
  match f.access with
  | .rw | .rwe =>
    if (d.ranged f inst idx (f.part idx v)).1 = d.rd f inst idx then none
    else
      match d.guard f inst idx with
      | .misuse m => if f.access = .rwe ∧ !d.expert f.page inst then none else some m
      | _ => none
  | _ => none

/-- One element takes its part of a written word, by its access type (R8, R10). Write-only and self-clearing fields act
through the operations of their own rules. -/
def Dev.writeElem (d : Dev) (addr : Nat) (f : Field) (inst v idx : Nat) : Dev :=
  let x := f.part idx v
  let put : Dev :=
    match d.guard f inst idx with
    | .yes =>
      let r := d.ranged f inst idx x
      let d1 := d.wr f inst idx r.1
      if r.2 then d1.busErr DEV.RANGE addr else d1
    | _ => d
  match f.access with
  | .rw => put
  | .rwe => if d.expert f.page inst then put else d
  | .w1c => d.wr f inst idx (d.rd f inst idx - (d.rd f inst idx &&& x))
  | .ro | .wo | .sc => d

/-- The first misuse of a word write: a reserved bit written 1 (R11), or a field's guard. -/
def Dev.wordMisuse (d : Dev) (p : Page) (inst off v : Nat) : Option Misuse :=
  if v &&& wordMask p inst off != v then some .reservedWrite
  else
    (fieldsOf p).findSome? (fun f => (f.inWord off).findSome? (fun i => d.elemMisuse f inst i v))

/-- The RW and RWE fields of a word as they stand. -/
def Dev.rwWord (d : Dev) (p : Page) (inst off : Nat) : Nat :=
  (fieldsOf p).foldl
    (fun v f => if f.access = .rw ∨ f.access = .rwe then (f.inWord off).foldl (fun v i => v + d.rd f inst i * 2 ^ f.lsb i) v else v) 0

/-- Whether an element takes a host write: an RW field, or an RWE field at the expert level (R8), unless its owning rule ignores the
write. -/
def Dev.takes (d : Dev) (f : Field) (inst idx : Nat) : Bool :=
  (f.access == .rw || (f.access == .rwe && d.expert f.page inst)) && d.guard f inst idx == .yes

/-- Every field element of the word takes its part; a write that some RW or RWE field takes is journalled as the word it leaves
(R395). A write that every field ignores has no side effect (R8). -/
def Dev.writeFields (d : Dev) (addr : Nat) (p : Page) (inst off v : Nat) : Dev :=
  let d1 := (fieldsOf p).foldl (fun d f => (f.inWord off).foldl (fun d i => d.writeElem addr f inst v i) d) d
  if (fieldsOf p).any (fun f => (f.inWord off).any (fun i => d.takes f inst i)) then d1.jrnAdd 1 [addr, d1.rwWord p inst off] else d1

/-- Before BOOT has finished, pages other than DEV ignore writes (R48). -/
def Dev.writable (d : Dev) (p : Page) : Bool :=
  match p with
  | .dev => true
  | _ => d.mode != .reset && d.mode != .boot

end Sys2Proof.Machine
end

