-- ==== Sys2Proof/Machine/Starch.lean ====
section
/-! DEFINITION. STARCH: bins, targets and taps of the matched-delay elements, the checks of calibration results, the die
sensors (R465 to R480). -/

namespace Sys2Proof.Machine

/-! ### Bins and targets -/

/-- The tap of element `e` in bin `b` of programme `p`; none while unfilled (R472). -/
def Dev.binTap (d : Dev) (p b e : Nat) : Option Nat :=
  match FMap.get 0 d.starch.bins ((8 * p + b) * 2048 + e) with
  | 0 => none
  | k + 1 => some (254 - k)

/-- A bin entry filled. -/
def Dev.setBin (d : Dev) (p b e tap : Nat) : Dev :=
  { d with starch := { d.starch with bins := FMap.set 0 d.starch.bins ((8 * p + b) * 2048 + e) (255 - tap) } }

/-- Whether a bin is valid, as BIN_VALID shows (R472, R481). -/
def Dev.binValid (d : Dev) (p b : Nat) : Bool := (d.rd STARCH.BIN_VALID).testBit (8 * p + b)

/-- BIN_VALID of a bin recomputed: valid when none of its 2,048 entries is unfilled (R472). -/
def Dev.checkBin (d : Dev) (p b : Nat) : Dev :=
  let ok := (List.range 2048).all (fun e => (d.binTap p b e).isSome)
  let v := d.rd STARCH.BIN_VALID
  d.wr STARCH.BIN_VALID 0 0 (if ok then orBit v (8 * p + b) else v - (v &&& 2 ^ (8 * p + b)))

/-- The centre of a bin in 0.25 °C units (R472). -/
def binCentre (b : Nat) : Int := 80 * (b : Int) - 160

/-- A temperature limited to −40 to 100 °C, 0.25 °C units (R475). -/
def limitT (t : Int) : Int := if t < -160 then -160 else if 400 < t then 400 else t

/-- Ceiling division by a positive number. -/
def ceilDivInt (a b : Int) : Int := -((-a) / b)

/-- The nearest valid bin with centre at or below a temperature, and at or above it (R475). -/
def Dev.binLo (d : Dev) (p : Nat) (t : Int) : Option Nat :=
  ((List.range 8).reverse).find? (fun b => d.binValid p b && decide (binCentre b ≤ t))
def Dev.binHi (d : Dev) (p : Nat) (t : Int) : Option Nat :=
  (List.range 8).find? (fun b => d.binValid p b && decide (t ≤ binCentre b))

/-- The target of an element by interpolation of its bins, and whether it was extrapolated (R475). -/
def Dev.binTarget (d : Dev) (p e : Nat) (t : Int) : Option (Nat × Bool) :=
  match d.binLo p t, d.binHi p t with
  | some lo, some hi =>
    let a := (d.binTap p lo e).getD 0
    let b := (d.binTap p hi e).getD 0
    if lo = hi then some (a, false)
    else
      some (((a : Int) + ceilDivInt (((b : Int) - (a : Int)) * (t - binCentre lo)) (binCentre hi - binCentre lo)).toNat, false)
  | some lo, none => some (min 63 ((d.binTap p lo e).getD 0 + 2), true)
  | none, some hi => some (min 63 ((d.binTap p hi e).getD 0 + 2), true)
  | none, none => none

/-- The tap guard of DELICATE: ceil(1.25 × tap), limited to 63 (R472). -/
def guardTap (p t : Nat) : Nat := if p = 3 then min 63 (ceilDiv (5 * t) 4) else t

/-- The calibrated tap that bounds the target: from the last calibration in this programme at a Tj within 5 °C (R475). -/
def Dev.calFloor (d : Dev) (p e : Nat) (t : Int) : Nat :=
  match FMap.get none d.starch.calAt p with
  | some tj => if (tj - t).natAbs ≤ 20 then guardTap p (FMap.get 0 d.starch.calTap (p * 2048 + e) - 1) else 0
  | none => 0

/-- The tap in effect of an element. -/
def Dev.tap (d : Dev) (e : Nat) : Nat := FMap.get 0 d.starch.taps e

/-- The target tap of an element in a programme at a temperature (R475); where no bin of the set is valid the element keeps
its tap. -/
def Dev.targetIn (d : Dev) (p e : Nat) (t : Int) : Nat :=
  match d.binTarget p e (limitT t) with
  | some (x, _) => max x (d.calFloor p e (limitT t))
  | none => d.tap e

/-! ### Sensors (R474) -/

/-- A sensor's state. -/
def Dev.sensor (d : Dev) (k : Nat) : SensorSt := FMap.get SensorSt.reset d.starch.sensors k

/-- A sensor counts as valid once it has given a reading and is not excluded. -/
def SensorSt.valid (x : SensorSt) : Bool := x.prev.isSome && !x.excluded

/-- The present readings of the valid sensors. -/
def Dev.validReadings (d : Dev) : List Int :=
  (List.range 16).filterMap (fun k => if (d.sensor k).valid then (d.sensor k).prev else none)

/-- The temperature of a region: its sensor's reading, the highest valid one while it is excluded, 105 °C with fewer than 4
valid sensors (R474). -/
def Dev.regionT (d : Dev) (r : Nat) : Int :=
  let v := d.validReadings
  if v.length < 4 then 420
  else if (d.sensor r).valid then ((d.sensor r).prev).getD 0
  else v.foldl max (-1000)

/-- Twice the median of a list of readings. -/
def median2 (xs : List Int) : Int :=
  let s := xs.mergeSort (fun a b => decide (a ≤ b))
  s.getD ((s.length - 1) / 2) 0 + s.getD (s.length / 2) 0

/-- Whether a reading is implausible (R474). -/
def implausible (prev : Option Int) (others : List Int) (r : Int) : Bool :=
  decide (r < -220) || decide (600 < r) ||
  (!others.isEmpty && decide (160 < (2 * r - median2 others).natAbs)) ||
  (match prev with | some p => decide (16 < (r - p).natAbs) | none => false)

/-- A sensor after a reading, and whether it was excluded by it. -/
def SensorSt.read (x : SensorSt) (others : List Int) (r : Int) : SensorSt × Bool :=
  if implausible x.prev others r then ({ prev := some r, excluded := true, run := 0 }, !x.excluded)
  else if x.excluded then
    if 8 ≤ x.run + 1 then ({ prev := some r, excluded := false, run := 0 }, false)
    else ({ x with prev := some r, run := x.run + 1 }, false)
  else ({ x with prev := some r }, false)

/-! ### Taps -/

/-- One tap toward a target. -/
def stepTo (tap target : Nat) : Nat := if tap < target then tap + 1 else if target < tap then tap - 1 else tap

/-- The target an element tracks: the programme's own; while a programme change walks the taps, the larger of the old
and the new programme's (R476). -/
def Dev.trackTarget (d : Dev) (e : Nat) : Nat :=
  let t := d.regionT (e / 128)
  match d.arch.prog with
  | some c =>
    match c.phase with
    | .walk _ | .voltage _ | .apply => max (d.targetIn c.old e t) (d.targetIn c.target e t)
    | .undoWalk _ => d.targetIn c.old e t
    | .held => d.targetIn d.prog e t
  | none => d.targetIn d.prog e t

/-- Every element moved one tap toward the target it tracks. -/
def Dev.stepTaps (d : Dev) : Dev :=
  { d with starch := { d.starch with
      taps := (List.range 2048).foldl (fun m e => FMap.set 0 m e (stepTo (d.tap e) (d.trackTarget e))) d.starch.taps
      target := (List.range 2048).foldl (fun m e => FMap.set 0 m e (d.trackTarget e)) d.starch.target } }

/-- Whether every element stands at the target it tracks. -/
def Dev.tapsThere (d : Dev) : Bool := (List.range 2048).all (fun e => d.tap e == d.trackTarget e)

/-- The elements that are off the target they track. -/
def Dev.tapsOff (d : Dev) : Nat := ((List.range 2048).filter (fun e => d.tap e != d.trackTarget e)).length

/-! ### Lane capacity (R32) -/

/-- A lane's share of the programme ceiling in kS/s. -/
def laneShare (prog : Nat) : Nat :=
  match prog with | 0 => 2097152 | 1 => 3355443 | 2 => 4194304 | _ => 2726298

/-- DEV.LANE_CAP of every lane: the smaller of its share and its measured throughput; a change of more than 5 % since the last
re-placement makes SORT re-place (R32, R33). -/
def Dev.updateCaps (d : Dev) : Dev :=
  (List.range 16).foldl
    (fun d l =>
      let c := min (laneShare d.prog) (FMap.get 0 d.arch.laneCap l)
      let seen := FMap.get 0 d.arch.capSeen l
      let d1 := d.wr DEV.LANE_CAP 0 l c
      if seen * 5 < (if c < seen then seen - c else c - seen) * 100 then
        { d1 with arch := { d1.arch with replace := true, capSeen := FMap.set 0 d1.arch.capSeen l c } }
      else d1) d

/-- The throughput that STARCH measured on each lane (R476). -/
def Dev.setTput (d : Dev) (tput : List Nat) : Dev :=
  ({ d with arch := { d.arch with
      laneCap := (List.range 16).foldl (fun m l => FMap.set 0 m l (tput.getD l 0)) d.arch.laneCap } }).updateCaps

/-! ### Programme advice (R38) -/

/-- The advised programme: the temperature advice, else the overrun advice, else the programme in effect. -/
def Dev.adviceNow (d : Dev) : Nat := if d.arch.tempHot then 3 else d.arch.advice.getD d.prog

/-- PROG_ADVICE brought up to date; each change sets DEV.EVT_STATUS bit 8. -/
def Dev.refreshAdvice (d : Dev) : Dev :=
  if d.rd DEV.PROG_ADVICE = d.adviceNow then d else (d.wr DEV.PROG_ADVICE 0 0 d.adviceNow).raise .dev 0 8

/-! ### Sensor readings -/

/-- The reading of one sensor taken into the registers and faults. -/
def Dev.readSensor (others : List Int) (d : Dev) (k : Nat) (r : Int) : Dev :=
  let x := d.sensor k
  let (y, bad) := x.read others r
  let d1 := { d with starch := { d.starch with sensors := FMap.set SensorSt.reset d.starch.sensors k y } }
  let d2 := (d1.wr STARCH.SENSOR_READING 0 k (codeOf 10 r)).flag STARCH.SENSOR_V 0 k y.valid
  let d3 := if bad then ((d2.inc STARCH.SENSOR_BAD).raise .starch 0 3).fault (srcStarch 2) else d2
  let crossed := y.valid && match x.prev with | some p => decide (380 < p) != decide (380 < r) | none => false
  if crossed then d3.raise .dev 0 9 else d3

/-- The 16 readings of one moment: each sensor is judged against the valid readings of the others. -/
def Dev.readSensors (d : Dev) (rs : List Int) : Dev :=
  let was := fun k => (d.sensor k).valid || (d.sensor k).prev.isNone
  let now := (List.range 16).filterMap (fun k => if was k then some (k, rs.getD k 0) else none)
  let d1 := (List.range 16).foldl
    (fun e k => Dev.readSensor ((now.filter (fun x => x.1 != k)).map Prod.snd) e k (rs.getD k 0)) d
  let v := d1.validReadings
  let few := decide (v.length < 4)
  let mask := (List.range 16).foldl (fun m k => if (d1.sensor k).valid then orBit m k else m) 0
  let d2 := (d1.wr STARCH.SENSOR_VALID 0 0 mask).wr STARCH.TJ_MAX 0 0
    (codeOf 10 (match v with | [] => 0 | x :: r => r.foldl max x))
  let d3 := (d2.faultCond (srcStarch 3) few).cond .starch 0 8 few
  { d3 with arch := { d3.arch with tempHot := v.any (fun t => decide (380 < t)) } }.refreshAdvice

/-- WALK_STEPS: the tap steps that tracking made in the last second (R481). -/
def Dev.countSteps (d : Dev) (n : Nat) : Dev :=
  let ts := ((d.timebase, n) :: d.starch.stepTimes).filter (fun x => decide (d.timebase < x.1 + secTicks 1))
  ({ d with starch := { d.starch with stepTimes := ts } }).wr STARCH.WALK_STEPS 0 0
    (min 65535 ((ts.map Prod.snd).foldl (· + ·) 0))

/-- Whether any element's target was extrapolated (R475). -/
def Dev.anyExtrap (d : Dev) : Bool :=
  (List.range 16).any (fun r =>
    match d.binLo d.prog (limitT (d.regionT r)), d.binHi d.prog (limitT (d.regionT r)) with
    | some _, none => true
    | none, some _ => true
    | _, _ => false)

/-- Whether a programme change walks the taps (R40, R41). -/
def Dev.walking (d : Dev) : Bool :=
  match d.arch.prog with
  | some c => match c.phase with | .walk _ | .undoWalk _ => true | _ => false
  | none => false

/-- R474 to R476: the sensors are read, each element moves one tap toward its target, lane throughput is measured. While a programme
change walks the taps, the walk's step of the frame is the one tap. -/
def Dev.sensorReading (d : Dev) (rs : List Int) (tput : List Nat) : Dev :=
  let d1 := { d with starch := { d.starch with nextRead := d.starch.nextRead + msTicks 16 } }
  let d2 := d1.readSensors rs
  let d3 := d2.cond .starch 0 4 d2.anyExtrap
  let d4 := if d3.walking then d3.countSteps 0 else (d3.countSteps d3.tapsOff).stepTaps
  d4.setTput tput

/-! ### Calibration results (R466 to R468) -/

/-- The calibrated tap of a smallest tap, and whether the element saturates (R466). -/
def calTapOf (margin small : Nat) : Nat × Bool :=
  if 63 < small + margin then (63, true) else (small + margin, false)

/-- The outcome of a repeated measurement: the pair that agreed, or the last pair. -/
def repeatPair {α : Type} (agree : α → α → Bool) : Nat → List α → Option (Bool × α × α)
  | 0, _ => none
  | fuel + 1, a :: b :: r =>
    if agree a b then some (true, a, b)
    else
      match repeatPair agree fuel r with
      | some x => some x
      | none => some (false, a, b)
  | _ + 1, _ => none

/-- What the check of a calibration makes of an element (R466 to R468): a measured tap is taken, `sat` when it saturates; the old value is
kept and the element suspect; with no old value a guarded guess is taken and the element is suspect. -/
inductive ElemCal
  | unmeasured
  | taken (tap : Nat) (sat : Bool)
  | kept
  | guessed (tap : Nat)
  deriving DecidableEq, Repr

/-- The delay result of one element (R466 to R468). `old` says whether the element has an old value. Under PLAUSIBLE a result outside its
window is discarded whether there is an old value or not: without one the element stays as it stands, which is the model's choice (DESIGN
CHOICE, log entry 132). -/
def elemResult (plausible : Bool) (margin : Nat) (old : Bool) (ms : List Nat) : ElemCal :=
  if plausible then
    match ms with
    | [] => .unmeasured
    | m :: _ =>
      let (t, s) := calTapOf margin m
      if 4 ≤ t ∧ t ≤ 60 then .taken t s else .kept
  else
    match repeatPair (fun a b => decide (a ≤ b + 1 ∧ b ≤ a + 1)) 3 ms with
    | none => .unmeasured
    | some (true, a, b) => .taken (calTapOf margin (max a b)).1 (calTapOf margin (max a b)).2
    | some (false, a, b) => if old then .kept else .guessed (min 63 ((calTapOf margin (max a b)).1 + 2))

/-- Two codes agree within 2 (R467). -/
def near2 (a b : Int) : Bool := decide ((a - b).natAbs ≤ 2)

/-- Whether two passes of a port agree (R467). -/
def portAgree (a b : PortItems) : Bool :=
  near2 a.floor b.floor && near2 a.noise b.noise && near2 a.dc b.dc &&
  (List.range 7).all (fun i => near2 (a.ofs.getD i 0) (b.ofs.getD i 0))

/-- The mean of two codes, rounded toward zero (R467). -/
def meanZero (a b : Int) : Int := Int.tdiv (a + b) 2

/-- The mean of two passes. -/
def portMean (a b : PortItems) : PortItems :=
  ⟨meanZero a.floor b.floor, meanZero a.noise b.noise,
   (List.range 7).map (fun i => meanZero (a.ofs.getD i 0) (b.ofs.getD i 0)), meanZero a.dc b.dc⟩

/-- The items of R468 outside their windows, one bit each. -/
def outside (x : PortItems) : Nat :=
  (if x.floor < -360 ∨ -120 < x.floor then 1 else 0) + (if x.noise < 16 ∨ 56 < x.noise then 2 else 0) +
  (if x.ofs.all (fun o => decide (-32 ≤ o ∧ o ≤ 32)) then 0 else 4) + (if x.dc < -64 ∨ 64 < x.dc then 8 else 0)

/-- A port's items taken: bit 0 floor, 1 noise floor, 2 slicer offset, 3 DC trim of `take`. -/
def Dev.takeItems (d : Dev) (n take : Nat) (x : PortItems) : Dev :=
  let d1 := if take.testBit 0 then d.wr PORT.LOS_THRESH n 0 (codeOf 10 (x.floor + 24)) else d
  let d2 := if take.testBit 1 then d1.wr PORT.NOISE_FLOOR n 0 (codeOf 9 x.noise) else d1
  let d3 := if take.testBit 2 then
      (List.range 7).foldl (fun e i => e.wr PORT.OFS_TRIM n i (codeOf 10 (x.ofs.getD i 0))) d2 else d2
  let d4 := if take.testBit 3 then d3.wr PORT.DC_TRIM n 0 (codeOf 10 x.dc) else d3
  if take = 0 then d4 else (d4.wr PORT.PORT_CAL_TB n 0 d4.timebase).wr PORT.NEVER_CAL n 0 0

/-- DEFERRED_PORTS and the CAL_DEFERRED condition (R470, R481). -/
def Dev.countDeferred (d : Dev) : Dev :=
  let k := ((List.range 512).filter (fun n => d.on PORT.CAL_DEFERRED n)).length
  (d.wr STARCH.DEFERRED_PORTS 0 0 k).cond .starch 0 2 (decide (0 < k))

/-- A port flagged CAL_DEFERRED (R470). -/
def Dev.defer (d : Dev) (n : Nat) : Dev :=
  ({ d with starch := { d.starch with
      expert := d.starch.expert.filter (fun e => e.1 / 16 != n), window := FMap.set 0 d.starch.window n 0
      passes := FMap.set [] d.starch.passes n [] } }).wr PORT.CAL_DEFERRED n 0 1

/-- Every CAL_DEFERRED flag cleared at takeover; values loaded from a checkpoint count as calibrated (R471). -/
def Dev.takeCal (d : Dev) (loaded : Bool) : Dev :=
  let d1 := (List.range 512).foldl
    (fun d n => let e := d.wr PORT.CAL_DEFERRED n 0 0
      if loaded then e.wr PORT.NEVER_CAL n 0 0 else e) d
  ({ d1 with starch := { d1.starch with window := [], passes := [], ramps := [] } }).countDeferred

/-- A port no longer deferred: the search for quiet windows and ramps end. -/
def Dev.undefer (d : Dev) (n : Nat) : Dev :=
  ({ d with starch := { d.starch with
      window := FMap.set 0 d.starch.window n 0
      passes := FMap.set [] d.starch.passes n []
      ramps := d.starch.ramps.filter (fun r => r.port != n) } }).wr PORT.CAL_DEFERRED n 0 0

/-- ITEM_SUSPECT of the measured items set or cleared (R468). -/
def Dev.setSuspect (d : Dev) (n items bad : Nat) : Dev :=
  let v := d.rd PORT.ITEM_SUSPECT n
  d.wr PORT.ITEM_SUSPECT n 0 ((v - (v &&& items)) ||| bad)

/-- The result of a port's passes under the check in force; `items` are the items measured (R467, R468). A calibration that covers a
deferred port and does not defer it again ends the flag (R470). -/
def Dev.portResult (d : Dev) (items n : Nat) (ps : List PortItems) : Dev :=
  if d.on STARCH.CAL_MODE then
    match ps with
    | [] => d
    | x :: _ =>
      let bad := outside x &&& items
      let d1 := (((d.undefer n).takeItems n (items - bad) x)).setSuspect n items bad
      if bad = 0 then d1 else d1.raise .starch 0 1
  else
    match repeatPair portAgree 3 ps with
    | some (true, a, b) => ((d.undefer n).takeItems n items (portMean a b)).setSuspect n items 0
    | _ => d.defer n

/-- The measurements of an element. -/
def calElemOf (c : CalData) (e : Nat) : List Nat :=
  match c.elems.find? (fun x => x.1 == e) with
  | some x => x.2
  | none => c.elemDflt

/-- The passes of a port. -/
def calPortOf (c : CalData) (n : Nat) : List PortItems :=
  match c.ports.find? (fun x => x.1 == n) with
  | some x => x.2
  | none => []

/-- The bin that a delay calibration refreshes: the nearest centre, the warmer of two equally near, if Tj lies within 10 °C;
whatever Tj is when the programme's set has no valid bin (R473). -/
def Dev.refreshBin (d : Dev) (p : Nat) (tj : Int) : Option Nat :=
  let b := (List.range 8).foldl
    (fun best b => if (binCentre b - tj).natAbs ≤ (binCentre best - tj).natAbs then b else best) 0
  if (binCentre b - tj).natAbs ≤ 40 || !(List.range 8).any (fun b => d.binValid p b) then some b else none

/-- A measured tap of an element entered into the refreshed bin of the programme's set; NORMAL and DELICATE enter both sets, the DELICATE
one with its guard (R472, R473). -/
def Dev.fillElem (d : Dev) (p b e t : Nat) : Dev :=
  if p = 1 ∨ p = 3 then (d.setBin 1 b e t).setBin 3 b e (guardTap 3 t) else d.setBin p b e t

/-- An element stands at a calibrated tap, which its programme guards in DELICATE (R465, R472). -/
def Dev.takeTap (d : Dev) (bin : Option Nat) (e t : Nat) (sat sus : Bool) : Dev :=
  let p := d.prog
  let d1 := { d with starch := { d.starch with
      taps := FMap.set 0 d.starch.taps e (guardTap p t), calTap := FMap.set 0 d.starch.calTap (p * 2048 + e) (t + 1),
      sat := FMap.set false d.starch.sat e sat, suspect := FMap.set false d.starch.suspect e sus } }
  match bin with
  | some b => d1.fillElem p b e t
  | none => d1

/-- The old value of an element in the delay set of the programme in effect: its tap in the bin to be refreshed while that bin is valid; the
tap it stands at where no bin is refreshed (R467, R473). -/
def Dev.oldTap (d : Dev) (bin : Option Nat) (e : Nat) : Option Nat :=
  match bin with
  | some b => if d.binValid d.prog b then d.binTap d.prog b e else none
  | none => some (d.tap e)

/-- An element keeps its old value, as it stands in its set with any guard, and is suspect; the bins keep their entries (R467, R468). -/
def Dev.keepTap (d : Dev) (bin : Option Nat) (e : Nat) : Dev :=
  { d with starch := { d.starch with
      taps := FMap.set 0 d.starch.taps e ((d.oldTap bin e).getD (d.tap e))
      calTap := FMap.set 0 d.starch.calTap (d.prog * 2048 + e) 0
      suspect := FMap.set false d.starch.suspect e true } }

/-- One element calibrated (R466 to R468), into the delay set of the programme in effect. -/
def Dev.calElem (c : CalData) (bin : Option Nat) (d : Dev) (e : Nat) : Dev :=
  match elemResult (d.on STARCH.CAL_MODE) (d.rd STARCH.CAL_MARGIN) (d.oldTap bin e).isSome (calElemOf c e) with
  | .unmeasured => d
  | .taken t sat =>
    let d1 := d.takeTap bin e t sat false
    if sat then (d1.fault (srcStarch 1)).raise .starch 0 7 else d1
  | .kept => (d.keepTap bin e).raise .starch 0 1
  | .guessed t => (d.takeTap bin e t false true).raise .starch 0 1

/-- SUSPECT_ELEMS (R481). -/
def Dev.countSuspect (d : Dev) : Dev :=
  d.wr STARCH.SUSPECT_ELEMS 0 0 ((d.starch.suspect.filter (fun e => e.2)).length)

/-- A journal entry (R73): TYPE, the sequence number, the payload, filled up with zeros to 64 bytes, the CRC-32 over the words before it.
The order of the words is the model's (log entry 113). -/
def journalEntry (type seq : Nat) (payload : List Nat) : List Nat :=
  let ws := [type, seq] ++ payload ++ List.replicate (13 - payload.length) 0
  ws ++ [crc32Words ws]

/-- The payload of an entry: a refreshed bin with its 2,048 tap bytes, CAL_COUNT or EPOCH (R73, R384, R473, R480). -/
def Dev.journalPayload (d : Dev) (type value : Nat) : List Nat :=
  if type = 1 then
    value :: (List.range 512).map (fun w =>
      (List.range 4).foldl (fun v i => v + (255 - FMap.get 0 d.starch.bins (value * 2048 + 4 * w + i)) * 2 ^ (8 * i)) 0)
  else [value]

/-- Where an entry of `n` bytes goes in the journal's 16 sectors of 64 KiB: behind the last one, or at the start of the next sector, which
holds the oldest entries and is erased (R69, R73). -/
def journalPlace (at_ n : Nat) : Nat × Option Nat :=
  if at_ % 65536 ≠ 0 ∧ at_ % 65536 + n ≤ 65536 then (at_, none)
  else let s := ceilDiv at_ 65536 % 16; (s * 65536, some s)

/-- A journal entry of a type appended to the flash (R73): 1 bin refresh, 2 CAL_COUNT, 3 EPOCH. -/
def Dev.journalFlash (d : Dev) (type value : Nat) : Dev :=
  let seq := (FMap.get 0 d.host.journalSeq type + 1) % 2 ^ 32
  let ws := journalEntry type seq (d.journalPayload type value)
  let (at_, erase) := journalPlace d.host.journalAt (4 * ws.length)
  let d1 := { d with host := { d.host with
      journalSeq := FMap.set 0 d.host.journalSeq type seq
      journalAt := at_ + 4 * ws.length
      journalJob := d.host.journalJob ++ [(type, value)] } }
  (match erase with | some s => d1.emit (.journalErase s) | none => d1).emit (.journalFlash at_ ws)

/-- The delay part of a calibration: every element, then the bin that R473 names; with REFRESH it is written to the flash journal
(R473, R479): one entry for each refreshed bin. -/
def Dev.calDelays (d : Dev) (c : CalData) (refresh : Bool) : Dev :=
  let bin := d.refreshBin d.prog c.tj
  let d1 := (List.range 2048).foldl (Dev.calElem c bin) d
  let d2 := ({ d1 with starch := { d1.starch with calAt := FMap.set none d1.starch.calAt d1.prog (some c.tj) } }).countSuspect
  match bin with
  | some b =>
    let qs := if d2.prog = 1 ∨ d2.prog = 3 then [1, 3] else [d2.prog]
    let d3 := qs.foldl (fun (d : Dev) q => d.checkBin q b) d2
    if refresh then qs.foldl (fun (d : Dev) q => d.journalFlash 1 (8 * q + b)) d3 else d3
  | none => d2

/-- The end of every calibration run: CAL_COUNT, its journal entry, CAL_LAST and CAL_DONE (R480). -/
def Dev.calEnd (d : Dev) (tj : Int) : Dev :=
  let n := (d.rd STARCH.CAL_COUNT + 1) % 2 ^ 32
  ((((((d.wr STARCH.CAL_COUNT 0 0 n).journalFlash 2 n).wr STARCH.CAL_LAST_TB_LO 0 0 d.timebase).wr STARCH.CAL_LAST_TB_HI 0 0
    (d.timebase / 2 ^ 32)).wr STARCH.CAL_LAST_WALL 0 0 (d.rd DEV.WALLCLOCK)).wr STARCH.CAL_LAST_TJ 0 0 (codeOf 10 tj)).raise .starch 0 0

end Sys2Proof.Machine
end

