-- ==== Sys2Proof/Machine/Arch.lean ====
section
/-! DEFINITION. Lanes, deadlines, SORT and programmes: what a missed deadline does, port moves, placement pins, lane resets,
programme changes, sensor and AVSBus readings (R13 to R46, R474 to R477). -/

namespace Sys2Proof.Machine

/-! ### Defects of a port page -/

/-- Whether a port-level condition of EVT_STATUS bit `b` is present (R269): 0 LOS to 9 TIM. -/
def Dev.defect (d : Dev) (n b : Nat) : Bool := (d.rd (HDR.LEVEL .port) n).testBit b

/-! ### Windows of 8,000 frames -/

/-- The TIMEBASE values of a list that lie in the last 8,000 frames. -/
def Dev.inWindow (d : Dev) (ts : List Nat) : List Nat := ts.filter (fun t => decide (d.timebase < t + 8000 * frameTicks))

/-- The misses of a lane that count toward R24. -/
def Dev.laneMisses (d : Dev) (l : Nat) : List Nat := d.inWindow (FMap.get [] d.arch.laneMiss l)

/-- The misses of a port in the last 8,000 frames (R30). -/
def Dev.portMisses (d : Dev) (n : Nat) : List Nat := d.inWindow (FMap.get [] d.arch.portMiss n)

/-! ### Reaction shadows (R493) -/

/-- Whether a shadow lists the block of a source (R493). -/
def Shadow.lists (x : Shadow) (n : Nat) : Bool :=
  let i := n / 16
  match x.block with
  | .lane l => i == 24 + l || (184 ≤ i && x.ports.contains (i - 184)) || (88 ≤ i && i < 184 && x.engines.contains (i - 88)) || i == 10
  | .port p => i == 184 + p || (88 ≤ i && i < 184 && x.engines.contains (i - 88)) || i == 9
  | .ndl e => i == 88 + e || i == 6 || (184 ≤ i && x.ports.contains (i - 184))
  | .link _ =>
    (40 ≤ i && i < 88 && x.lanes.contains (i - 40)) || (184 ≤ i && x.ports.contains (i - 184)) ||
    (24 ≤ i && i < 40 && x.engines.contains (i - 24))
  | .trunk l => i == 16 + l || i == 16 + (if l % 2 = 0 then l + 1 else l - 1)
  | .afec => i == 9 || i == 6
  | .chk => i == 5 || i == 6
  | .bist => i == 7 || i == 6

/-- A shadow that closes: its reset has ended and SHADOW_FRAMES boundaries have passed since. -/
def Dev.shadowOver (d : Dev) (x : Shadow) : Bool := x.ended && decide (d.rd LINT.SHADOW_FRAMES ≤ x.seen)

/-- Whether an open shadow lists the block of a source. -/
def Dev.consequent (d : Dev) (n : Nat) : Bool := d.lint.shadows.any (fun x => x.lists n && !d.shadowOver x)

/-- LINT.SHADOWS, the shadows open. -/
def Dev.countShadows (d : Dev) : Dev := d.wr LINT.SHADOWS 0 0 d.lint.shadows.length

/-- A shadow opened at the start of a block reset. -/
def Dev.openShadow (d : Dev) (x : Shadow) : Dev :=
  ({ d with lint := { d.lint with shadows := d.lint.shadows ++ [x] } }).countShadows

/-- The shadows that are over closed. -/
def Dev.closeShadows (d : Dev) : Dev :=
  ({ d with lint := { d.lint with shadows := d.lint.shadows.filter (fun x => !d.shadowOver x) } }).countShadows

/-- The block reset of a shadow ends; with SHADOW_FRAMES = 0 the shadow closes with it. -/
def Dev.endShadow (d : Dev) (b : ResetBlock) : Dev :=
  let d1 := { d with lint := { d.lint with
      shadows := d.lint.shadows.map (fun (x : Shadow) => if x.block = b ∧ !x.ended then { x with ended := true } else x) } }
  if d1.rd LINT.SHADOW_FRAMES = 0 then d1.closeShadows else d1

/-! ### Deadline misses (R20 to R25) -/

/-- The lane a port is on. -/
def Dev.laneOf (d : Dev) (n : Nat) : Nat := d.rd PORT.LANE n

/-- The lane a port will be on once its move has ended. -/
def Dev.laneAfter (d : Dev) (n : Nat) : Nat :=
  match d.arch.moves.find? (fun m => m.port == n) with | some m => m.target | none => d.laneOf n

/-- The lane that processes port-frame `num` of a direction: lane Y from the switch frame F on (R34). -/
def Dev.frameLane (d : Dev) (n dir num : Nat) : Nat :=
  match d.arch.moves.find? (fun m => m.port == n && m.running) with
  | some m =>
    match m.f with
    | some (a, b) => if (if dir = 0 then a else b) ≤ num then m.target else d.laneOf n
    | none => d.laneOf n
  | none => d.laneOf n

/-- DL_LAST as one word, the layout of DEV offset 0x05C (R43, R504). -/
def Dev.dlLast (d : Dev) : Nat :=
  d.rd DEV.DL_MIGRATE * 2 ^ 22 + d.rd DEV.DL_ABANDON * 2 ^ 21 + d.rd DEV.DL_DIR * 2 ^ 20 + d.rd DEV.DL_PORT * 2 ^ 8 +
  d.rd DEV.DL_STAGE * 2 ^ 4 + d.rd DEV.DL_LANE

/-- A bit of DEV that feeds a lane's leaf set (R57). -/
def Dev.laneFlag (d : Dev) (f : Field) (l : Nat) : Dev := Dev.leavesRise d [1224 + l] (d.wr f 0 l 1)

/-- The spare capacity of a lane in kS/s, with the moves already planned to it. -/
def Dev.spare (d : Dev) (l : Nat) : Nat :=
  let coming := (d.arch.moves.filter (fun m => m.target == l)).map (fun m => m.port)
  d.rd DEV.LANE_CAP 0 l - (d.laneLoad l + (coming.map d.portKs).foldl (· + ·) 0)

/-- The port contexts of a lane with the moves planned to it (R13). -/
def Dev.contexts (d : Dev) (l : Nat) : Nat :=
  (d.lanePorts l).length + (d.arch.moves.filter (fun m => m.target == l)).length

/-- Whether a port has a move planned or running. -/
def Dev.moving (d : Dev) (n : Nat) : Bool := d.arch.moves.any (fun m => m.port == n)

/-- One migration of R24 planned from lane `l` to lane `t`, if none to `t` is planned for the same multiframe and an unpinned port fits
its spare capacity; which of them is SORT's choice. -/
def Dev.planMigration (l : Nat) (d : Dev) (t : Nat) : Dev :=
  if t = l ∨ d.arch.moves.any (fun m => m.react && m.target == t && m.start == d.sys.nextMf) then d
  else
    let fit := (d.lanePorts l).filter
      (fun n => !d.on PORT.LANE_PIN n && !d.moving n && decide (d.portKs n ≤ d.spare t) && decide (d.contexts t < 64))
    let (k, d1) := d.choose
    match pickFrom fit k with
    | some n =>
      { d1 with arch := { d1.arch with moves := d1.arch.moves ++ [⟨n, t, d1.sys.nextMf, none, none, false, true⟩] } }
    | none => d

/-- Step 1 of R24 for one multiframe: at most one port per target lane; when no port can be planned, the reset is due. -/
def Dev.planReaction (d : Dev) (l : Nat) : Dev :=
  let d1 := (List.range 16).foldl (Dev.planMigration l) d
  let none' := d1.arch.moves.length = d.arch.moves.length
  { d1 with arch := { d1.arch with
      overrun := FMap.set none d1.arch.overrun l (some (if none' then .resetDue else .migrating)) } }

/-- The next higher programme of R24. -/
def nextHigher (p : Nat) : Nat := match p with | 0 => 1 | _ => 2

/-- LANE_OVERRUN: the SEVERE fault, its flag, the overrun advice for 60 s and the start of the reaction (R24, R38). -/
def Dev.laneOverrun (d : Dev) (l : Nat) : Dev :=
  let d1 := (d.fault (srcLane l 1) d.dlLast).laneFlag DEV.OVERRUN l
  let d2 := ({ d1 with arch := { d1.arch with
      advice := some (nextHigher d1.prog)
      adviceEnds := d1.timebase + secTicks 60 } }).refreshAdvice
  match FMap.get none d2.arch.overrun l with
  | some _ => d2
  | none => d2.planReaction l

/-- A DEADLINE_MISS of a port-frame of lane `l`: DL_LAST, the counts, the fault; UP becomes DEGRADED (R30); the lane's count unless the
port-frame bears a copy delay (R25) or the fault is consequent (R494), with LANE_OVERRUN at the eighth (R24). -/
def Dev.deadlineMiss (d : Dev) (n l dir stage : Nat) (abandon migrate : Bool) : Dev :=
  let d1 := (((((d.flag DEV.DL_MIGRATE 0 0 migrate).flag DEV.DL_ABANDON 0 0 abandon).wr DEV.DL_DIR 0 0 dir).wr DEV.DL_PORT 0 0 n).wr
    DEV.DL_STAGE 0 0 stage).wr DEV.DL_LANE 0 0 l
  let d2 := (d1.inc DEV.DL_MISS_TOTAL).inc DEV.LANE_MISS 0 l
  let conseq := d2.consequent (srcLane l 0)
  let d3 := d2.fault (srcLane l 0) d2.dlLast
  let d4 := { d3 with arch := { d3.arch with portMiss := FMap.set [] d3.arch.portMiss n (d3.timebase :: d3.portMisses n) } }
  let d5 := if d4.portMode n = .up then d4.setPort n .degraded else d4
  if migrate || conseq then d5
  else
    let ms := d5.timebase :: d5.laneMisses l
    let d6 := ({ d5 with arch := { d5.arch with laneMiss := FMap.set [] d5.arch.laneMiss l ms } }).wr DEV.MISS_WINDOW 0 l (min 255 ms.length)
    if ms.length = 8 then d6.laneOverrun l else d6

/-! ### Port moves (R34, R35) -/

/-- MIG_BUSY: a port move runs. -/
def Dev.migBusy (d : Dev) : Dev := d.flag DEV.MIG_BUSY 0 0 (d.arch.moves.any Move.running)

/-- Whether a port is being moved. -/
def Dev.inMove (d : Dev) (n : Nat) : Bool := d.arch.moves.any (fun m => m.port == n && m.running)

/-- Whether a pinned move of a port's handlers is still to be taken. -/
def Dev.enginesDue (d : Dev) : Bool :=
  d.enabledPorts.any (fun n => d.on PORT.ENGINE_PIN n && (FMap.get none d.arch.engPlan n).isSome)

/-- What follows when a move has ended or was dropped: MIG_BUSY, and CMD_PLACE_APPLY completes when no pinned move is left (R35). -/
def Dev.settleMoves (d : Dev) : Dev :=
  let d1 := d.migBusy
  match d1.arch.placeTag with
  | some t =>
    if d1.arch.placeDue || d1.arch.moves.any (fun m => m.pinned) || d1.enginesDue then d1
    else ({ d1 with arch := { d1.arch with placeTag := none } }).complete t .ok
  | none => d1

/-- The number of the next port-frame of a direction of a port (0 receive, 1 transmit). -/
def Dev.nextNum (d : Dev) (n dir : Nat) : Nat := FMap.get 0 d.arch.frameNum (2 * n + dir)

/-- SORT chooses the switch frame F of a planned move: the next port-frame of each direction, which bears the copy delay (R25, R34). -/
def Dev.chooseFrame (d : Dev) (m : Move) : Dev :=
  let a := d.nextNum m.port 0
  let b := d.nextNum m.port 1
  { d with arch := { d.arch with
      moves := d.arch.moves.map (fun (x : Move) => if x = m then { x with f := some (a, b) } else x)
      copyDue := FMap.set 0 (FMap.set 0 d.arch.copyDue (2 * m.port) (a + 1)) (2 * m.port + 1) (b + 1) } }

/-- The planned moves of the multiframe boundary at `b` begin, unless a programme change runs (R34, R39); a port has one move at a time. -/
def Dev.startMoves (d : Dev) (b : Nat) : Dev :=
  if d.arch.prog.isSome then d
  else
    (d.arch.moves.foldl (fun (d : Dev) m => if m.start ≤ b ∧ !m.running ∧ !d.inMove m.port then d.chooseFrame m else d) d).migBusy

/-- R34: the context of a moving port begins to be copied. -/
def Dev.moveSwitch (d : Dev) (n : Nat) : Dev :=
  { d with arch := { d.arch with
      moves := d.arch.moves.map (fun (m : Move) => if m.port = n ∧ m.running then { m with copying := some d.timebase } else m) } }

/-- The programme's core voltage in mV (R37). -/
def progMv (p : Nat) : Nat := match p with | 0 => 650 | 2 => 800 | _ => 720

/-- The programme change held for a move begins (R39, R40). -/
def Dev.beginChange (d : Dev) (c : ProgChange) : Dev :=
  let d1 := (d.wr DEV.PROG_TARGET 0 0 c.target).wr DEV.PROG_BUSY 0 0 1
  let set := fun (d : Dev) (ph : ProgPhase) => { d with arch := { d.arch with prog := some { c with phase := ph } } }
  if progMv c.old < progMv c.target then
    ((set d1 (.voltage d1.timebase)).wr STARCH.AVS_TARGET 0 0 (progMv c.target)).emit (.avs (progMv c.target))
  else if progMv c.target < progMv c.old then set d1 .apply
  else set d1 (.walk d1.timebase)

/-- A programme change held for a move begins when none runs any more (R39). -/
def Dev.beginHeld (d : Dev) : Dev :=
  match d.arch.prog with
  | some c => if c.phase = .held ∧ !d.arch.moves.any Move.running then d.beginChange c else d
  | none => d

/-- R34, R35: the copy ends, the port is on its target lane, the move is counted. -/
def Dev.copyDone (d : Dev) (m : Move) : Dev :=
  let d1 := { d with arch := { d.arch with moves := d.arch.moves.filter (fun x => x != m) } }
  ((((d1.wr PORT.LANE m.port 0 m.target).inc DEV.MIG_COUNT).raise .dev 0 10).settleMoves).beginHeld

/-- The time a copy takes at most (R34). -/
def copyTicks : Nat := usTicks 8

/-- A copy has ended 8 µs after lane X finished F − 1 at the latest (R34). -/
def Dev.endCopies (d : Dev) : Dev :=
  (d.arch.moves.filter (fun m => match m.copying with | some t => decide (t + copyTicks ≤ d.timebase) | none => false)).foldl Dev.copyDone d

/-- The lane has no further migration running: the reset of R24 can start. -/
def Dev.resetReady (d : Dev) (l : Nat) : Bool :=
  FMap.get none d.arch.overrun l == some .resetDue && !d.arch.moves.any (fun m => (m.react || m.running) && d.laneOf m.port == l)

/-- The lane reset ends (R24). -/
def Dev.laneResetEnd (d : Dev) (l : Nat) : Dev :=
  ({ d with arch := { d.arch with overrun := FMap.set none d.arch.overrun l none } }).endShadow (.lane l)

/-! ### SORT's re-placement (R33) -/

/-- The ports of a lane under a plan of moves, those already planned or running made. -/
def Dev.planPorts (d : Dev) (plan : List (Nat × Nat)) (l : Nat) : List Nat :=
  d.enabledPorts.filter (fun n => match plan.find? (fun m => m.1 == n) with | some m => m.2 == l | none => d.laneAfter n == l)

/-- The load of a lane under a plan of moves. -/
def Dev.planLoad (d : Dev) (plan : List (Nat × Nat)) (l : Nat) : Nat := ((d.planPorts plan l).map d.portKs).foldl (· + ·) 0

/-- Whether a plan brings every lane within 95 % of its capacity and within 64 port contexts (R13, R33). -/
def Dev.planFits (d : Dev) (plan : List (Nat × Nat)) : Bool :=
  (List.range 16).all (fun l => decide (d.planLoad plan l * 100 ≤ 95 * d.rd DEV.LANE_CAP 0 l) && decide ((d.planPorts plan l).length ≤ 64))

/-- Every way to move exactly `k` of the ports listed, each to some lane. -/
def movePlans : List Nat → Nat → List (List (Nat × Nat))
  | _, 0 => [[]]
  | [], _ + 1 => []
  | n :: r, k + 1 => movePlans r (k + 1) ++ (List.range 16).flatMap (fun l => (movePlans r k).map (fun p => (n, l) :: p))

/-- The plans that fit with the fewest moves, among the unpinned ports that stand still (R33); none where the total does not allow it. -/
def Dev.bestPlans (d : Dev) : List (List (Nat × Nat)) :=
  let free := d.enabledPorts.filter (fun n => !d.on PORT.LANE_PIN n && !d.moving n)
  let cap := ((List.range 16).map (fun l => d.rd DEV.LANE_CAP 0 l)).foldl (· + ·) 0
  let total := (d.enabledPorts.map d.portKs).foldl (· + ·) 0
  if 95 * cap < 100 * total then []
  else ((List.range (free.length + 1)).findSome? (fun k =>
    match (movePlans free k).filter d.planFits with
    | [] => none
    | ps => some ps)).getD []

/-- Whether a lane's load exceeds 95 % of its capacity (R33). -/
def Dev.overloaded (d : Dev) : Bool :=
  (List.range 16).any (fun l => decide (95 * d.rd DEV.LANE_CAP 0 l < 100 * d.laneLoad l))

/-- Engine `x` is to take a port's handlers: a stopped port's at once, another's at the port's next downstream multiframe boundary (R428). -/
def Dev.planEngine (d : Dev) (n x : Nat) : Dev :=
  if !d.enabled n then d.wr PORT.ENGINE n 0 x
  else { d with arch := { d.arch with engPlan := FMap.set none d.arch.engPlan n (if d.rd PORT.ENGINE n = x then none else some x) } }

/-- The engines with room for a port: enabled ones with fewer than 20 ports (R428). -/
def Dev.freeEngines (d : Dev) : List Nat :=
  (List.range 96).filter (fun e => d.on (HDR.ENABLE .ndl) e && decide ((d.portsAfter e).length < 20))

/-- SORT moves the unpinned ports of the engines with ENABLE 0 elsewhere, unless FREEZE or a programme change holds it back (R33, R428). -/
def Dev.sortEngines (d : Dev) : Dev :=
  if d.on DEV.FREEZE || d.arch.prog.isSome then d
  else (d.enabledPorts.filter (fun n => !d.on PORT.ENGINE_PIN n && !d.on (HDR.ENABLE .ndl) (d.engineAfter n))).foldl
    (fun (d : Dev) n =>
      let (k, d1) := d.choose
      match pickFrom d.freeEngines k with
      | some x => d1.planEngine n x
      | none => d) d

/-- SORT takes the planned move of a port's handlers at a downstream multiframe boundary of the port: events that arise from now on queue at
the new engine (R428). An earlier move of the port ends first. -/
def Dev.takeEngine (d : Dev) (n : Nat) : Dev :=
  match FMap.get none d.arch.engPlan n with
  | some y =>
    if d.engFinishing n then d
    else
      let x := d.rd PORT.ENGINE n
      ({ d with arch := { d.arch with
          engPlan := FMap.set none d.arch.engPlan n none
          engFrom := FMap.set none d.arch.engFrom n (some x) } }.wr PORT.ENGINE n 0 y).settleMoves
  | none => d

/-- SORT's automatic re-placement at a boundary: the moves of its plan are planned for the next boundary (R33); which of the plans with
the fewest moves is SORT's choice. -/
def Dev.sortReplace (d : Dev) : Dev :=
  if (d.arch.replace || d.overloaded) && !d.on DEV.FREEZE && d.arch.prog.isNone then
    let (k, d1) := d.choose
    let plan := (pickFrom d1.bestPlans k).getD []
    { d1 with arch := { d1.arch with
        replace := false
        moves := d1.arch.moves ++ plan.map (fun m => ⟨m.1, m.2, d1.sys.nextMf, none, none, false, false⟩) } }
  else d

/-! ### Pins in effect (R13, R31's table of placed objects, R35, R428) -/

/-- A lane that has no context free for the ports pinned to it: one of its unpinned ports is planned to move, at the boundary at `b`, to
a lane with a free one (R13; log entry 116). -/
def Dev.evict (d : Dev) (l b : Nat) : Dev :=
  if (d.planPorts [] l).length ≤ 64 ∧ ((d.lanePorts l).length < 64 ∨ d.arch.moves.any (fun m => d.laneOf m.port == l)) then d
  else
    let go := (d.lanePorts l).filter (fun n => !d.on PORT.LANE_PIN n && !d.moving n)
    let room := (List.range 16).filter (fun t => t != l && decide (d.contexts t < 64))
    let (k, d1) := d.choose
    let (j, d2) := d1.choose
    match pickFrom go k, pickFrom room j with
    | some n, some t => { d2 with arch := { d2.arch with moves := d2.arch.moves ++ [⟨n, t, b, none, none, false, false⟩] } }
    | _, _ => d

/-- The unpinned handlers of one port of an engine that would have more than `cap` ports are to move to another engine (R428). -/
def Dev.relieveEngine (d : Dev) (e cap : Nat) : Dev :=
  if (d.portsAfter e).length ≤ cap then d
  else
    let go := (d.portsAfter e).filter (fun n => !d.on PORT.ENGINE_PIN n)
    let (k, d1) := d.choose
    let (j, d2) := d1.choose
    match pickFrom go k, pickFrom d.freeEngines j with
    | some n, some x => d2.planEngine n x
    | _, _ => d

/-- The equipped tributary contexts of enabled ports in a bank. -/
def Dev.bankTribs (d : Dev) (b : Nat) : List Nat :=
  (List.range 16384).filter (fun t => d.on TRIB.EQUIPPED t && d.enabled (d.rd TRIB.PORT_N t) && d.rd TRIB.BANK t == b)

/-- Unpinned contexts of a bank with more than 2,048 are placed in the banks with the fewest (R31's table). -/
def Dev.relieveBank (d : Dev) (b : Nat) : Dev :=
  let ts := d.bankTribs b
  ((ts.filter (fun t => !d.on TRIB.BANK_PIN t)).take (ts.length - 2048)).foldl
    (fun (d : Dev) t =>
      let sizes := (List.range 8).map (fun x => (d.bankTribs x).length)
      let least := sizes.foldl min 16384
      d.wr TRIB.BANK t 0 (sizes.findIdx (fun s => s == least))) d

/-- The pin of a port takes effect: its engine by the procedure of R428, its lane by that of R34 (R35). A place written without its pin bit is no
pin: SORT's placement stays. A move of SORT planned for the port and not begun is abandoned: SORT never moves a pinned object. -/
def Dev.applyPin (d : Dev) (b n : Nat) (p : PinReq) : Dev :=
  let d1 := ((d.flag PORT.LANE_PIN n 0 p.lanePin).flag PORT.ENGINE_PIN n 0 p.enginePin).wr PORT.PENDING n 0 0
  let d2 := if p.enginePin then d1.planEngine n p.engine else d1
  if !p.lanePin then d2
  else
    let keep := d2.arch.moves.filter (fun m => m.port != n || m.running)
    let d3 := { d2 with arch := { d2.arch with moves := keep } }
    if !d3.enabled n then d3.wr PORT.LANE n 0 p.lane
    else if p.lane = d3.laneAfter n then d3
    else { d3 with arch := { d3.arch with moves := keep ++ [⟨n, p.lane, b, none, none, true, false⟩] } }

/-- The pin of a tributary context takes effect (R35, R46). -/
def Dev.applyTribPin (d : Dev) (t : Nat) (p : TribPin) : Dev :=
  let d1 := ((d.flag TRIB.BANK_PIN t 0 p.bankPin).flag TRIB.REC_PIN t 0 p.recPin).wr TRIB.PENDING t 0 0
  let d2 := if p.bankPin then d1.wr TRIB.BANK t 0 p.bank else d1
  if p.recPin then (d2.wr TRIB.REC_CH t 0 p.recCh).wr TRIB.REC_RANK t 0 p.recRank else d2

/-- Every pin written and not yet applied takes effect together at the boundary at `b` (R35). SORT's moves planned for that boundary are
abandoned, and it plans them again at the next (R36); the migrations of R24 are no re-placement. Unpinned objects make room. -/
def Dev.applyPins (d : Dev) (b : Nat) : Dev :=
  let keep := d.arch.moves.filter (fun m => m.running || m.react || m.pinned)
  let d0 := { d with arch := { d.arch with moves := keep, placeDue := false, replace := true } }
  let d1 := d0.arch.pins.foldl (fun (d : Dev) e => match e.2 with | some p => d.applyPin b e.1 p | none => d) d0
  let d2 := d1.arch.tribPins.foldl (fun (d : Dev) e => match e.2 with | some p => d.applyTribPin e.1 p | none => d) d1
  let engs := (d.arch.pins.filterMap (fun e => e.2.map (fun p => p.engine))).eraseDups
  let banks := (d.arch.tribPins.filterMap (fun e => e.2.map (fun p => p.bank))).eraseDups
  let d3 := banks.foldl Dev.relieveBank (engs.foldl (fun (d : Dev) e => (List.range 20).foldl (fun (d : Dev) _ => d.relieveEngine e 20) d) d2)
  let d4 := { d3 with arch := { d3.arch with pins := [], tribPins := [] } }
  let lanes := d4.arch.moves.filterMap (fun m => if m.pinned && !m.running then some m.target else none)
  (lanes.foldl (fun (d : Dev) l => d.evict l b) d4).settleMoves

/-- SORT at a system multiframe boundary at `b`: pins first, then the moves planned for this boundary begin, then the migrations of R24 and
re-placement are planned for the next; no re-placement at a boundary that applies pins (R36). -/
def Dev.sortBoundary (d : Dev) (b : Nat) : Dev :=
  let d1 := (if d.arch.placeDue then d.applyPins b else d).startMoves b
  let d2 := (List.range 16).foldl
    (fun d l => if FMap.get none d.arch.overrun l = some .migrating then d.planReaction l else d) d1
  if d.arch.placeDue then d2 else d2.sortReplace.sortEngines

/-- A lane for an unpinned port that starts: SORT's choice among the lanes with a free context and, where there is one, with
room within 95 % of capacity (R13, R33). -/
def Dev.placeLane (d : Dev) (n : Nat) : Dev :=
  if d.on PORT.LANE_PIN n then d
  else
    let free := (List.range 16).filter (fun l => decide (d.contexts l < 64))
    let fit := free.filter (fun l => decide ((d.laneLoad l + d.portKs n) * 100 ≤ 95 * d.rd DEV.LANE_CAP 0 l))
    let (k, d1) := d.choose
    match pickFrom (if fit.isEmpty then free else fit) k with
    | some l => d1.wr PORT.LANE n 0 l
    | none => d1

/-- An engine for the handlers of an unpinned port that starts: one with room (R428); the engine of a pinned one makes room. -/
def Dev.placeEngine (d : Dev) (n : Nat) : Dev :=
  if d.on PORT.ENGINE_PIN n then d.relieveEngine (d.rd PORT.ENGINE n) 19
  else
    let (k, d1) := d.choose
    match pickFrom d.freeEngines k with
    | some e => d1.wr PORT.ENGINE n 0 e
    | none => d1

/-- The banks of the unpinned tributary contexts of a port that starts: for each the bank with the fewest contexts of enabled ports,
SORT's choice among equals (R31's table of placed objects). -/
def Dev.placeBanks (d : Dev) (n : Nat) : Dev :=
  let used := (List.range 16384).filter (fun t => d.on TRIB.EQUIPPED t && d.enabled (d.rd TRIB.PORT_N t))
  let own := fun t => d.rd TRIB.PORT_N t == n && !d.on TRIB.BANK_PIN t
  let fixed := (used.filter (fun t => !own t)).map (fun t => d.rd TRIB.BANK t)
  let start : List Nat × Dev := (fixed, d)
  ((used.filter own).foldl
    (fun x t =>
      let count := fun b => x.1.count b
      let best := (List.range 8).foldl (fun m b => min m (count b)) 16385
      let (c, d1) := x.2.choose
      let b := (pickFrom ((List.range 8).filter (fun b => count b == best)) c).getD 0
      (b :: x.1, d1.wr TRIB.BANK t 0 b)) start).2

/-! ### Placement pins (R35, R36) -/

/-- A host write of PORT[n].PLACE: at the expert level the pins wait for CMD_PLACE_APPLY (R36); else nothing (R8). -/
def Dev.writePlace (d : Dev) (n v : Nat) : Dev :=
  if !d.expert .port n then d
  else
    let e := v / 256 % 128
    let e' := if 95 < e then 95 else e
    let d1 := { d with arch := { d.arch with
        pins := FMap.set none d.arch.pins n (some ⟨v % 16, v.testBit 7, e', v.testBit 15⟩) } }
    let d2 := d1.wr PORT.PENDING n 0 1
    if 95 < e then d2.busErr DEV.RANGE (0x100000 + 4096 * n + 0x28) else d2

/-- A host write of a tributary context's PLACE word, at DEV's expert level (R46). -/
def Dev.writeTribPlace (d : Dev) (t v : Nat) : Dev :=
  if !d.expert .trib t then d
  else
    ({ d with arch := { d.arch with
        tribPins := FMap.set none d.arch.tribPins t (some ⟨v % 8, v.testBit 3, v / 16 % 4, v / 64 % 8, v.testBit 9⟩) } }).wr
      TRIB.PENDING t 0 1

/-- The lane, the engine and the bank an object is pinned to; with `written`, a pin not yet applied counts in place of the one in effect. -/
def Dev.pinLane (d : Dev) (written : Bool) (n : Nat) : Option Nat :=
  match if written then FMap.get none d.arch.pins n else none with
  | some p => if p.lanePin then some p.lane else none
  | none => if d.on PORT.LANE_PIN n then some (d.laneOf n) else none
def Dev.pinEngine (d : Dev) (written : Bool) (n : Nat) : Option Nat :=
  match if written then FMap.get none d.arch.pins n else none with
  | some p => if p.enginePin then some p.engine else none
  | none => if d.on PORT.ENGINE_PIN n then some (d.engineAfter n) else none
def Dev.pinBank (d : Dev) (written : Bool) (t : Nat) : Option Nat :=
  match if written then FMap.get none d.arch.tribPins t else none with
  | some p => if p.bankPin then some p.bank else none
  | none => if d.on TRIB.BANK_PIN t then some (d.rd TRIB.BANK t) else none

/-- Whether the pins of the ports and contexts named, with those of the other enabled ports, exceed capacity (R36): more than 64 contexts on
one lane (R13), more than 20 ports on one engine (R428), more than 2,048 contexts in one bank. A lane overloaded by its pins is no capacity
error (R36, R524). -/
def Dev.pinsOver (d : Dev) (written : Bool) (enabled ports tribs : List Nat) : Bool :=
  ((ports.filterMap (d.pinLane written)).eraseDups).any (fun l => decide (64 < (enabled.filter (fun n => d.pinLane written n == some l)).length)) ||
  ((ports.filterMap (d.pinEngine written)).eraseDups).any (fun e =>
    decide (20 < (enabled.filter (fun n => d.pinEngine written n == some e)).length)) ||
  ((tribs.filterMap (d.pinBank written)).eraseDups).any (fun b => decide (2048 < ((List.range 16384).filter (fun t =>
    d.on TRIB.EQUIPPED t && enabled.contains (d.rd TRIB.PORT_N t) && d.pinBank written t == some b)).length))

/-- Whether the pins written exceed capacity as CMD_PLACE_APPLY applies them (R36). -/
def Dev.pinsExceed (d : Dev) : Bool := d.pinsOver true d.enabledPorts (d.arch.pins.map Prod.fst) (d.arch.tribPins.map Prod.fst)

/-! ### Programme changes (R39 to R41) -/

/-- The end of a programme change with OK: its parameters are in effect, the overrun advice ends, SORT re-places. -/
def Dev.changeDone (d : Dev) (c : ProgChange) : Dev :=
  let d1 := { d with arch := { d.arch with prog := none, advice := none, replace := true } }
  (((d1.wr DEV.PROG_BUSY 0 0 0).raise .dev 0 8).refreshAdvice).complete c.tag .ok

/-- An echo canceller's taps 128 to 191 set to 0 (R174). -/
def PamEq.zeroTail (x : PamEq) : PamEq := { x with ec := x.ec.take 128 ++ List.replicate 64 (List.replicate 4 0) }

/-- A port under another programme: every bit whose traceback is complete under the new depth is released (R203), and where ECO begins or ends
the taps of its echo canceller above 127 start from 0 (R174). -/
def PortSt.underProg (x : PortSt) (n tb : Nat) (eco : Bool) : PortSt :=
  { x with
    darn := x.darn.release n tb
    wring := if eco then { x.wring with eq := x.wring.eq.zeroTail, saved := x.wring.saved.zeroTail } else x.wring }

/-- The parameters of a programme in effect: code, ceiling, margin, traceback follow PROG_ACTIVE; lane capacities follow, and PROG_ADVICE
where no advice is present (R38). -/
def Dev.applyProg (d : Dev) (p : Nat) : Dev :=
  let d0 := (d.wr DEV.PROG_ACTIVE 0 0 p).updateCaps
  let eco := (d.prog == 0) != (p == 0)
  let d1 := d0.enabledPorts.foldl (fun (d : Dev) n => d.modPort n (fun (x : PortSt) => x.underProg n d.traceback eco)) d0
  (if d1.margin = d.margin then d1
  else { d1 with arch := { d1.arch with marginWas := d.margin, marginAt := min d.sys.nextMf d.timebase } }).refreshAdvice

/-- The phase after the tap walk: a change that lowers the voltage requests it now; the others apply at the next boundary. -/
def Dev.afterWalk (d : Dev) (c : ProgChange) : Dev :=
  if progMv c.target < progMv c.old then
    (({ d with arch := { d.arch with prog := some { c with phase := .voltage d.timebase } } }).wr STARCH.AVS_TARGET 0 0
      (progMv c.target)).emit (.avs (progMv c.target))
  else { d with arch := { d.arch with prog := some { c with phase := .apply } } }

/-- TIMEBASE of the last step of a tap walk, or of its start. -/
def ProgPhase.walkedAt : ProgPhase → Option Nat
  | .walk t => some t
  | .undoWalk t => some t
  | _ => none

/-- One frame of the tap walk (R40, R41). -/
def Dev.walkStep (d : Dev) (c : ProgChange) : Dev :=
  let d1 := d.stepTaps
  let again := fun (p : ProgPhase) => { d1 with arch := { d1.arch with prog := some { c with phase := p } } }
  if !d1.tapsThere then again (match c.phase with | .undoWalk _ => .undoWalk d.timebase | _ => .walk d.timebase)
  else
    match c.phase with
    | .undoWalk _ =>
      (({ d1 with arch := { d1.arch with prog := none } }).wr DEV.PROG_BUSY 0 0 0).refreshAdvice.complete c.tag .busy
    | _ => d1.afterWalk c

/-- R41: the change is undone. -/
def Dev.avsFail (d : Dev) (c : ProgChange) : Dev :=
  let d1 := ((d.fault (srcStarch 0)).raise .starch 0 5).inc STARCH.AVS_TIMEOUTS
  let d2 := ((d1.wr STARCH.AVS_TARGET 0 0 (progMv c.old)).emit (.avs (progMv c.old))).applyProg c.old
  { d2 with arch := { d2.arch with prog := some { c with phase := .undoWalk d2.timebase } } }

/-! ### Meanings -/

/-- CONTEXT_COPY_DONE (R34): within 8 µs of lane X finishing F − 1. -/
def execContextCopyDone (port : Fin 512) (s : State) : Host.Outcome State Fault Refusal :=
  stay s (fun d =>
    match d.arch.moves.find? (fun m => m.port == port.val && (match m.copying with | some t => decide (d.timebase ≤ t + copyTicks) | none => false)) with
    | some m => d.copyDone m
    | none => d)

/-- LANE_RESET_END (R24). -/
def execLaneResetEnd (lane : Fin 16) (s : State) : Host.Outcome State Fault Refusal :=
  stay s (whenDev
    (fun d => match FMap.get none d.arch.overrun lane with
      | some (.resetting t) => decide (t ≤ d.timebase)
      | _ => false)
    (fun d => d.laneResetEnd lane))

/-- OVERRUN_ADVICE_EXPIRE (R38). -/
def execOverrunAdviceExpire (s : State) : Host.Outcome State Fault Refusal :=
  stay s (whenDev (fun d => d.arch.advice.isSome && decide (d.arch.adviceEnds ≤ d.timebase))
    (fun d => ({ d with arch := { d.arch with advice := none } }).refreshAdvice))

/-- PORT_MISS_WINDOW_CLEAR (R30). -/
def execPortMissWindowClear (port : Fin 512) (s : State) : Host.Outcome State Fault Refusal :=
  stay s (whenDev (fun d => (d.portMisses port).isEmpty)
    (fun d =>
      let d1 := { d with arch := { d.arch with portMiss := FMap.set [] d.arch.portMiss port [] } }
      if d1.portMode port = .degraded ∧ !d1.defect port 5 then d1.setPort port .up else d1))

/-- CMD_PROGRAMME (R39): BUSY while a change runs, for the programme in effect, or above its ceiling; held while a port move
is in progress. -/
def execCmdProgramme (tag : Fin 4096) (s : State) : Host.Outcome State Fault Refusal :=
  unlessMisuse (argMisuse s 4 tag (fun a => decide (3 < a.getD 0 0)))
    (stay s (fun d => d.startCmd 4 tag (fun c d =>
      let p := c.args.getD 0 0
      if d.arch.prog.isSome || p == d.prog || !withinCeiling d.loadUnits p then d.complete tag .busy
      else
        let x : ProgChange := ⟨tag, d.prog, p, .held⟩
        if d.arch.moves.any Move.running then
          ({ d with arch := { d.arch with prog := some x } })
        else d.beginChange x)))

/-! ### The programme of DEVICE_CONFIG in BOOT (R38, R511) -/

/-- BOOT goes on to the read of a record (R71, R74). -/
def Dev.bootRecord (d : Dev) (step : Nat) : Dev :=
  ({ d with host := { d.host with boot := { d.host.boot with reading := .record d.host.boot.use, since := d.timebase } } }).wr DEV.BOOT_STEP 0 0 step

/-- The voltage of the programme reached, or not within 5 ms: the device goes on in NORMAL with AVS_TIMEOUT (R41, R511). -/
def Dev.bootProg (d : Dev) (c : ProgChange) (ok : Bool) : Dev :=
  let d1 := ({ d with arch := { d.arch with prog := none } }).wr DEV.PROG_BUSY 0 0 0
  if ok then ((d1.wr DEV.PROG_ADVICE 0 0 c.target).applyProg c.target).bootRecord 4
  else
    let d2 := ((d1.fault (srcStarch 0)).raise .starch 0 5).inc STARCH.AVS_TIMEOUTS
    (((d2.wr STARCH.AVS_TARGET 0 0 (progMv c.old)).emit (.avs (progMv c.old))).wr DEV.PROG_TARGET 0 0 c.old).bootRecord 4

/-- VDD_CORE_SETTLED (R40): the regulator reports the voltage within 10 mV of the target. -/
def execVddCoreSettled (millivolt : Nat) (s : State) : Host.Outcome State Fault Refusal :=
  stay s (fun d =>
    let d1 := d.wr STARCH.AVS_READ 0 0 millivolt
    match d.arch.prog with
    | some c =>
      match c.phase with
      | .voltage t =>
        if progMv c.target ≤ millivolt + 10 ∧ millivolt ≤ progMv c.target + 10 ∧ d.timebase ≤ t + msTicks 5 then
          if d1.mode = .boot then d1.bootProg c true
          else if progMv c.old < progMv c.target then { d1 with arch := { d1.arch with prog := some { c with phase := .walk d.timebase } } }
          else d1.changeDone c
        else d1
      | _ => d
    | none => d)

/-- PROG_TAP_WALK_STEP (R40): at most one tap per element per frame. -/
def execProgTapWalkStep (s : State) : Host.Outcome State Fault Refusal :=
  stay s (fun d =>
    match d.arch.prog with
    | some c =>
      match c.phase.walkedAt with
      | some t => if d.passed t frameTicks then d.walkStep c else d
      | none => d
    | none => d)

/-- PROG_PARAM_APPLY (R40): at the multiframe boundary the parameters take effect; a change that does not lower the voltage
completes. -/
def execProgParamApply (s : State) : Host.Outcome State Fault Refusal :=
  stay s (fun d =>
    match d.arch.prog with
    | some c =>
      if c.phase = .apply ∧ d.sys.nextMf ≤ d.timebase then
        let d1 := d.applyProg c.target
        if progMv c.target < progMv c.old then { d1 with arch := { d1.arch with prog := some { c with phase := .walk d1.timebase } } }
        else d1.changeDone c
      else d
    | none => d)

/-- AVS_TIMEOUT (R41). -/
def execAvsTimeout (s : State) : Host.Outcome State Fault Refusal :=
  stay s (fun d =>
    match d.arch.prog with
    | some c =>
      match c.phase with
      | .voltage t =>
        if d.timebase < t + msTicks 5 then d else if d.mode = .boot then d.bootProg c false else d.avsFail c
      | _ => d
    | none => d)

/-- AVS_READ (R477): a reading, or none after two failed CRCs; three in a row more than 25 mV off set VDD_RANGE, three within
clear it. -/
def execAvsRead (reading : Option Nat) (s : State) : Host.Outcome State Fault Refusal :=
  stay s (fun d =>
    let target := d.rd STARCH.AVS_TARGET
    let d1 := match reading with
      | some v => d.wr STARCH.AVS_READ 0 0 v
      | none => d.inc STARCH.AVS_CRC_ERR 0 0 2
    let far := match reading with
      | some v => decide (target + 25 < v) || decide (v + 25 < target)
      | none => true
    let a := if far then min 3 (d1.starch.avsFar + 1) else 0
    let b := if far then 0 else min 3 (d1.starch.avsNear + 1)
    let d2 := { d1 with starch := { d1.starch with avsFar := a, avsNear := b } }
    if a = 3 then (d2.faultCond (srcStarch 4) true).cond .starch 0 6 true
    else if b = 3 then (d2.faultCond (srcStarch 4) false).cond .starch 0 6 false
    else d2)

/-- CMD_PLACE_APPLY (R35). -/
def execCmdPlaceApply (tag : Fin 4096) (s : State) : Host.Outcome State Fault Refusal :=
  unlessMisuse
    (if (s.dev.ready 11 tag).isSome && s.dev.arch.placeTag.isNone && s.dev.pinsExceed then some .pinCapacity else none)
    (stay s (fun d => d.startCmd 11 tag (fun _ d =>
      if d.arch.placeTag.isSome then d.complete tag .busy
      else { d with arch := { d.arch with placeTag := some tag, placeDue := true } })))

/-- SENSOR_READING (R474). -/
def execSensorReading (readings : List Int) (tput : List Nat) (s : State) : Host.Outcome State Fault Refusal :=
  stay s (whenDev (fun d => d.mode != .reset && d.mode != .boot && decide (d.starch.nextRead ≤ d.timebase))
    (fun d => d.sensorReading readings tput))

end Sys2Proof.Machine
end

