-- ==== Sys2Proof/Machine/Mate.lean ====
section
/-! DEFINITION. The mate link: the frames sent to the partner unit (R387 to R389). -/

namespace Sys2Proof.Machine

def Dev.modPair (d : Dev) (f : PairSt → PairSt) : Dev := { d with pair := f d.pair }

/-- The mate link is up while at least one lane is up (R387). -/
def Dev.mateUp (d : Dev) : Bool := d.rd PAIR.LANE_UP != 0

/-- A 64-bit value as two words, the low one first. -/
def words64 (v : Nat) : List Nat := [v % 2 ^ 32, v / 2 ^ 32 % 2 ^ 32]

/-- The CRC-32 of R69 over words that are sent most significant byte first (R388, R395; DEDUCED, log entry 136). -/
def mateCrc (ws : List Nat) : Nat := crc32 (ws.flatMap (fun w => (leBytes 4 w).reverse))

/-- Whether the CRC-32 that ends a mate frame passes (R388). -/
def mateCrcGood (ws : List Nat) : Bool := decide (3 ≤ ws.length) && mateCrc ws.dropLast == ws.getLastD 0

/-- The payload of a mate frame of a type; none where its first word names another type or length (R388). -/
def matePayload (type : Nat) (ws : List Nat) : Option (List Nat) :=
  if ws.headD 0 / 2 ^ 24 = type ∧ ws.headD 0 / 2 ^ 8 % 2 ^ 14 + 3 = ws.length then some (ws.drop 2).dropLast else none

/-- Whether `b` lies at or after `a` in the order of SEQ. -/
def seqLe (a b : Nat) : Bool := decide ((b + 2 ^ 32 - a % 2 ^ 32) % 2 ^ 32 < 2 ^ 31)

/-- A value of two words, the low one first. -/
def words64At (ws : List Nat) (i : Nat) : Nat := ws.getD i 0 + ws.getD (i + 1) 0 * 2 ^ 32

/-- The lanes that carry frames of a type, as a mask: those of R389 while both are up, else the one that is. -/
def Dev.mateLanes (d : Dev) (type : Nat) : Nat :=
  if d.rd PAIR.LANE_UP = 3 then (if type = 0x01 ∨ type = 0x02 ∨ type = 0x50 then 3 else if type = 0x10 ∨ type = 0x11 ∨ type = 0x30 then 2 else 1)
  else d.rd PAIR.LANE_UP

/-- A mate frame of a type sent with its payload: TYPE and LEN, SEQ per type, the payload, the CRC-32 (R388). Nothing is sent while the
mate link is down. -/
def Dev.mateSend (d : Dev) (type : Nat) (payload : List Nat) : Dev :=
  if !d.mateUp then d
  else
    let seq := (FMap.get 0 d.pair.mateSeq type + 1) % 2 ^ 32
    let ws := [type * 2 ^ 24 + payload.length * 2 ^ 8, seq] ++ payload
    (d.modPair (fun (x : PairSt) => { x with mateSeq := FMap.set 0 x.mateSeq type seq })).emit (.mate (d.mateLanes type) (ws ++ [mateCrc ws]))

end Sys2Proof.Machine
end

