-- ==== Sys2Proof/Machine/Hem.lean ====
section
/-! DEFINITION. HEM: the hunt over every bit offset, frame and multiframe alignment, the descrambler and the CRC-10 of a
received Colal stream (R211 to R217, R231 to R240). -/

namespace Sys2Proof.Machine

/-- The FAW of even frames (R213). -/
def faw : Nat := 0x2CE

/-- The MFA bit of the odd frame of index i: f1 is index 0, f15 index 7 (R214). -/
def mfaBit (i : Nat) : Bool := (0b01110100 : Nat).testBit (i % 8)

/-- What HEM needs to know of the stream. -/
structure HemPar where
  words   : Nat     -- W of R211
  masked  : Nat     -- scrambled bits of a frame: OH1, slot words and fill (R206)
  lofCount : Nat
  hunt    : Bool    -- false for the stations of a shared port (R240)
  deriving DecidableEq, Repr

/-- What happens in HEM. -/
inductive HemEv where
  | faDeclared (ambiguous : Bool) | faLost | mfaDeclared | mfaLost
  | fawErr | mfaErr | crc (r : CrcRes) | crcNone | lofClear
  deriving DecidableEq, Repr

/-- The word at offset `q` of a group, reaching into the group before it where it does not lie in the group as a whole. -/
def offsetWord (w : Nat) (prev : Option (List Bool)) (cur : List Bool) (q : Nat) : Option Nat :=
  if q + 10 ≤ 10 * w then some (bitsVal ((cur.drop q).take 10))
  else prev.map (fun p => bitsVal (p.drop q ++ cur.take (q + 10 - 10 * w)))

/-- The frame that ends in this group for offset `q`. -/
def offsetFrame (prev : Option (List Bool)) (cur : List Bool) (q : Nat) : Option (List Bool) :=
  if q = 0 then some cur else prev.map (fun p => p.drop q ++ cur.take q)

/-! ### Candidates (R235) -/

/-- A candidate's odd-frame record advanced over an odd frame. -/
def Cand.oddBit (c : Cand) (b : Option Bool) : Cand :=
  { c with
    rots := ((c.rots.filter (fun r => match b with | some x => mfaBit r == x | none => true)).map (fun r => (r + 1) % 8))
    odd := (b :: c.odd).take 8 }

/-- A candidate judged against a present frame's word; none where it is dropped. -/
def Cand.judge (c : Cand) (w : Nat) : Option Cand :=
  if c.even then
    if w = faw then some { c with even := false, run := c.run + 1, surv := c.surv || decide (3 ≤ c.run + 1) } else none
  else if w.testBit 9 then none
  else
    let d := c.oddBit (some (w.testBit 8))
    if d.rots.isEmpty then none else some { d with even := true, run := d.run + 1 }

/-- A candidate over an absent frame: the alternation goes on, nothing is judged. -/
def Cand.skip (c : Cand) : Cand := if c.even then { c with even := false, run := 0 } else { c.oddBit none with even := true, run := 0 }

/-- A new candidate: the frame is its first even frame. -/
def Cand.new (q : Nat) : Cand :=
  { q := q, even := false, rots := List.range 8, odd := [], run := 1, surv := false, mf := none, agreed := 0, good := 0, last := none }

/-- The index of the newest odd frame that eight MFA bits in a row fix (R214, R237). -/
def phaseOf (odd : List (Option Bool)) : Option Nat :=
  if odd.length < 8 then none
  else (List.range 8).find? (fun r => (odd.zipIdx).all (fun x => x.1 == some (mfaBit (r + 8 - x.2))))

/-! ### Multiframes (R206, R231, R232) -/

/-- The multiframe record for a phase: the next content frame has number `f`. -/
def MfRx.new (f : Nat) (held : Bool) : MfRx :=
  { next := f, crc := 0x3FF, whole := false, ais := true, expect := none, held := held, badMfa := false,
    badRun := 0 }

/-- The words of a frame descrambled with the register of its number in the multiframe (R206). -/
def descramble (p : HemPar) (f : Nat) (bits : List Bool) : List Nat :=
  let s := lfsrSkip (f * p.masked) lfsrSeed
  bitsWords 10 p.words (bits.take 10 ++ (scramble (bits.drop 10) s).1)

/-- The CRC-10 taken over the words of a frame: the FAW of even frames is left out (R231). -/
def crcFrame (f : Nat) (words : List Nat) (c : Nat) : Nat :=
  crc10 ((if f % 2 = 0 then words.drop 1 else words).flatMap (wordBits 10)) c

/-- A frame of the multiframe taken: the descrambled words, the CRC result where it is f0, the record after it. `began` says whether multiframe
alignment was held when it began, `held` whether it is now; `follow` that a survivor is followed without it (R232, R236). -/
def MfRx.take (m : MfRx) (p : HemPar) (follow began held : Bool) (bits : Option (List Bool)) : MfRx × List Nat × Option CrcRes :=
  let f := m.next
  let ws := match bits with
    | some b => descramble p f b
    | none => []
  let oh1 := ws.getD 1 0
  let res : Option CrcRes :=
    if f = 0 then
      some (match bits, m.expect with
        | some _, some e => if oh1 = e then .good else .errored
        | _, _ => .none)
    else none
  let m0 := if f = 0 then
      { m with crc := 0x3FF, whole := (began || follow) && bits.isSome, ais := true, expect := none, held := held, badMfa := false }
    else { m with held := m.held || held }
  let m1 := match bits with
    | some _ => { m0 with crc := crcFrame f ws m0.crc, ais := m0.ais && oh1 == 0x3FF }
    | none => { m0 with whole := false }
  let m2 := if f = 15 then { m1 with expect := if m1.whole && !m1.ais then some m1.crc else none } else m1
  ({ m2 with next := (f + 1) % 16 }, ws, res)

/-! ### One port-frame -/

/-- A survivor's multiframe followed over this group, with its CRC result (R236). `absent` frames have no group. -/
def Cand.follow (c : Cand) (p : HemPar) (count : Nat) (prev cur : Option (List Bool)) : Cand :=
  if !c.surv then c
  else
    let c1 := match c.mf with
      | some _ => if c.even && cur.isSome then { c with agreed := c.agreed + 1 } else c
      | none =>
        match (if c.even then phaseOf c.odd else none) with
        | some r => { c with mf := some (MfRx.new (if c.q = 0 then 2 * r + 1 else 2 * r) false), agreed := 0 }
        | none => c
    match c1.mf with
    | none => c1
    | some m =>
      let (m', _, res) := m.take p true false false (match cur with | some b => offsetFrame prev b c.q | none => none)
      let c2 := { c1 with mf := some m' }
      match res with
      | some .good => { c2 with good := c2.good + 1, last := some (count, true) }
      | some .errored => { c2 with last := some (count, false) }
      | _ => c2

/-- R236 step 2: with a good result within the last 16 port-frames, survivors whose latest result there is errored go. -/
def dropErrored (count : Nat) (cs : List Cand) : List Cand :=
  let recent := fun (c : Cand) => match c.last with | some (n, b) => if count < n + 16 then some b else none | none => none
  if cs.any (fun c => c.surv && recent c == some true) then cs.filter (fun c => !(c.surv && recent c == some false)) else cs

/-- Declaration by exactly one survivor, or after 64 frames with several: the one with the most good results, then the
smallest offset (R236). -/
def declare? (count : Nat) (twoAt : Option Nat) (cs : List Cand) : Option (Cand × Bool) :=
  match cs.filter (fun c => c.surv) with
  | [] => none
  | [c] => some (c, false)
  | c :: r =>
    match twoAt with
    | some t =>
      if t + 64 ≤ count then
        some (r.foldl (fun b x => if b.good < x.good || (b.good == x.good && decide (x.q < b.q)) then x else b) c, true)
      else none
    | none => none

/-- The hunt over one port-frame. -/
def HemSt.hunt (h : HemSt) (p : HemPar) (cur : Option (List Bool)) : HemSt × List HemEv :=
  let cs1 : List Cand :=
    match cur with
    | none => h.cands.map Cand.skip
    | some b =>
      let kept := h.cands.filterMap (fun c => match offsetWord p.words h.prev b c.q with | some w => c.judge w | none => some c.skip)
      let fresh := (List.range (10 * p.words)).filter
        (fun q => !kept.any (fun c => c.q == q) && offsetWord p.words h.prev b q == some faw)
      kept ++ fresh.map Cand.new
  let cs2 := dropErrored h.count (cs1.map (fun c => c.follow p h.count h.prev cur))
  let two := 2 ≤ (cs2.filter (fun c => c.surv)).length
  let t := if two then some (h.twoAt.getD h.count) else none
  let h1 := { h with cands := cs2, twoAt := t }
  match declare? h.count t cs2 with
  | some (c, amb) =>
    let now := decide (8 ≤ c.agreed)
    let c1 := { c with mf := c.mf.map (fun (m : MfRx) => { m with whole := false, expect := none, held := now }) }
    ({ h1 with decl := some c1, cands := [], twoAt := none, fawRun := 0, aligned := now, held := 0 },
      .faDeclared amb :: (if now then [.mfaDeclared] else []))
  | none => (h1, [])

/-- HEM without alignment: the hunt of R235 restarts over every offset. -/
def HemSt.lose (h : HemSt) : HemSt :=
  { h with cands := [], twoAt := none, decl := none, fawRun := 0, aligned := false, held := 0 }

/-- The declared offset over one port-frame: errored FAWs, MFA bits, the multiframe phase and its confirmation, the content
frame (R237, R238). -/
def HemSt.track (h : HemSt) (p : HemPar) (c : Cand) (cur : Option (List Bool)) : HemSt × HemOut × List HemEv :=
  let w := match cur with | some b => offsetWord p.words h.prev b c.q | none => none
  let odd := !c.even
  let out0 : HemOut := { absent := w.isNone, fidx := none, words := [], oh0 := w, odd := odd, crc := none, ends := none }
  let bad := c.even && (match w with | some x => x != faw | none => false)
  let fawRun := if c.even then (match w with | some _ => if bad then h.fawRun + 1 else 0 | none => h.fawRun) else h.fawRun
  if bad && decide (p.lofCount ≤ fawRun) then
    (h.lose, { out0 with ends := some true }, [.fawErr] ++ (if h.aligned then [.crcNone] else []) ++ [.faLost])
  else
    -- the odd-frame record
    let c1 := if odd then { c with even := true, odd := (w.map (fun x => x.testBit 8) :: c.odd).take 8 } else { c with even := false }
    -- the frame number of this OH0, where the phase is known
    let here := c.mf.map (fun m => if c.q = 0 then m.next else (m.next + 1) % 16)
    let agrees : Option Bool :=
      match odd, w, here with
      | true, some x, some f => some (x.testBit 8 == mfaBit (f / 2))
      | _, _, _ => none
    let miss := agrees == some false
    let agreed : Nat := if h.aligned then c.agreed else match agrees with | some true => c.agreed + 1 | some false => 0 | none => c.agreed
    -- the phase is looked for while none is known, and anew where a bit of the confirmation fails
    let known := if miss && !h.aligned then none else c1.mf
    let found := match known with
      | some _ => none
      | none => if odd then phaseOf c1.odd else none
    let mf := match found with
      | some r => some (MfRx.new (if c.q = 0 then 2 * r + 1 else 2 * r) h.aligned)
      | none => known
    let agreed1 : Nat := if found.isSome then 0 else agreed
    let now := !h.aligned && found.isNone && decide (8 ≤ agreed1)
    -- the content frame
    let content := match cur with | some b => offsetFrame h.prev b c.q | none => none
    let (mf1, ws, res) := match mf with
      | some m => let (a, b, r) := m.take p false h.aligned (h.aligned || now) content; (some a, b, r)
      | none => (none, [], none)
    let mf2 := mf1.map (fun m => if miss && h.aligned then { m with badMfa := true } else m)
    let f := mf.map (fun m => m.next)
    -- two multiframes in a row with a differing bit end multiframe alignment
    let mfEnd := f == some 15
    let badRun := mf2.map (fun m => if mfEnd then (if m.badMfa then m.badRun + 1 else 0) else m.badRun)
    let lost := h.aligned && mfEnd && badRun == some 2
    let mf3 := mf2.map (fun m => { m with badRun := badRun.getD 0 })
    let result : Option CrcRes := match res with
      | some r => if h.aligned || (mf.map (fun m => m.held)).getD false then some r else none
      | none => none
    let held := if w.isSome then min 16 (h.held + 1) else h.held
    let h1 := { h with decl := some { c1 with mf := if lost then none else mf3, agreed := if lost then 0 else agreed1 }, fawRun := fawRun,
                       aligned := (h.aligned || now) && !lost, held := held }
    let evs : List HemEv :=
      (if bad then [.fawErr] else []) ++ (if miss && h.aligned then [.mfaErr] else []) ++
      (match result with | some .none => [.crcNone, .crc .none] | some r => [.crc r] | none => []) ++
      (if now then [.mfaDeclared] else []) ++ (if lost then [.crcNone, .mfaLost] else []) ++
      (if held = 16 ∧ h.held ≠ 16 then [.lofClear] else [])
    (h1, { out0 with fidx := if h.aligned then f else none, words := if h.aligned then ws else [], crc := result, ends := if lost then some false else none }, evs)

/-- A port-frame of decoded bits, or an absent one, in HEM. -/
def HemSt.frame (h : HemSt) (p : HemPar) (cur : Option (List Bool)) : HemSt × HemOut × List HemEv :=
  let (h1, out, evs) :=
    match h.decl with
    | some c => h.track p c cur
    | none =>
      if p.hunt then
        let (x, e) := h.hunt p cur
        (x, { absent := cur.isNone, fidx := none, words := [], oh0 := none, odd := false, crc := none, ends := none }, e)
      else
        match cur with
        | none => (h, { absent := true, fidx := none, words := [], oh0 := none, odd := false, crc := none, ends := none }, [])
        | some _ =>
          let (x, o, e) := ({ h with decl := some (Cand.new 0), held := 0 }).track p { Cand.new 0 with even := true } cur
          (x, o, HemEv.faDeclared false :: e)
  ({ h1 with prev := cur, count := h1.count + 1 }, out, evs)

/-- A forced restart of the hunt: a frame alignment that is held is lost (R232, R239). -/
def HemSt.force (h : HemSt) : HemSt × List HemEv :=
  (h.lose, (if h.aligned then [.crcNone] else []) ++ (if h.decl.isSome then [.faLost] else []))

/-- ALIGN_STATE (R243). -/
def HemSt.state (h : HemSt) : Nat :=
  if h.aligned then 3 else if h.decl.isSome then 2
  else if 2 ≤ (h.cands.filter (fun c => c.surv)).length then 1 else 0

end Sys2Proof.Machine
end

