-- ==== Sys2Proof/Machine/Dsp.lean ====
section
/-! DEFINITION. Signal processing as pure functions of samples: levels in dB, the chip sequences of R111, dechirping and bins, the
filters, the LMS step (R79, R91, R103, R111, R119 to R125, R131, R172, R175). The spec gives no filter coefficient and no loop gain:
each is a constant of Config (log entry 118). -/

namespace Sys2Proof.Machine

/-! ### Levels (R103, R123; log entry 117) -/

/-- Whether a ratio is at least k quarters of a dB: num / den ≥ 10^(k / 40). -/
def dbGe (num den : Nat) (k : Int) : Bool :=
  if 0 ≤ k then decide (10 ^ k.toNat * den ^ 40 ≤ num ^ 40) else decide (den ^ 40 ≤ num ^ 40 * 10 ^ (-k).toNat)

/-- Whether a ratio is at least k eighths of a dB. -/
def dbGe8 (num den : Nat) (k : Int) : Bool :=
  if 0 ≤ k then decide (10 ^ k.toNat * den ^ 80 ≤ num ^ 80) else decide (den ^ 80 ≤ num ^ 80 * 10 ^ (-k).toNat)

/-- The largest integer in [lo, lo + 2^n) that satisfies a downward closed condition, `lo` if none does. -/
def lastWhere (p : Int → Bool) : Nat → Int → Int
  | 0, lo => lo
  | n + 1, lo => let mid := lo + ((2 ^ n : Nat) : Int); if p mid then lastWhere p n mid else lastWhere p n lo

/-- A ratio in 0.25 dB units, to the nearest, within −512 to +511; 0 / 0 has no value in the spec. -/
def dbQuarter (num den free : Nat) : Int :=
  if num = 0 then (if den = 0 then Config.ratioNone free else -512)
  else if den = 0 then 511
  else lastWhere (fun k => dbGe8 num den (2 * k - 1)) 10 (-512)

/-- The power of a full-scale sine (R103), in squared 1/65,536 codes, times 2. -/
def fullScale2 : Nat := (511 * 65536) ^ 2

/-- A sum of squared real samples and their count as a level in 0.25 dBFS; no power at all reads −128.0 dBFS. -/
def dbfs (sum count : Nat) : Int := if sum = 0 then -512 else dbQuarter (2 * sum) (count * fullScale2) 0

/-! ### Complex numbers -/

def Cx.zero : Cx := ⟨0, 0⟩
def Cx.add (a b : Cx) : Cx := ⟨a.re + b.re, a.im + b.im⟩
def Cx.sub (a b : Cx) : Cx := ⟨a.re - b.re, a.im - b.im⟩
def Cx.conj (a : Cx) : Cx := ⟨a.re, -a.im⟩
def Cx.mul (a b : Cx) : Cx := ⟨a.re * b.re - a.im * b.im, a.re * b.im + a.im * b.re⟩
def Cx.scale (k : Int) (a : Cx) : Cx := ⟨k * a.re, k * a.im⟩
/-- Divided by a positive number, rounded down. -/
def Cx.div (a : Cx) (k : Nat) : Cx := ⟨Int.fdiv a.re k, Int.fdiv a.im k⟩
/-- The squared magnitude. -/
def Cx.pow (a : Cx) : Nat := a.re.natAbs ^ 2 + a.im.natAbs ^ 2
/-- Multiplied by j^k. -/
def Cx.turn (a : Cx) (k : Nat) : Cx :=
  match k % 4 with | 0 => a | 1 => ⟨-a.im, a.re⟩ | 2 => ⟨-a.re, -a.im⟩ | _ => ⟨a.im, -a.re⟩

def Cx.sum (xs : List Cx) : Cx := xs.foldl Cx.add Cx.zero

/-! ### The unit circle -/

/-- cos(π / 512) and sin(π / 512), 2^40 is 1. -/
def stepCos : Int := 1099490929780
def stepSin : Int := 6746476518

/-- `n` turns by π / 512 from a point, kept at 2^40. -/
def spinRound : Nat → Int → Int → Int × Int
  | 0, c, s => (c, s)
  | n + 1, c, s => spinRound n (Int.fdiv (c * stepCos - s * stepSin) (2 ^ 40)) (Int.fdiv (s * stepCos + c * stepSin) (2 ^ 40))

/-- e^(jπp/512), 2^14 is 1: by the quarter of the circle and turns within it. -/
def cis (p : Nat) : Cx :=
  let q := p % 1024
  let (c, s) := spinRound (q % 256) (2 ^ 40) 0
  Cx.turn ⟨Int.fdiv (c + 2 ^ 25) (2 ^ 26), Int.fdiv (s + 2 ^ 25) (2 ^ 26)⟩ (q / 256)

/-! ### Chips (R111, R112) -/

/-- The slope of a layer (R111). -/
def slope (l : Nat) : Int := match l with | 0 => 1 | 1 => -1 | 2 => 2 | _ => -2

/-- Chip n of symbol value s on layer l: e^(jπ(k n²/N + 2 s n/N − n)), 2^14 is 1 (R111). -/
def chip (sf l s n : Nat) : Cx :=
  let big : Int := ((2 ^ sf : Nat) : Int)
  let ph : Int := slope l * n * n + 2 * s * n - n * big
  cis ((ph * ((512 / 2 ^ sf : Nat) : Int)).emod 1024).toNat

/-- 65,536 / √D for D = 1, 2, 4 (R112). -/
def stackGain (depth : Nat) : Int := match depth with | 1 => 65536 | 2 => 46341 | _ => 32768

/-- The chips of a symbol: the sum of its layers at amplitude A / √D, in 1/65,536 code (R112, R131). -/
def symbolChips (sf amp : Nat) (shifts : List Nat) : List Cx :=
  (List.range (2 ^ sf)).map (fun n =>
    (Cx.scale (amp * stackGain shifts.length) (Cx.sum (shifts.zipIdx.map (fun x => chip sf x.2 x.1 n)))).div (2 ^ 14))

/-- The symbols of a preamble, as layer 0 or 1 and value: eight of the pattern, then the port word's two values (R124). -/
def preambleSyms (sf word : Nat) : List (Nat × Nat) :=
  (List.range 8).map (fun i => (i % 2, 0)) ++ [(0, gray (word / 2 ^ sf % 2 ^ sf)), (0, gray (word % 2 ^ sf))]

/-- The chips of a preamble, on one layer at amplitude A (R112, R124). -/
def preambleChips (sf amp word : Nat) : List Cx :=
  (preambleSyms sf word).flatMap (fun x =>
    (List.range (2 ^ sf)).map (fun n => (Cx.scale ((amp : Int) * 65536) (chip sf x.1 x.2 n)).div (2 ^ 14)))

/-! ### Dechirping (R111, R119) -/

/-- The chips times the conjugate of x[l, 0]. -/
def dechirp (sf l : Nat) (xs : List Cx) : List Cx := xs.zipIdx.map (fun x => (Cx.mul x.1 (chip sf l 0 x.2).conj).div (2 ^ 14))

/-- Bin k of the N-point transform. -/
def bin (sf : Nat) (zs : List Cx) (k : Nat) : Cx :=
  (Cx.sum (zs.zipIdx.map (fun z => Cx.mul z.1 (cis (2 * k * z.2 * (512 / 2 ^ sf))).conj))).div (2 ^ 14)

/-- The N bins of a layer. -/
def bins (sf l : Nat) (xs : List Cx) : List Cx := let zs := dechirp sf l xs; (List.range (2 ^ sf)).map (bin sf zs)

/-- The bin powers (R199). -/
def binPows (bs : List Cx) : List Nat := bs.map Cx.pow

/-- The largest bin, the lowest where several are equal. -/
def peakOf (ps : List Nat) : Nat := let m := maxOf ps; ps.findIdx (fun p => p == m)

def sumOf (ps : List Nat) : Nat := ps.foldl (· + ·) 0

/-- The peak-to-average ratio in 0.25 dB (R120, R125): the peak's power over the mean of all N bins; a symbol without any power has ratio 0
(log entry 117). -/
def peakRatio (ps : List Nat) : Nat :=
  if sumOf ps = 0 then 0 else (dbQuarter (maxOf ps * ps.length) (sumOf ps) 0).toNat

/-- The powers of a peak bin and its neighbours. -/
def peakThree (ps : List Nat) : List Nat :=
  let n := ps.length
  let k := peakOf ps
  [ps.getD ((k + n - 1) % max 1 n) 0, ps.getD k 0, ps.getD ((k + 1) % max 1 n) 0]

/-- The decided sweep of a layer with its measured amplitude and phase, subtracted from the chips (R119): the peak bin over N is the
amplitude. -/
def cancel (sf l s : Nat) (amp : Cx) (xs : List Cx) : List Cx :=
  xs.zipIdx.map (fun x => Cx.sub x.1 ((Cx.mul amp (chip sf l s x.2)).div (2 ^ 14 * 2 ^ sf)))

/-- The layers of a symbol in the order of R120: decreasing peak-to-average ratio of a first dechirp, equal ones in increasing order. -/
def layerOrder (sf depth : Nat) (xs : List Cx) : List Nat :=
  if depth ≤ 1 then [0]
  else
    let rs := (List.range depth).map (fun l => let ps := binPows (bins sf l xs); (l, maxOf ps, sumOf ps))
    (rs.mergeSort (fun a b => decide (b.2.1 * a.2.2 < a.2.1 * b.2.2) || (b.2.1 * a.2.2 == a.2.1 * b.2.2 && decide (a.1 ≤ b.1)))).map Prod.fst

/-- A layer of a symbol as demodulated: the layer, the decided value, its bin, the bin powers. -/
structure LayerRx where
  l    : Nat
  s    : Nat
  amp  : Cx
  pows : List Nat
  deriving DecidableEq, Repr

/-- The layers of a symbol demodulated one after another, each cancelled before the next (R119, R120). -/
def demodLayers (sf : Nat) : List Nat → List Cx → List LayerRx
  | [], _ => []
  | l :: r, xs =>
    let bs := bins sf l xs
    let ps := binPows bs
    let k := peakOf ps
    let a := bs.getD k Cx.zero
    ⟨l, k, a, ps⟩ :: demodLayers sf r (cancel sf l k a xs)

/-- A symbol demodulated (R119). -/
def demod (sf depth : Nat) (xs : List Cx) : List LayerRx := demodLayers sf (layerOrder sf depth xs) xs

/-! ### Streams -/

/-- The sample at or before a place; zero where the stream has none. -/
def Stream.hold (x : Stream) (gap : Nat) (p : Int) : Cx :=
  let i := Int.fdiv (p - x.at_) gap
  if i < 0 then Cx.zero else x.xs.getD i.toNat Cx.zero


/-- The sample at a place: one of the stream where it falls on one, else interpolated, by a kernel the spec does not give (R119). -/
def Stream.sample (x : Stream) (gap : Nat) (p : Int) : Cx :=
  let off := p - x.at_
  let i := Int.fdiv off gap
  let fr := (Int.fmod off gap).toNat
  let at_ := fun (j : Int) => if j < 0 then Cx.zero else x.xs.getD j.toNat Cx.zero
  if fr = 0 then at_ i
  else (Cx.sum ((List.range 16).map (fun k => Cx.scale (Config.interpTap gap fr k) (at_ (i - 7 + k))))).div (2 ^ 15)

/-- The place just behind the last sample. -/
def Stream.end_ (x : Stream) (gap : Nat) : Int := x.at_ + gap * x.xs.length

/-- Whether the stream reaches past a place as far as the interpolation looks. -/
def Stream.covers (x : Stream) (gap : Nat) (p : Int) : Bool := decide (p + 8 * gap ≤ x.end_ gap)

/-- The samples from a place on. -/
def Stream.from_ (x : Stream) (gap : Nat) (p : Int) : Stream :=
  let k := min x.xs.length ((Int.fdiv (p - x.at_) gap).toNat)
  ⟨x.at_ + gap * k, x.xs.drop k⟩

/-- Samples put at a place, over what stands there; the space between is filled with 0, unless it is longer than any filter's memory. -/
def Stream.put (x : Stream) (gap : Nat) (p : Int) (ys : List Cx) : Stream :=
  let i := Int.fdiv (p - x.at_) gap
  if x.xs.isEmpty || decide (2 ^ 20 < i.natAbs) then ⟨p, ys⟩
  else if i < 0 then
    let k := (-i).toNat
    ⟨x.at_ - gap * k, ys ++ List.replicate (k - ys.length) Cx.zero ++ x.xs.drop (ys.length - k)⟩
  else
    let k := i.toNat
    ⟨x.at_, x.xs.take k ++ List.replicate (k - x.xs.length) Cx.zero ++ ys ++ x.xs.drop (k + ys.length)⟩

/-- The length of `n` chips or symbols at a clock ratio, in 1/65,536 of a 64th: the far end's clock is 1 + ε of REFCLK. -/
def spanAt (n : Nat) (eps : Int) : Int := (n : Int) * (64 * 65536) - Int.fdiv (n * 64 * eps) 16000000

/-- The chips of a symbol, one per chip from a place in 1/65,536 of 1/64 chip on, at 1/64 chip resolution, turned back by the tracked
frequency offset, which follows from ε (R119, R122, R199). -/
def Stream.chips (x : Stream) (start eps : Int) (n : Nat) : List Cx :=
  (List.range n).map (fun i =>
    let v := x.sample 32 (Int.fdiv (start + spanAt i eps) 65536)
    let turn := (Int.fdiv (-(i : Int) * eps * 1024) (65536 * 16000000)).emod 1024
    if turn = 0 then v else (Cx.mul v (cis turn.toNat)).div (2 ^ 14))

/-! ### Half-band filters (R79, R91, R131) -/

/-- The coefficient of a half-band filter at a distance from its centre, 2^15 is 1: one half at the centre, 0 at even distances, symmetric. -/
def halfTap (dist : Nat) : Int :=
  if dist = 0 then 2 ^ 14 else if dist % 2 = 0 ∨ 15 < dist then 0 else Config.halfBand (dist / 2)

/-- The 31 taps over a history, newest first. -/
def halfSum (h : List Cx) : Cx :=
  (Cx.sum ((h.take 31).zipIdx.map (fun x => Cx.scale (halfTap (if x.2 ≤ 15 then 15 - x.2 else x.2 - 15)) x.1))).div (2 ^ 15)

/-- A stage that filters and decimates by 2: the history, whether the next input gives an output, the inputs. -/
def decimate2 : List Cx → Bool → List Cx → List Cx × List Cx × Bool
  | h, out, [] => ([], h, out)
  | h, out, x :: r =>
    let h1 := (x :: h).take 31
    let (ys, h2, o2) := decimate2 h1 (!out) r
    (if out then halfSum h1 :: ys else ys, h2, o2)

/-- `k` such stages over inputs of which the first has number `i`: each keeps the inputs of even number. The number of the first output. -/
def decimStages : Nat → Nat → List (List Cx) → List Cx → List Cx × Nat × List (List Cx)
  | 0, i, hs, xs => (xs, i, hs)
  | k + 1, i, hs, xs =>
    let (ys, h, _) := decimate2 (hs.headD []) (i % 2 == 0) xs
    let (zs, j, rest) := decimStages k (ceilDiv i 2) (hs.drop 1) ys
    (zs, j, h :: rest)

/-- A stage that interpolates by 2: the delayed input, then the filter between it and the one after. -/
def interp2 : List Cx → List Cx → List Cx × List Cx
  | h, [] => ([], h)
  | h, x :: r =>
    let h1 := (x :: h).take 16
    let at_ := fun (i : Nat) => h1.getD i Cx.zero
    let mid := (Cx.sum ((List.range 8).map (fun i => Cx.scale (2 * halfTap (2 * i + 1)) (Cx.add (at_ (8 + i)) (at_ (7 - i)))))).div (2 ^ 15)
    let (ys, h2) := interp2 h1 r
    (at_ 8 :: mid :: ys, h2)

/-- `k` stages of interpolation by 2, with a history each. -/
def interpStages : Nat → List (List Cx) → List Cx → List Cx × List (List Cx)
  | 0, hs, xs => (xs, hs)
  | k + 1, hs, xs =>
    let (ys, h) := interp2 (hs.headD []) xs
    let (zs, rest) := interpStages k (hs.drop 1) ys
    (zs, h :: rest)

/-! ### RINSE (R91) -/

/-- DC removal: y = x − m, then m ← m + (x − m) × 2^−shift. -/
def dcRun (shift : Nat) : Int → List Int → List Int × Int
  | m, [] => ([], m)
  | m, x :: r => let y := x - m; let (ys, m1) := dcRun shift (m + Int.fdiv y (2 ^ shift)) r; (y :: ys, m1)

/-- Mixing by Fs/4: multiplied by 1, −j, −1, +j in turn, by the samples' numbers. -/
def mixDown : Nat → List Int → List Cx
  | _, [] => []
  | i, y :: r => Cx.turn ⟨y, 0⟩ (3 * i) :: mixDown (i + 1) r

/-! ### LMS (R121, R174, R175): 512 codes are 1.0 (log entry 117) -/

/-- A complex canceller over one sample: what it leaves, and its taps adapted by the step 2^(26 − shift), if it adapts. -/
def necStep (shift : Option Nat) (w tx : List Cx) (x : Cx) : Cx × List Cx :=
  let e := Cx.sub x ((Cx.sum (List.zipWith Cx.mul w tx)).div (2 ^ 24))
  (e, match shift with | some k => List.zipWith (fun a t => Cx.add a ((Cx.mul e t.conj).div (2 ^ k))) w tx | none => w)

/-- The near-end canceller over samples from a place on: 64 taps at two samples per chip (R121). -/
def necRun (shift : Option Nat) (tx : Stream) : List Cx → Int → List Cx → List Cx × List Cx
  | w, _, [] => ([], w)
  | w, p, x :: r =>
    let (e, w1) := necStep shift w ((List.range 64).map (fun (k : Nat) => tx.hold 32 (p - 32 * (k : Int)))) x
    let (es, w2) := necRun shift tx w1 (p + 32) r
    (e :: es, w2)

/-- The echo canceller over one sample: `i` is its number in the symbol period (R174). -/
def ecStep (shift : Option Nat) (i taps : Nat) (ec : List (List Int)) (tx : List Int) (x : Int) : Int × List (List Int) :=
  let used := List.zipWith (fun c t => (c.getD i 0) * t) (ec.take taps) tx
  let e := x - Int.fdiv (used.foldl (· + ·) 0) (2 ^ 15)
  (e, match shift with
    | some k => List.zipWith (fun c t => c.set i (c.getD i 0 + Int.fdiv (e * t) (2 ^ k))) (ec.take taps) tx ++ ec.drop taps
    | none => ec)

/-- The levels transmitted in the symbol period of a place and in those before it. -/
def WringSt.sent (x : WringSt) (p : Int) : List Int := (List.range 192).map (fun (k : Nat) => (x.tx.hold 64 (p - 64 * (k : Int))).re)

/-- The echo canceller over samples at 4 × baud from a place on, the power before and after it, and its taps. -/
def ecRun (shift : Option Nat) (taps : Nat) (x : WringSt) : List (List Int) → Int → List Int → List Int × List (List Int)
  | ec, _, [] => ([], ec)
  | ec, p, v :: r =>
    let i := (Int.fmod (Int.fdiv (p - x.tx.at_) 16) 4).toNat
    let (e, ec1) := ecStep shift i taps ec (x.sent p) v
    let (es, ec2) := ecRun shift taps x ec1 (p + 16) r
    (e :: es, ec2)

/-! ### WRING's symbols (R175 to R178) -/

/-- What WRING needs to know at a symbol: bits per symbol, the training in force (0 none, 1 two-level, 2 full-level), the LMS shift, whether
the equalizers adapt at all and which of them is frozen, the thresholds. -/
structure WringPar where
  bits   : Nat
  train  : Nat
  shift  : Nat
  adapt  : Bool
  ffeOff : Bool
  dfeOff : Bool
  thresh : List Int
  deriving DecidableEq, Repr

/-- The two samples of a symbol period after the decimation by 2, newest first. -/
def WringSt.pair (x : WringSt) (p : Int) : List Int × List Cx :=
  let s := fun (i : Nat) => x.buf.sample 16 (p + 16 * i)
  let h0 := (s 0 :: x.half).take 31
  let h1 := (s 2 :: s 1 :: h0).take 31
  ([(halfSum h1).re, (halfSum h0).re], (s 3 :: h1).take 31)

/-- The decided level index of a slicer input (R177). -/
def slice (thresh : List Int) (y : Int) : Nat := (thresh.filter (fun t => decide (t ≤ y))).length

/-- Bits of the training sequence and the register after them: the first is the most significant (R171, R179). -/
def prbsBits : Nat → Nat → List Bool × Nat
  | 0, s => ([], s)
  | n + 1, s => let (b, t) := lfsrStep s; let (bs, u) := prbsBits n t; (b :: bs, u)

/-- The level index of a two-level symbol, and of a full-level one, from bits. -/
def trainLevel (bits train : Nat) (bs : List Bool) : Nat := if train = 1 then (if bs.headD false then 2 ^ bits - 1 else 0) else ungray bits (bitsVal bs)

/-- The bits that a decided level index stands for in training. -/
def trainBits (bits train k : Nat) : List Bool := if train = 1 then [decide (2 ^ (bits - 1) ≤ k)] else wordBits bits (gray k)

/-- One symbol period: the slicer input in codes, and WRING after it. -/
def WringSt.symbol (x : WringSt) (c : WringPar) (start : Int) : Int × WringSt :=
  let (two, half) := x.pair (Int.fdiv start 65536)
  let taps := (two ++ x.taps).take 32
  let lin := Int.fdiv ((List.zipWith (· * ·) x.eq.ffe taps).foldl (· + ·) 0) (2 ^ 24)
  let fb := Int.fdiv ((List.zipWith (fun w v => w * (v * 65536)) x.eq.dfe x.past).foldl (· + ·) 0) (2 ^ 24)
  let fine := Int.fdiv (lin * x.eq.gain) (2 ^ 16) - fb
  let y := roundDiv fine 65536
  let k := if c.train = 1 then (if 0 ≤ y then 2 ^ c.bits - 1 else 0) else slice c.thresh y
  let n := if c.train = 1 then 1 else c.bits
  -- the local copy of the training sequence: synchronised from 11 decided bits
  let seen := if c.train = 0 ∨ x.prbs.isSome then [] else ((trainBits c.bits c.train k).reverse ++ x.seen).take 11
  let copy := x.prbs.map (prbsBits n)
  let prbs := if c.train = 0 then none else match copy with
    | some (_, s) => some s
    | none => if seen.length = 11 then some (bitsVal seen.reverse) else none
  let target := pamLevel c.bits (match copy with | some (bs, _) => if c.train = 0 then k else trainLevel c.bits c.train bs | none => k)
  let e := fine - target * 65536
  let go := c.adapt && (c.train = 0 || copy.isSome)
  let ffe := if go && !c.ffeOff then List.zipWith (fun w v => w - Int.fdiv (e * v) (2 ^ c.shift)) x.eq.ffe (taps ++ List.replicate (32 - taps.length) 0)
    else x.eq.ffe
  let dfe := if go && !c.dfeOff then
      List.zipWith (fun w v => w + Int.fdiv (e * (v * 65536)) (2 ^ c.shift)) x.eq.dfe (x.past.take 24 ++ List.replicate (24 - x.past.length) 0)
    else x.eq.dfe
  let last := x.past.headD 0
  let eps := let v := x.eq.eps + Config.pamFreq y target last; if v < -(3200 * 65536) then -(3200 * 65536) else min v (3200 * 65536)
  let thr := (x.thr ++ List.replicate (8 - x.thr.length) (0, 0)).modify k (fun a => (a.1 + y, a.2 + 1))
  let ideal := (y - pamLevel c.bits k).natAbs ^ 2
  (y, { x with
    eq := { x.eq with ffe := ffe, dfe := dfe, gain := Config.pamGain x.eq.gain y target, eps := eps, next := some (start + spanAt 1 eps + Config.pamPhase y target last) }
    half := half
    taps := taps
    past := (pamLevel c.bits k :: x.past).take 4096
    prbs := prbs
    seen := seen
    thr := thr
    err := (x.err.1 + ideal, x.err.2 + 1) })

/-! ### Output samples (R84, R131, R172) -/

/-- A value quantised to 10 bits: the nearest code, saturating at ±511 (R131). -/
def quantise (x : Int) : Int :=
  let v := roundDiv x 65536
  if v < -511 then -511 else if 511 < v then 511 else v

/-- A transmit sample word: the sample, the owner mark, Mute; a muted sample carries value 0 (R84, R85). -/
def txWord (owner mute : Bool) (v : Int) : Nat := codeOf 10 (if mute then 0 else v) * 4 + owner.toNat * 2 + mute.toNat

/-- The samples of complex chips at the link rate: y(m) = Re(u(m) e^(jπm/2)) (R131). -/
def upMix : Nat → List Cx → List Int
  | _, [] => []
  | m, u :: r => (u.turn m).re :: upMix (m + 1) r

/-! ### Square-root raised cosine (R172) -/

/-- The taps of the shaping filter at i / 4 symbol from its centre, roll-off 0.25, 2^14 is 1: unity gain at the centre of an isolated symbol
behind the receiver's equalizer, the root-raised-cosine impulse 1 − α + 4α/π and its fellows (log entry 118). -/
def srrcTap (i : Nat) : Int :=
  match i with
  | 0 => 17503 | 1 => 15453 | 2 => 10188 | 3 => 3897 | 4 => -1052 | 5 => -3256 | 6 => -2790 | 7 => -901 | 8 => 869 | 9 => 1542
  | 10 => 1070 | 11 => 99 | 12 => -615 | 13 => -699 | 14 => -300 | 15 => 163 | 16 => 348 | _ => 0

/-- The shaping filter over levels: four samples per symbol from 33 taps (R172). -/
def srrcRun : List Int → List Int → List Int × List Int
  | h, [] => ([], h)
  | h, v :: r =>
    let h1 := (v :: h).take 9
    let at_ := fun (i : Nat) =>
      Int.fdiv ((h1.zipIdx.map (fun x => let k := i + 4 * x.2; x.1 * srrcTap (if k ≤ 16 then 16 - k else k - 16))).foldl (· + ·) 0) (2 ^ 14)
    let (ys, h2) := srrcRun h1 r
    ([at_ 0, at_ 1, at_ 2, at_ 3] ++ ys, h2)

end Sys2Proof.Machine
end

