-- ==== Sys2Proof/Machine/Timing.lean ====
section
/-! DEFINITION. System timing: the phase error and the loop, timing sources and their selection, alignment jumps, slip buffers
(R270 to R285). -/

namespace Sys2Proof.Machine

/-! ### Boundaries (R270) -/

/-- The first TIMEBASE value at or after `t` that lies at a phase modulo a period. -/
def nextAt (phase period t : Nat) : Nat :=
  let r := (t + period - phase % period) % period
  if r = 0 then t else t + (period - r)

/-- The phase error of a reference against the nearest system boundary, −10,240 to +10,239 ticks (R271). -/
def phaseErr (sysPhase : Nat) (ref off : Int) : Int := (ref + off - (sysPhase : Int) + 10240) % 20480 - 10240

/-! ### Sources (R273, R274) -/

/-- A trunk lane's reference. -/
def Dev.trkRef (d : Dev) (l : Nat) : TrkRef := FMap.get TrkRef.reset d.sys.trk l

def Dev.setTrk (d : Dev) (l : Nat) (x : TrkRef) : Dev := { d with sys := { d.sys with trk := FMap.set TrkRef.reset d.sys.trk l x } }

/-- KIND and LANE of an entry in effect: writes take effect at the next frame (R273). -/
def Dev.srcKind (d : Dev) (e : Nat) : Nat := FMap.get 0 d.sys.srcs e % 4
def Dev.srcLane (d : Dev) (e : Nat) : Nat := FMap.get 0 d.sys.srcs e / 4

/-- Whether an entry's source is failed (R274). -/
def Dev.entryFailed (d : Dev) (e : Nat) : Bool :=
  match d.srcKind e with
  | 1 => d.line.fsyncLoss
  | 2 => let x := d.trkRef (d.srcLane e); !x.aligned || x.failed
  | 3 => false
  | _ => true

def Dev.entry (d : Dev) (e : Nat) : EntrySt := FMap.get EntrySt.reset d.sys.entries e

def Dev.setEntry (d : Dev) (e : Nat) (x : EntrySt) : Dev :=
  { d with sys := { d.sys with entries := FMap.set EntrySt.reset d.sys.entries e x } }

/-- One entry judged anew: failed, newly unfailed, or as before; LOCAL is always qualified. -/
def Dev.judgeEntry (d : Dev) (e : Nat) : Dev :=
  let x := d.entry e
  if d.srcKind e = 3 then d.setEntry e ⟨d.timebase, false, true⟩
  else if d.entryFailed e then d.setEntry e ⟨0, true, false⟩
  else if x.failed then d.setEntry e ⟨d.timebase, false, false⟩
  else d

/-- The TSTATE codes (R295). -/
def tsFreerun : Nat := 0
def tsAcquire : Nat := 1
def tsLocked : Nat := 2
def tsHoldover : Nat := 3

/-- Whether a source of kind 1 or 2 is selected. -/
def Dev.tracking (d : Dev) : Bool :=
  match d.sys.sel with
  | some e => d.srcKind e == 1 || d.srcKind e == 2
  | none => false

/-- The entry R275 selects. -/
def Dev.wantedEntry (d : Dev) : Option Nat :=
  if d.on DEV.FORCE_EN then
    if (d.entry (d.rd DEV.FORCE_ENTRY)).failed then none else some (d.rd DEV.FORCE_ENTRY)
  else
    let best := (List.range 4).find? (fun e => (d.entry e).qualified)
    match d.sys.sel with
    | none => best
    | some c =>
      if !(d.entry c).qualified then best
      else
        match best with
        | some b =>
          if b < c ∧ (d.on DEV.REVERTIVE ∨ d.rd DEV.TSTATE = tsHoldover ∨ d.rd DEV.TSTATE = tsFreerun) then some b else some c
        | none => some c

/-- The last reference of an entry's source. -/
def Dev.lastRef (d : Dev) (e : Nat) : Option Nat :=
  match d.srcKind e with
  | 1 => d.line.fsyncRef
  | 2 => (d.trkRef (d.srcLane e)).ref
  | _ => none

/-- The configured offset of an entry's source (R277). -/
def Dev.cfgOffset (d : Dev) (e : Nat) : Int :=
  match d.srcKind e with
  | 1 => (d.rd DEV.FSYNC_OFFSET : Nat)
  | 2 => (d.rd DEV.TRK_OFFSET : Nat)
  | _ => 0

/-- The mean oscillator offset over the 16 s that ended 1 s earlier, rounded down: taken while LOCKED, afterwards the last one taken (R278). -/
def Dev.holdMean (d : Dev) : Int :=
  let xs := d.sys.hist.filter (fun x => decide (x.1 + secTicks 1 ≤ d.timebase ∧ d.timebase ≤ x.1 + secTicks 17))
  if d.rd DEV.TSTATE ≠ tsLocked ∨ xs.isEmpty then d.sys.mean else (xs.map Prod.snd).foldl (· + ·) 0 / (xs.length : Int)

/-- The TIMING event and SRC_SWITCHES (R275). -/
def Dev.timingEvent (d : Dev) : Dev := (d.inc DEV.SRC_SWITCHES).raise .dev 0 14

/-- HOLDOVER with HOLD_VALID, else FREERUN at nominal (R275, R278). Whether HOLDOVER was entered. -/
def Dev.loseLock (d : Dev) : Dev × Bool :=
  let d0 := { d with sys := { d.sys with lockedAt := none, okRun := 0, farRun := 0, jumpDue := false } }
  if d.on DEV.HOLD_VALID then
    if d.rd DEV.TSTATE = tsHoldover then (d0, false)
    else
      let f := codeOf 18 d.holdMean
      (((({ d0 with sys := { d0.sys with holdSince := some d0.timebase, loop := d.holdMean * 65536, mean := d.holdMean } }).wr DEV.TSTATE 0 0 tsHoldover).wr DEV.HOLD_FREQ 0 0 f).wr
        DEV.NCO_OFFSET 0 0 f, true)
  else ((({ d0 with sys := { d0.sys with loop := 0 } }).wr DEV.TSTATE 0 0 tsFreerun).wr DEV.NCO_OFFSET 0 0 0, false)

/-- Selection brought up to date (R275 to R277). -/
def Dev.reselect (d : Dev) : Dev :=
  let w := d.wantedEntry
  let changed := w != d.sys.sel
  let d1 := ({ d with sys := { d.sys with sel := w } }).wr DEV.SEL_ENTRY 0 0 (w.getD (d.rd DEV.SEL_ENTRY))
  if d1.tracking then
    let d2 :=
      if d1.rd DEV.TSTATE = tsFreerun ∨ d1.rd DEV.TSTATE = tsHoldover then
        ({ d1 with sys := { d1.sys with okRun := 0, farRun := 0, holdSince := none } }).wr DEV.TSTATE 0 0 tsAcquire
      else d1
    if !changed then d2
    else
      let d3 :=
        if d2.mode = .run then
          let e := w.getD 0
          let bo : Int := match d2.lastRef e with
            | some r => if d2.on DEV.BUILD_OUT then -(phaseErr d2.sys.sysPhase (r : Int) (d2.cfgOffset e)) else 0
            | none => 0
          { d2 with sys := { d2.sys with buildOut := bo } }
        else { d2 with sys := { d2.sys with jumpDue := true } }
      d3.timingEvent
  else
    let (d2, entered) := d1.loseLock
    if changed || entered then d2.timingEvent else d2

/-- The QUALIFIED and FAILED bits (R295). -/
def Dev.showEntries (d : Dev) : Dev :=
  let bits := fun (p : EntrySt → Bool) => (List.range 4).foldl (fun v e => if p (d.entry e) then orBit v e else v) 0
  (d.wr DEV.SRC_QUALIFIED 0 0 (bits (fun x => x.qualified))).wr DEV.SRC_FAILED 0 0 (bits (fun x => x.failed))

/-- Every entry judged and the selection brought up to date. -/
def Dev.timingUpdate (d : Dev) : Dev := (((List.range 4).foldl Dev.judgeEntry d).showEntries).reselect

/-- The entries as written take effect; one whose source is another than before is qualified anew (R273, R274). -/
def Dev.takeSources (d : Dev) : Dev :=
  let new := fun e => d.rd DEV.SRC_KIND 0 e + 4 * d.rd DEV.SRC_LANE 0 e
  let changed := (List.range 4).filter (fun e => new e != FMap.get 0 d.sys.srcs e)
  if changed.isEmpty then d
  else
    (changed.foldl (fun (d : Dev) e =>
      ({ d with sys := { d.sys with srcs := FMap.set 0 d.sys.srcs e (new e) } }).setEntry e EntrySt.reset) d).timingUpdate

/-! ### The loop (R271, R276) -/

/-- The effective offset of the selected source (R277). -/
def Dev.effOffset (d : Dev) : Int :=
  match d.sys.sel with
  | some e => d.cfgOffset e + d.sys.buildOut
  | none => d.sys.buildOut

/-- A value limited to ± a bound. -/
def limitAbs (b x : Int) : Int := if x < -b then -b else if b < x then b else x

/-- A phase sample of the selected source: the phase error, the oscillator's new frequency by the second-order loop within ±80 ppm (R271), the
runs that decide TSTATE (R276), and while LOCKED the record of offsets for R278. -/
def Dev.phaseSample (d : Dev) (ref : Nat) : Dev :=
  let e := phaseErr d.sys.sysPhase (ref : Int) d.effOffset
  let bw := d.rd DEV.LOOP_BW
  let k := limitAbs (20480 * 65536) (d.sys.loop + Config.loopKept bw * e)
  let f := limitAbs 20480 (Int.fdiv (k + Config.loopNow bw * e) 65536)
  let d1 := (d.wr DEV.PHASE_ERR 0 0 (codeOf 16 e)).wr DEV.NCO_OFFSET 0 0 (codeOf 18 f)
  { d1 with sys := { d1.sys with
      loop := k
      okRun := if e.natAbs ≤ 8 then min 8000 (d1.sys.okRun + 1) else 0
      farRun := if 64 < e.natAbs then min 16 (d1.sys.farRun + 1) else 0
      hist := if d1.rd DEV.TSTATE = tsLocked then
          (d1.timebase, f) :: d1.sys.hist.filter (fun x => decide (d1.timebase < x.1 + secTicks 18))
        else d1.sys.hist } }

/-- A good reference of a source of one kind and lane gives a phase sample if that source is selected. -/
def Dev.sampleIf (d : Dev) (kind lane ref : Nat) : Dev :=
  match d.sys.sel with
  | some e =>
    if d.srcKind e = kind ∧ (kind = 2 → d.srcLane e = lane) then d.phaseSample ref else d
  | none => d

/-! ### FSYNC_IN (R97) -/

/-- A good or bad period of FSYNC_IN: three bad in a row set FSYNC_LOSS, 16 good in a row clear it. -/
def Dev.fsyncPeriod (d : Dev) (good : Bool) : Dev :=
  let b := if good then 0 else min 3 (d.line.fsyncBad + 1)
  let g := if good then min 16 (d.line.fsyncGood + 1) else 0
  let loss := if b = 3 then true else if g = 16 then false else d.line.fsyncLoss
  ({ d with line := { d.line with fsyncBad := b, fsyncGood := g, fsyncLoss := loss } }).faultCond (srcDev 5) loss

/-- An accepted edge at TIMEBASE `t`: good within 20,480 ± 4 ticks of the reference. Outside that window the period is bad and
the reference advances by 20,480, or, while FSYNC_LOSS is present, the edge becomes the reference (R97, R274). -/
def Dev.fsyncEdge (d : Dev) (t : Nat) : Dev :=
  let setRef := fun (d : Dev) (r : Nat) => { d with line := { d.line with fsyncRef := some r } }
  match d.line.fsyncRef with
  | none => setRef d t
  | some r =>
    if r + 20476 ≤ t ∧ t ≤ r + 20484 then (((setRef d t).fsyncPeriod true).sampleIf 1 0 t).timingUpdate
    else
      let d1 := d.fsyncPeriod false
      (setRef d1 (if d.line.fsyncLoss then t else r + frameTicks)).timingUpdate

/-- No accepted edge by 20,484 ticks after the reference: a bad period, and the reference advances. -/
def Dev.fsyncTimeout (d : Dev) : Dev :=
  match d.line.fsyncRef with
  | none => d
  | some r =>
    if r + 20484 < d.timebase then
      (({ d with line := { d.line with fsyncRef := some (r + frameTicks) } }).fsyncPeriod false).timingUpdate
    else d

/-! ### Trunk references (R273, R274) -/

/-- A trunk FAW received on lane `l` with first-bit stamp `t`. -/
def Dev.trunkFaw (d : Dev) (l t : Nat) : Dev :=
  let x := d.trkRef l
  match x.ref with
  | none => d.setTrk l { x with ref := some t }
  | some r =>
    if r + 20476 ≤ t ∧ t ≤ r + 20484 then
      let g := min 16 (x.good + 1)
      ((d.setTrk l { x with ref := some t, good := g, bad := 0, failed := x.failed && g < 16 }).sampleIf 2 l t).timingUpdate
    else
      let b := min 3 (x.bad + 1)
      (d.setTrk l { x with ref := some (if x.failed || !x.aligned then t else r + frameTicks), good := 0, bad := b,
                           failed := x.failed || b == 3 }).timingUpdate

/-- A trunk lane gains or loses frame alignment as a timing source. -/
def Dev.trunkAligned (d : Dev) (l : Nat) (b : Bool) : Dev := (d.setTrk l { d.trkRef l with aligned := b }).timingUpdate

/-! ### Slip buffers (R283 to R285) -/

/-- What a slip buffer does with a frame. -/
inductive SlipAct where
  | normal | repeated | dropped
  deriving DecidableEq, Repr

/-- A frame that ends at stamp `e` enters the slip buffer: the boundary it takes, its fill in 1/256 frame, and what happens
(R283, R284). -/
def slipStep (sysPhase : Nat) (last : Option Nat) (e : Nat) : Nat × Int × SlipAct :=
  match last with
  | none =>
    let b := nextAt sysPhase frameTicks (e + 30720)
    (b, ((b : Int) - (e : Int)) * 256 / 20480, .normal)
  | some b0 =>
    let b := b0 + frameTicks
    let d : Int := (b : Int) - (e : Int)
    if d < 10240 then (b + frameTicks, (d + 20480) * 256 / 20480, .repeated)
    else if 51200 < d then (b0, (d - 20480) * 256 / 20480, .dropped)
    else (b, d * 256 / 20480, .normal)

def Dev.slip (d : Dev) (k : Nat) : SlipSt := FMap.get SlipSt.empty d.sys.slips k

def Dev.setSlip (d : Dev) (k : Nat) (x : SlipSt) : Dev :=
  { d with sys := { d.sys with slips := FMap.set SlipSt.empty d.sys.slips k x } }

/-- Delivery to a slip buffer restarts: its next frame is a first frame (R283). -/
def Dev.slipRestart (d : Dev) (k : Nat) : Dev := d.setSlip k { d.slip k with b := none }

/-! ### Meanings -/

/-- FSYNC_IN_EDGE (R97): accepted if the pin was low for 8 ticks before and stays high for 8 ticks after. -/
def execFsyncInEdge (lowBefore highAfter : Nat) (s : State) : Host.Outcome State Fault Refusal :=
  stay s (whenDev (fun _ => decide (8 ≤ lowBefore ∧ 8 ≤ highAfter)) (fun d => d.fsyncEdge d.timebase))

/-- FSYNC_PERIOD_TIMEOUT (R97). -/
def execFsyncPeriodTimeout (s : State) : Host.Outcome State Fault Refusal := stay s Dev.fsyncTimeout

/-- SOURCE_QUALIFIED (R274): an entry unfailed for SRC_QUAL seconds is qualified, and the selection follows. -/
def execSourceQualified (entry : Fin 4) (s : State) : Host.Outcome State Fault Refusal :=
  stay s (whenDev
    (fun d => !(d.entry entry).failed && !(d.entry entry).qualified && !d.entryFailed entry &&
      d.passed (d.entry entry).since (secTicks (d.rd DEV.SRC_QUAL)))
    (fun d => (((d.setEntry entry { d.entry entry with qualified := true }).showEntries).reselect)))

/-- TSTATE_LOCKED (R276). -/
def execTstateLocked (s : State) : Host.Outcome State Fault Refusal :=
  stay s (whenDev (fun d => d.rd DEV.TSTATE == tsAcquire && d.sys.okRun == 8000)
    (fun d => ({ d with sys := { d.sys with lockedAt := some d.timebase, farRun := 0 } }).wr DEV.TSTATE 0 0 tsLocked))

/-- TSTATE_UNLOCKED (R276). -/
def execTstateUnlocked (s : State) : Host.Outcome State Fault Refusal :=
  stay s (whenDev (fun d => d.rd DEV.TSTATE == tsLocked && d.sys.farRun == 16)
    (fun d => ({ d with sys := { d.sys with lockedAt := none, okRun := 0, mean := d.holdMean } }).wr DEV.TSTATE 0 0 tsAcquire))

/-- The device makes alignment jumps in READY, CAL, MAINT and STANDBY (R276). -/
def Mode.mayJump : Mode → Bool
  | .ready | .cal | .maint | .standby => true
  | _ => false

/-- An alignment jump: SYS_PHASE moves so that e becomes 0, the build-out returns to 0, the jump is counted (R276). -/
def Dev.alignJump (d : Dev) (ref : Nat) : Dev :=
  let e := phaseErr d.sys.sysPhase (ref : Int) d.effOffset
  if e.natAbs ≤ 16 then { d with sys := { d.sys with jumpDue := false } }
  else
    let p := (((d.sys.sysPhase : Int) + e) % 327680).toNat
    ({ d with sys := { d.sys with
        sysPhase := p
        buildOut := 0
        jumpDue := false
        nextFrame := nextAt p frameTicks d.timebase
        nextMf := nextAt p mfTicks d.timebase }, mangle := { d.mangle with nextWalk := nextAt p frameTicks d.timebase } }).inc DEV.ALIGN_JUMPS

/-- ALIGN_JUMP (R276), at the first system boundary after a selection outside RUN. -/
def execAlignJump (s : State) : Host.Outcome State Fault Refusal :=
  stay s (fun d =>
    if d.sys.jumpDue && d.mode.mayJump && d.tracking && decide (d.sys.nextFrame ≤ d.timebase) then
      match d.sys.sel.bind d.lastRef with
      | some r => d.alignJump r
      | none => d
    else d)

/-- HOLD_VALID_SET (R278). -/
def execHoldValidSet (s : State) : Host.Outcome State Fault Refusal :=
  stay s (fun d =>
    match d.sys.lockedAt with
    | some t => if t + secTicks 17 ≤ d.timebase then d.wr DEV.HOLD_VALID 0 0 1 else d
    | none => d)

end Sys2Proof.Machine
end

