-- ==== Sys2Proof/Machine/Line.lean ====
section
/-! DEFINITION. Converter links, the stamps of samples, RINSE, gain, the AFE SPI masters, clock supervision and GPIO (R78 to R108, R517). -/

namespace Sys2Proof.Machine

/-- Whether the unit is paired (R381). -/
def Dev.paired (d : Dev) : Bool := d.on (HDR.ENABLE .pair) && d.host.identity.isSome

/-! ### AFE SPI (R87, R105) -/

def Dev.master (d : Dev) (m : Nat) : MasterSt := FMap.get MasterSt.idle d.line.masters m

def Dev.setMaster (d : Dev) (m : Nat) (x : MasterSt) : Dev :=
  { d with line := { d.line with masters := FMap.set MasterSt.idle d.line.masters m x } }

/-- The link of a job. -/
def SpiJob.link : SpiJob → Nat
  | .idRead k => k
  | .owner k _ => k
  | .gainWrite p _ => portLink p

/-- The 24-bit frame of a job (R87). -/
def SpiJob.frame : SpiJob → Nat
  | .idRead _ => 2 ^ 23 + 0x12 * 2 ^ 16
  | .owner _ v => 0x10 * 2 ^ 16 + v
  | .gainWrite p c => portConv p * 2 ^ 16 + c

/-- The frame that reads RX_GAIN of a port (R87). -/
def gainReadFrame (n : Nat) : Nat := 2 ^ 23 + portConv n * 2 ^ 16

/-- The next managed transaction of a master starts, unless one runs, a raw one runs, or the master holds (R105); a unit in STANDBY
sends no AFE traffic (R102). -/
def Dev.spiKick (d : Dev) (m : Nat) : Dev :=
  let x := d.master m
  if x.current.isSome || x.raw || d.on AFEC.HOLD 0 m || d.on AFEC.HELD 0 m || d.mode == .standby then d
  else
    match x.queue with
    | [] => d.wr AFEC.BUSY 0 m 0
    | j :: r => ((d.setMaster m { x with queue := r, current := some j }).wr AFEC.BUSY 0 m 1).emit (.spi m (linkCs j.link) j.frame)

/-- Whether a job reads the ID of an AFE. -/
def SpiJob.isId : SpiJob → Bool
  | .idRead _ => true
  | _ => false

/-- A managed transaction queued. In STANDBY only the read of an ID waits for takeover (R87, R102). -/
def Dev.spiQueue (d : Dev) (j : SpiJob) : Dev :=
  if d.mode = .standby ∧ !j.isId then d
  else
    let m := linkMaster j.link
    (d.setMaster m { d.master m with queue := (d.master m).queue ++ [j] }).spiKick m

/-! ### Links (R82 to R89) -/

def Dev.link (d : Dev) (k : Nat) : LinkSt := FMap.get LinkSt.off d.line.links k

def Dev.setLink (d : Dev) (k : Nat) (x : LinkSt) : Dev := { d with line := { d.line with links := FMap.set LinkSt.off d.line.links k x } }

/-- The JLANE pages that name a link. -/
def Dev.linkLanes (d : Dev) (k : Nat) : List Nat := (List.range 48).filter (fun j => d.rd JLANE.LINK j == k)

/-- L of a link from L_CODE (R107). -/
def lanesOf (code : Nat) : Nat := match code with | 0 => 1 | 1 => 2 | _ => 4

/-- Whether every lane ID of a link appears exactly once and LANE_ID 0 is the lowest-numbered (R82). -/
def Dev.lanesAssigned (d : Dev) (k : Nat) : Bool :=
  let l := lanesOf (d.linkField k JLANE.L_CODE)
  let ps := (d.linkLanes k).filter (fun j => decide (d.rd JLANE.LANE_ID j < l))
  (List.range l).all (fun i => (ps.filter (fun j => d.rd JLANE.LANE_ID j == i)).length == 1) &&
  ps.all (fun j => d.on (HDR.ENABLE .jlane) j) && ps.head? == d.linkPage k

/-- Whether M and L are a combination of R81 and the lane rate lies in the range of R80 (R83). -/
def rateSupported (m l fs : Nat) : Bool :=
  (m == 8 || m == 16 || ((m == 4 || m == 12) && l != 4)) &&
  decide (800000 * 64 * l ≤ m * 12 * (4096 * 2 ^ fs) * 66 ∧ m * 12 * (4096 * 2 ^ fs) * 66 ≤ 32440000 * 64 * l)

/-- Whether a link can reach UP at all. -/
def Dev.linkSound (d : Dev) (k : Nat) : Bool :=
  d.lanesAssigned k &&
  rateSupported (d.linkField k JLANE.M) (lanesOf (d.linkField k JLANE.L_CODE)) (d.linkField k JLANE.FS_SEL)

/-- LINK_STATE and the locks of a link's lanes shown. -/
def Dev.showLink (d : Dev) (k : Nat) : Dev :=
  let x := d.link k
  let d1 := match d.linkPage k with
    | some j => d.wr JLANE.LINK_STATE j 0 x.mode.code
    | none => d
  if x.mode = .up then
    (d1.linkLanes k).foldl (fun d j => ((d.wr JLANE.CDR_LOCK j 0 1).wr JLANE.SH_LOCK j 0 1).wr JLANE.EMB_LOCK j 0 1) d1
  else
    (d1.linkLanes k).foldl (fun d j => ((d.wr JLANE.CDR_LOCK j 0 0).wr JLANE.SH_LOCK j 0 0).wr JLANE.EMB_LOCK j 0 0) d1

/-- A link in another state: its LEMC phase is set anew by the next SYSREF edge, and one that was UP brings no samples from now on (R88,
R89, R92). -/
def LinkSt.enter (x : LinkSt) (m : LinkMode) (now : Nat) : LinkSt :=
  { x with mode := m, since := now, lemc := none, downAt := if x.mode = .up then now else x.downAt }

/-- A link enters SYNCING; the next SYSREF edge sets its LEMC phase (R88, R89). -/
def Dev.linkSync (d : Dev) (k : Nat) : Dev := (d.setLink k ((d.link k).enter .syncing d.timebase)).showLink k

/-- A link fault or event on the link page. -/
def Dev.linkEvent (d : Dev) (k bit : Nat) : Dev :=
  match d.linkPage k with
  | some j => d.raise .jlane j bit
  | none => d

def Dev.linkFault (d : Dev) (k loc : Nat) : Dev :=
  match d.linkPage k with
  | some j => d.fault (srcJlane j loc)
  | none => d

/-- F and E of R81 shown on the link page. -/
def Dev.showFE (d : Dev) (k : Nat) : Dev :=
  match d.linkPage k with
  | some j =>
    let m := d.rd JLANE.M j
    let l := lanesOf (d.rd JLANE.L_CODE j)
    if (m == 8 || m == 16 || ((m == 4 || m == 12) && l != 4)) then
      (d.wr JLANE.F j 0 (m * 3 / (2 * l))).wr JLANE.E j 0 (embE m)
    else (d.wr JLANE.F j 0 0).wr JLANE.E j 0 0
  | none => d

/-- Whether a link's page enables it (R82). -/
def Dev.linkEnabled (d : Dev) (k : Nat) : Bool :=
  match d.linkPage k with
  | some j => d.on (HDR.ENABLE .jlane) j
  | none => false

/-- Links brought in line with their enables: a link newly enabled starts SYNCING, one no longer enabled stops (R88). -/
def Dev.followEnables (d : Dev) : Dev :=
  (List.range 32).foldl
    (fun d k =>
      if d.linkEnabled k then (if (d.link k).mode = .disabled then (d.linkSync k).showFE k else d.showFE k)
      else if (d.link k).mode = .disabled then d
      else (d.setLink k ((d.link k).enter .disabled d.timebase)).showLink k) d

/-- A link reaches UP: LINK_UP; at the first time the AFE's ID is read (R87, R88). -/
def Dev.linkUp (d : Dev) (k : Nat) : Dev :=
  let x := d.link k
  let d1 := ((d.setLink k { x with mode := .up, since := d.timebase, upAt := some d.timebase }).showLink k).linkEvent k 16
  if x.upAt.isSome then d1 else d1.spiQueue (.idRead k)

/-! ### LEMC and stamps (R81, R89, R90) -/

/-- The samples of one LEMC period: 256 × E / F (R81). -/
def Dev.lemcSamples (d : Dev) (k : Nat) : Nat :=
  let m := d.linkField k JLANE.M
  512 * embE m * lanesOf (d.linkField k JLANE.L_CODE) / max 1 (3 * m)

/-- The LEMC period in 1/65,536 tick: a sample lasts 163.84 / Fs ticks. -/
def Dev.lemcTicks (d : Dev) (k : Nat) : Nat := d.lemcSamples k * 40 * 65536 / 2 ^ d.linkField k JLANE.FS_SEL

/-- The release of the boundary that SYSREF marked, in 1/65,536 tick: RBD blocks of 1 / (32 E) period behind it (R90). A link that no SYSREF
edge has marked counts from TIMEBASE 0 (log entry 117). -/
def Dev.lemcRelease (d : Dev) (k : Nat) : Nat :=
  (d.link k).lemc.getD 0 + d.linkField k JLANE.RBD * d.lemcTicks k / (32 * embE (d.linkField k JLANE.M))

/-- The value recorded there: TIMEBASE at the release. -/
def Dev.lemcBase (d : Dev) (k : Nat) : Nat := d.lemcRelease k / 65536

/-- The stamp of a port's sample by its number from that boundary on: the recorded value plus its offset times 163.84 / Fs, rounded down (R90).
Every LEMC period is a whole number of ticks. -/
def Dev.stampOf (d : Dev) (n index : Nat) : Nat := d.lemcBase (portLink n) + index * 40 / max 1 (d.portUnits n)

/-- The number of the sample that a port's stamps place at or after a TIMEBASE value. -/
def Dev.sampleAt (d : Dev) (n t : Nat) : Nat := ceilDiv ((t - d.lemcBase (portLink n)) * d.portUnits n) 40

/-- Whether the converter of a port is present (R80). -/
def Dev.converter (d : Dev) (n : Nat) : Bool := decide (portConv n < d.linkField (portLink n) JLANE.M)

/-- Whether a sample stamped so arrived: the converter is present and its link was UP (R80, R82, R92). -/
def Dev.delivered (d : Dev) (n stamp : Nat) : Bool :=
  let x := d.link (portLink n)
  d.converter n && (decide (stamp < x.downAt) || (x.mode == .up && match x.upAt with | some t => decide (t ≤ stamp) | none => false))

/-! ### Gain (R99 to R104) -/

def Dev.rinse (d : Dev) (n : Nat) : RinseSt := FMap.get RinseSt.reset d.line.rinse n

def Dev.setRinse (d : Dev) (n : Nat) (x : RinseSt) : Dev :=
  { d with line := { d.line with rinse := FMap.set RinseSt.reset d.line.rinse n x } }

/-- A gain setting fails: GAIN_STATE 2, GAIN_FAIL with the port and cause (R100). -/
def Dev.gainFail (d : Dev) (n cause : Nat) : Dev :=
  let d1 := ((d.setRinse n { d.rinse n with gain := none }).wr AFEC.GAIN_STATE 0 n 2)
  let d2 := if d1.on AFEC.GF_VALID then d1
    else ((d1.wr AFEC.GF_VALID 0 0 1).wr AFEC.GF_CAUSE 0 0 cause).wr AFEC.GF_PORT 0 0 n
  ((d2.raise .afec 0 0).raise .port n 15).fault srcAfec

/-- Device-managed traffic for a new code starts (R99); without an AFE it fails at once (R100). -/
def Dev.gainStart (d : Dev) (n code : Nat) : Dev :=
  let d1 := d.wr AFEC.GAIN_STATE 0 n 1
  if (d.rd AFEC.AFE_PRESENT).testBit (portLink n) then
    (d1.setRinse n { d1.rinse n with gain := some ⟨code, none, 0, none, 1, 0, none⟩ }).spiQueue (.gainWrite n code)
  else d1.gainFail n 2

/-- One byte of a PORT_GAIN word (R99, R101). A byte written back to the code that is pending leaves no newer one to send (DESIGN CHOICE, log
entry 120). -/
def Dev.gainByte (d : Dev) (n code : Nat) : Dev :=
  let d1 := d.wr AFEC.PORT_GAIN 0 n code
  match (d.rinse n).gain with
  | some g => if code = g.code then d1.setRinse n { d1.rinse n with gain := some { g with newest := none } }
              else d1.setRinse n { d1.rinse n with gain := some { g with newest := some code } }
  | none => if code ≠ d.rd AFEC.GAIN_APPLIED 0 n ∨ d.rd AFEC.GAIN_STATE 0 n = 2 then d1.gainStart n code else d1

/-- The newest code is sent once the pending traffic has reported its outcome (R101). -/
def Dev.gainNext (d : Dev) (n : Nat) (newest : Option Nat) : Dev :=
  match newest with
  | some c => d.gainStart n c
  | none => d

/-- A read-back succeeds (R100): the code is applied and the advice window restarts at the next boundary (R104). -/
def Dev.gainOk (d : Dev) (n : Nat) (g : GainJob) : Dev :=
  let x := d.rinse n
  (((d.setRinse n { x with gain := none, windowOff := true }).wr AFEC.GAIN_APPLIED 0 n g.code).wr AFEC.GAIN_STATE 0 n 0).gainNext n
    g.newest

/-- The ticks a pending gain has waited, without the time that HELD stood (R105). -/
def GainJob.waited (g : GainJob) (now : Nat) : Nat :=
  match g.since with
  | some t => (match g.heldAt with | some h => h | none => now) - t - g.paused
  | none => 0

/-- Whether a level, as a ratio to full scale, lies less than 1.0 dB from a target in 0.25 dBFS units (R104). -/
def nearTarget (num den : Nat) (target : Int) : Bool := !dbGe num den (target + 4) && !dbGe den num (4 - target)

/-- The distance from a level to a target in 0.5 dB steps, to the nearest, ties toward lower gain (R104): the least k with
level ≥ target − k / 2 dB − 0.25 dB. -/
def stepsTo (num den : Nat) (target : Int) : Int := -lastWhere (fun j => dbGe num den (target + 2 * j - 1)) 8 (-128)

/-- GAIN_ADVICE of R104 in 0.5 dB units: the mean level as a ratio to full scale, the target in 0.25 dBFS units. -/
def gainAdvice (quiet overs : Bool) (code : Nat) (target : Int) (num den : Nat) : Int :=
  if quiet then 0
  else
    let k0 := stepsTo num den target
    let k := if overs then min k0 (-6) else if nearTarget num den target then 0 else k0
    let lo : Int := -(code : Int)
    let hi : Int := 63 - (code : Int)
    if k < lo then lo else if hi < k then hi else k

/-! ### RINSE (R84, R91 to R93, R103) -/

/-- The 10-bit sample of a receive word (R84). -/
def sampleOf (w : Nat) : Int := signedOf 10 (w / 4 % 1024)
/-- Whether it is over-range (R93). -/
def overRange (w : Nat) : Bool := w.testBit 1 || sampleOf w == -512 || sampleOf w == 511

/-- Whether sample number `i` of a port is filled: it did not arrive, or SAMPLE_FILL named it (R92). -/
def Dev.sampleFilled (d : Dev) (n i : Nat) : Bool :=
  !d.delivered n (d.stampOf n i) || (d.rinse n).fills.any (fun e => decide (e.1 ≤ i ∧ i < e.1 + e.2))

/-- The samples of a port-frame with their numbers, the last of which is `index`: the word, and whether it is filled; a filled one is 0 with
both flags 0 (R92). -/
def Dev.rinseWords (d : Dev) (n index : Nat) (ws : List Nat) : List (Nat × Nat × Bool) :=
  (ws.zipIdx).map (fun x =>
    let i := index + 1 + x.2 - ws.length
    if d.sampleFilled n i then (i, 0, true) else (i, x.1 % 4096, false))

/-- The events and counts of a finished receive port-frame: fills, over-range and alarm samples (R92, R93), with the over-range flag of the
advice window (R104). -/
def Dev.rinseCounts (d : Dev) (n overs : Nat) (filled alarm : Bool) : Dev :=
  let x := d.rinse n
  let fr := if filled then min 8 (x.fillRun + 1) else 0
  let cr := if filled then 0 else min 16 (x.cleanRun + 1)
  let loss := if fr = 8 then true else if cr = 16 then false else x.loss
  let om := x.overMf + overs
  let hit := decide (x.overMf < d.rd AFEC.OVR_LIMIT ∧ d.rd AFEC.OVR_LIMIT ≤ om)
  let d1 := d.setRinse n { x with
    fillRun := fr
    cleanRun := cr
    loss := loss
    overMf := om
    alarmPrev := alarm
    windowOvr := x.windowOvr || decide (0 < overs) }
  let d2 := if filled then d1.inc PORT.SAMPLE_GAP n else d1
  let d3 := (d2.cond .port n 12 loss).faultCond (srcPort n) loss
  let d4 := d3.inc PORT.OVR_COUNT n 0 overs
  let d5 := if hit then d4.raise .port n 14 else d4
  let d6 := if alarm then d5.inc PORT.ALARM_FRAMES n else d5
  if alarm && !x.alarmPrev then d6.raise .port n 13 else d6

/-- A multiframe's count of over-range samples ends, and the advice window takes the multiframe, or restarts (R93, R104). -/
def Dev.rinseMfEnd (d : Dev) (n : Nat) : Dev :=
  let x := d.rinse n
  let d1 := d.setRinse n { x with
    overMf := 0
    windowOvr := x.windowOvr && !x.windowOff
    window := if x.windowOff then 0 else min 16 (x.window + 1)
    windowOff := false }
  if d.rd AFEC.OVR_LIMIT == 0 then d1.raise .port n 14 else d1

/-- The mean power of a multiframe, in squared 1/65,536 codes: RX_LEVEL shows it, and the last 16 form GAIN_ADVICE (R103, R104). -/
def Dev.showLevel (d : Dev) (n pow : Nat) : Dev :=
  (d.setRinse n { d.rinse n with powers := (pow :: (d.rinse n).powers).take 16 }).wr AFEC.RX_LEVEL 0 n (codeOf 10 (dbfs pow 1))

/-! ### Meanings -/

/-- JLANE_ENABLE_WRITE (R88): the CTRL word of a JLANE page. -/
def execJlaneEnableWrite (lane : Fin 48) (value : Word) (s : State) : Host.Outcome State Fault Refusal :=
  unlessMisuse (s.dev.wordMisuse .jlane lane 8 value.toNat)
    (stay s (whenDev (fun d => d.writable .jlane)
      (fun d => (d.writeFields (0x20000 + 4096 * lane.val + 8) .jlane lane 8 value.toNat).followEnables)))

/-- LINK_SYNC_DONE (R88). -/
def execLinkSyncDone (link : Fin 32) (s : State) : Host.Outcome State Fault Refusal :=
  stay s (whenDev (fun d => (d.link link).mode == .syncing && d.linkSound link) (fun d => d.linkUp link))

/-- LINK_SYNC_TIMEOUT (R88). -/
def execLinkSyncTimeout (link : Fin 32) (s : State) : Host.Outcome State Fault Refusal :=
  stay s (whenDev
    (fun d => (d.link link).mode == .syncing && d.passed (d.link link).since (msTicks (d.linkField link JLANE.SYNC_TIMEOUT)))
    (fun d => ((((d.setLink link ((d.link link).enter .failed d.timebase)).showLink link).linkEvent link 18).linkFault
      link 0)))

/-- LINK_RETRY (R88). -/
def execLinkRetry (link : Fin 32) (s : State) : Host.Outcome State Fault Refusal :=
  stay s (whenDev (fun d => (d.link link).mode == .failed && d.passed (d.link link).since (msTicks 100)) (fun d => d.linkSync link))

/-- The lane events and counts of errors on a lane (R88, R107): sync headers counted invalid, of which 16 within 64 blocks unlock it. -/
def Dev.laneLoss (d : Dev) : LinkLoss → Dev
  | .syncHeaders j bad => let d1 := (d.inc JLANE.SH_ERR j 0 bad).raise .jlane j 1; if 16 ≤ bad then d1.raise .jlane j 0 else d1
  | .marker j => d.raise .jlane j 0
  | .elastic j => d.raise .jlane j 3

/-- Whether an error report takes the link down: fewer than 16 invalid sync headers within 64 blocks are only counted (R88). -/
def lossDown : LinkLoss → Bool
  | .syncHeaders _ bad => decide (16 ≤ bad)
  | _ => true

/-- LINK_DOWN (R88). -/
def execLinkDown (link : Fin 32) (why : LinkLoss) (s : State) : Host.Outcome State Fault Refusal :=
  stay s (whenDev (fun d => (d.link link).mode == .up)
    (fun d => if lossDown why then (((d.laneLoss why).linkSync link).linkEvent link 17).linkFault link 1 else d.laneLoss why))

/-- JESD_CRC12_ERROR (R88). -/
def execJesdCrc12Error (lane : Fin 48) (s : State) : Host.Outcome State Fault Refusal :=
  stay s (fun d => (d.inc JLANE.CRC12_ERR lane).raise .jlane lane 2)

/-- The distance of an instant from the nearest LEMC boundary, both in 1/65,536 tick (R89). -/
def lemcDist (phase period t : Nat) : Nat :=
  let r := if phase ≤ t then (t - phase) % max 1 period else (max 1 period - (phase - t) % max 1 period) % max 1 period
  min r (period - r)

/-- SYSREF_EDGE (R89): `frac` is the part of the tick at which it falls. The first edge since the link entered SYNCING sets the LEMC phase; a
later one more than one JREFCLK period from a boundary is misaligned, and re-aligns the phase only with SYSREF_TRACK. -/
def execSysrefEdge (link : Fin 32) (frac : Fin 65536) (s : State) : Host.Outcome State Fault Refusal :=
  stay s (fun d =>
    let x := d.link link
    let t := d.timebase * 65536 + frac.val
    if x.mode = .disabled then d
    else
      match x.lemc with
      | none => d.setLink link { x with lemc := some t }
      | some p =>
        if 163840 * 65536 < lemcDist p (d.lemcTicks link) t * Config.jrefKHz then
          let d1 := match d.linkPage link with
            | some j => d.inc JLANE.SYSREF_MISALIGN j
            | none => d
          let d2 := (d1.linkEvent link 19).linkFault link 2
          if d2.linkField link JLANE.SYSREF_TRACK = 1 then
            let d3 := d2.linkSync link
            d3.setLink link { d3.link link with lemc := some t }
          else d2
        else d)

/-- SAMPLE_FILL (R92): samples that have not arrived 2 µs after the expected stamp of the last of them are filled. -/
def execSampleFill (port : Fin 512) (first count : Nat) (s : State) : Host.Outcome State Fault Refusal :=
  stay s (whenDev (fun d => decide (0 < count ∧ d.stampOf port (first + count - 1) + usTicks 2 ≤ d.timebase))
    (fun d => d.setRinse port { d.rinse port with fills := (d.rinse port).fills ++ [(first, count)] }))

/-- AFE_SPI_DONE (R87, R99): a managed transaction completes with the data read. -/
def execAfeSpiDone (master : Fin 4) (rx : Nat) (s : State) : Host.Outcome State Fault Refusal :=
  stay s (fun d =>
    match (d.master master).current with
    | none => d
    | some j =>
      let d1 := (d.setMaster master { d.master master with current := none }).wr AFEC.BUSY 0 master 0
      let d2 :=
        match j with
        | .idRead k =>
          if rx / 256 % 256 = 0x96 then
            let d2 := d1.wr AFEC.AFE_PRESENT 0 0 (orBit (d1.rd AFEC.AFE_PRESENT) k)
            if d2.paired then d2 else d2.spiQueue (.owner k (d2.rd DEV.PAIR_ROLE))
          else d1
        | .owner _ _ => d1
        | .gainWrite p _ =>
          match (d1.rinse p).gain with
          | some g => d1.setRinse p { d1.rinse p with gain := some { g with since := some d1.timebase } }
          | none => d1
      d2.spiKick master)

/-- REFCLK_COUNT_WINDOW (R98): the REFCLK and JREFCLK ticks counted over 1 ms. Four windows in a row out of range raise the drift fault:
±16 of 163,840 for REFCLK, ±100 ppm of its frequency for JREFCLK. -/
def execRefclkCountWindow (refTicks jrefTicks : Nat) (s : State) : Host.Outcome State Fault Refusal :=
  stay s (fun d =>
    let a := if 163824 ≤ refTicks ∧ refTicks ≤ 163856 then 0 else d.line.refBad + 1
    let b := if ((jrefTicks : Int) - (Config.jrefKHz : Int)).natAbs * 10000 ≤ Config.jrefKHz then 0 else d.line.jrefBad + 1
    let d1 := { d with line := { d.line with refBad := min 5 a, jrefBad := min 5 b } }
    let d2 := if a = 4 then d1.fault (srcDev 2) else d1
    if b = 4 then d2.fault (srcDev 3) else d2)

/-- A sample of a GPIO input: how often in a row it has read the same level at samples at least 10 µs apart (R95). -/
def PinSt.sample (x : PinSt) (level : Bool) (now : Nat) : PinSt :=
  if x.run = 0 ∨ level ≠ x.level then ⟨level, 1, now⟩
  else if x.at_ + usTicks 10 ≤ now then ⟨level, min 3 (x.run + 1), now⟩
  else x

/-- The level at a GPIO ball: the device's own on an output pin, else the one applied (R517). -/
def Dev.gpioBall (d : Dev) (pin : Nat) (applied : Bool) : Bool :=
  if (d.rd DEV.GPIO_OE).testBit pin then (d.rd DEV.GPIO_OUT).testBit pin else applied

/-- GPIO_INPUT_CHANGE (R95, R517): a sample of a pin; the third equal one 10 µs apart is accepted as its level. -/
def execGpioInputChange (pin : Fin 16) (applied : Bool) (s : State) : Host.Outcome State Fault Refusal :=
  stay s (fun d =>
    let level := d.gpioBall pin applied
    let x := (FMap.get PinSt.reset d.line.gpio pin).sample level d.timebase
    let d0 := { d with line := { d.line with gpio := FMap.set PinSt.reset d.line.gpio pin x } }
    let v := d0.rd DEV.GPIO_IN
    if x.run < 3 || v.testBit pin == level then d0
    else
      let d1 := d0.wr DEV.GPIO_IN 0 0 (if level then orBit v pin else v - 2 ^ pin.val)
      if (d.rd DEV.GPIO_EVT_EN).testBit pin then
        (d1.wr DEV.GPIO_CHANGED 0 0 (orBit (d1.rd DEV.GPIO_CHANGED) pin)).raise .dev 0 13
      else d1)

/-- The word of PORT_GAIN as it reads. -/
def Dev.gainWord (d : Dev) (word : Nat) : Nat := (List.range 4).foldl (fun v b => v + d.rd AFEC.PORT_GAIN 0 (4 * word + b) * 2 ^ (8 * b)) 0

/-- PORT_GAIN_WRITE (R99): a word of four codes; ignored in STANDBY, journalled at the active unit of a pair (R102, R395). -/
def execPortGainWrite (word : Fin 128) (value : Word) (s : State) : Host.Outcome State Fault Refusal :=
  unlessMisuse (s.dev.wordMisuse .afec 0 (0x100 + 4 * word.val) value.toNat)
    (stay s (whenDev (fun d => d.writable .afec && d.mode != .standby)
      (fun d =>
        let d1 := (List.range 4).foldl (fun d b => d.gainByte (4 * word.val + b) (value.toNat / 2 ^ (8 * b) % 64)) d
        d1.jrnAdd 1 [0xB100 + 4 * word.val, d1.gainWord word])))

/-- Whether a read-back of a pending gain goes out (R99, R100, R102, R105): the write has ended, 100 µs have passed since it or the last one, at
most 2 ms since the write, and the master is free. -/
def Dev.readsBack (d : Dev) (n : Nat) (g : GainJob) : Bool :=
  let m := linkMaster (portLink n)
  g.since.isSome && decide (usTicks 100 * (g.reads + 1) ≤ g.waited d.timebase ∧ g.waited d.timebase ≤ msTicks 2) &&
  (d.master m).current.isNone && !(d.master m).raw && !d.on AFEC.HOLD 0 m && !d.on AFEC.HELD 0 m && d.mode != .standby

/-- GAIN_READBACK (R99, R100): RX_GAIN is read back, and shows the code in effect and whether it has settled. The cause that a timeout reports is
that of the last read-back, "not settled" where none was made (DESIGN CHOICE, log entry 121). -/
def execGainReadback (port : Fin 512) (code : Nat) (settled : Bool) (s : State) : Host.Outcome State Fault Refusal :=
  stay s (fun d =>
    match (d.rinse port).gain with
    | none => d
    | some g =>
      if !d.readsBack port g then d
      else
        let d1 := d.emit (.spi (linkMaster (portLink port)) (linkCs (portLink port)) (gainReadFrame port))
        if code = g.code ∧ settled then d1.gainOk port g
        else d1.setRinse port { d1.rinse port with gain := some { g with
          reads := g.reads + 1
          cause := if code = g.code then 1 else 0 } })

/-- GAIN_READBACK_TIMEOUT (R100). -/
def execGainReadbackTimeout (port : Fin 512) (s : State) : Host.Outcome State Fault Refusal :=
  stay s (fun d =>
    match (d.rinse port).gain with
    | none => d
    | some g =>
      if g.since.isSome ∧ msTicks 2 ≤ g.waited d.timebase then (d.gainFail port g.cause).gainNext port g.newest else d)

/-- GAIN_ADVICE_UPDATE (R104): after a window of 16 multiframes, from the mean of their powers. -/
def execGainAdviceUpdate (port : Fin 512) (s : State) : Host.Outcome State Fault Refusal :=
  stay s (whenDev (fun d => 16 ≤ (d.rinse port).window)
    (fun d =>
      let target := if d.rd PORT.LC_ACTIVE port = 2 then d.rdS AFEC.TARGET_PAM else d.rdS AFEC.TARGET_CHIRP
      let k := gainAdvice (d.defect port 0 || d.rd AFEC.GAIN_STATE 0 port != 0) (d.rinse port).windowOvr
        (d.rd AFEC.PORT_GAIN 0 port) target (2 * sumOf (d.rinse port).powers) (16 * fullScale2)
      (d.wr AFEC.GAIN_ADVICE 0 port (codeOf 8 k)).setRinse port { d.rinse port with window := 0, windowOvr := false }))

/-- The timers of R100 that run on a master stop while HELD is 1 and run on when it clears (R105). -/
def Dev.pauseGain (d : Dev) (m : Nat) (held : Bool) : Dev :=
  ((List.range 128).map (fun i => 128 * m + i)).foldl
    (fun d n =>
      match (d.rinse n).gain with
      | some g =>
        let g' := if g.since.isNone then g
          else if held then { g with heldAt := some d.timebase }
          else match g.heldAt with
            | some h => { g with heldAt := none, paused := g.paused + (d.timebase - h) }
            | none => g
        d.setRinse n { d.rinse n with gain := some g' }
      | none => d) d

/-- HOLD of a master released: HELD ends, managed traffic goes on (R105). -/
def Dev.releaseHold (d : Dev) (m : Nat) : Dev :=
  let d1 := (d.wr AFEC.HOLD 0 m 0).wr AFEC.HELD 0 m 0
  let d2 := if d.on AFEC.HELD 0 m then d1.pauseGain m false else d1
  d2.spiKick m

/-- AFEC_HOLD_WRITE (R105): the SPI_CFG word of a master. -/
def execAfecHoldWrite (master : Fin 4) (value : Word) (s : State) : Host.Outcome State Fault Refusal :=
  unlessMisuse (s.dev.wordMisuse .afec 0 (0x40 + 4 * master.val) value.toNat)
    (stay s (whenDev (fun d => d.writable .afec)
      (fun d =>
        let d1 := d.writeFields (0xB040 + 4 * master.val) .afec 0 (0x40 + 4 * master.val) value.toNat
        if d1.on AFEC.HOLD 0 master then d1 else d1.releaseHold master)))

/-- SPI_HELD (R105). -/
def execSpiHeld (master : Fin 4) (s : State) : Host.Outcome State Fault Refusal :=
  stay s (whenDev
    (fun d => d.on AFEC.HOLD 0 master && !d.on AFEC.HELD 0 master && (d.master master).current.isNone)
    (fun d => ((d.wr AFEC.HELD 0 master 1).pauseGain master true).raise .afec 0 (1 + master.val)))

/-- AFEC_RAW_GO (R108): the RAW_CTRL word with GO; raw access without HELD is misuse (R105). In STANDBY the unit sends no AFE traffic, so GO
starts nothing (R102). -/
def execAfecRawGo (value : Word) (s : State) : Host.Outcome State Fault Refusal :=
  let v := value.toNat
  let m := v / 16 % 4
  let mis := match s.dev.wordMisuse .afec 0 0x60 v with
    | some k => some k
    | none => if v.testBit 31 && s.dev.writable .afec && !s.dev.on AFEC.HELD 0 m then some .rawSpi else none
  unlessMisuse mis
    (stay s (whenDev (fun d => d.writable .afec)
      (fun d =>
        let d1 := d.writeFields 0xB060 .afec 0 0x60 v
        if v.testBit 31 && !d1.on AFEC.RAW_GO && d1.mode != .standby then
          (((d1.wr AFEC.RAW_GO 0 0 1).wr AFEC.BUSY 0 m 1).setMaster m { d1.master m with raw := true }).emit
            (.spi m (v % 8) (d1.rd AFEC.RAW_TX))
        else d1)))

/-- RAW_SPI_DONE (R108). -/
def execRawSpiDone (rx : Nat) (s : State) : Host.Outcome State Fault Refusal :=
  stay s (whenDev (fun d => d.on AFEC.RAW_GO)
    (fun d =>
      (List.range 4).foldl
        (fun d m =>
          if (d.master m).raw then
            let d1 := (d.setMaster m { d.master m with
              raw := false
              release := false }).wr AFEC.BUSY 0 m 0
            if (d.master m).release then d1.releaseHold m else d1.spiKick m
          else d)
        ((d.wr AFEC.RAW_RX 0 0 rx).wr AFEC.RAW_GO 0 0 0)))

end Sys2Proof.Machine
end

