-- ==== Sys2Proof/Machine/LineCode.lean ====
section
/-! DEFINITION. The line-code settings of a port: which combinations are allowed, what a frame carries, what a burst carries
(R109, R110, R114 to R117, R124, R136 to R144, R169, R170, R182, R183, R202, R211, R253, R279). -/

namespace Sys2Proof.Machine

/-! ### Ports and stations -/

/-- The station context of station `s` of port `n` (R137). -/
def stnKey (n s : Nat) : Nat := 32 * n + s

def Dev.stn (d : Dev) (n s : Nat) : StnRx := FMap.get StnRx.reset d.lines.stns (stnKey n s)

def Dev.setStn (d : Dev) (n s : Nat) (x : StnRx) : Dev :=
  { d with lines := { d.lines with stns := FMap.set StnRx.reset d.lines.stns (stnKey n s) x } }

def Dev.modStn (d : Dev) (n s : Nat) (f : StnRx → StnRx) : Dev := d.setStn n s (f (d.stn n s))

/-- Whether a port is shared (R136). -/
def Dev.shared (d : Dev) (n : Nat) : Bool := d.on PORT.SHARED n

/-! ### Settings -/

/-- What a line code setting gives (R114, R170). -/
structure Geom where
  sf    : Nat
  depth : Nat
  cr    : Nat
  syms  : Nat     -- symbols per frame
  coded : Nat     -- Q
  info  : Nat     -- I
  slots : Nat
  deriving DecidableEq, Repr

/-- The code rate of a code as a fraction. -/
def rateNum (cr : Nat) : Nat := match cr with | 1 => 2 | 2 => 3 | _ => 1
def rateDen (cr : Nat) : Nat := match cr with | 1 => 3 | 2 => 4 | _ => 2
/-- Q must be divisible by this (R114). -/
def rateStep (cr : Nat) : Nat := match cr with | 1 => 3 | 2 => 4 | _ => 2

/-- The information bits of Q coded bits and the slot count (R114). -/
def infoOf (cr q : Nat) : Nat := q * rateNum cr / rateDen cr
def slotsOf (i : Nat) : Nat := min 96 (i / 10 - 2)

/-- The chirp setting of a port (R110, R114). -/
def Dev.chirpGeom (d : Dev) (n : Nat) : Geom :=
  let sf := 6 + d.rd PORT.SF_CODE n
  let depth := 2 ^ d.rd PORT.D_CODE n
  let cr := d.rd PORT.CR n
  let s := 128 * d.portUnits n / 2 ^ sf
  let q := s * sf * depth
  { sf := sf, depth := depth, cr := cr, syms := s, coded := q, info := infoOf cr q, slots := slotsOf (infoOf cr q) }

/-- Whether a PORT_WORD is valid at a spreading factor (R124). -/
def portWordOk (sf w : Nat) : Bool :=
  let g := gray (w / 2 ^ sf % 2 ^ sf)
  decide (2 ≤ g ∧ g ≤ 2 ^ sf - 2)

/-- Whether the chirp setting is allowed (R109, R114, R124). -/
def Dev.chirpAllowed (d : Dev) (n : Nat) : Bool :=
  let g := d.chirpGeom n
  decide (4 ≤ d.portUnits n) && decide (1 ≤ g.syms) && decide (d.rd PORT.D_CODE n ≤ 2) && decide (d.rd PORT.CR n ≤ 2) &&
  decide (g.coded % rateStep g.cr = 0) && decide (30 ≤ g.info) && portWordOk g.sf (d.rd PORT.PORT_WORD n)

/-- C, W, WINDOW_SYMS, Y and BURST_SYMS of a shared port (R140, R144). -/
def Dev.burstCycle (d : Dev) (n : Nat) : Nat := if d.on PORT.CYCLE n then 32 else 16
def Dev.windowSyms (d : Dev) (n : Nat) : Nat := d.burstCycle n * (d.chirpGeom n).syms / max 1 (d.rd PORT.WINDOWS n)
/-- Y for K frames (R144): the smallest that closes the pattern, searched upward from the size that carries the bits. -/
def Dev.payloadSyms (d : Dev) (n k : Nat) : Nat :=
  let g := d.chirpGeom n
  let row := g.sf * g.depth
  let y0 := ceilDiv ((k * 10 * (2 + d.rd PORT.BURST_SLOTS n) + 16) * rateDen g.cr) (max 1 (row * rateNum g.cr))
  ((List.range 4).map (fun k => y0 + k)).find? (fun y => y * row % rateStep g.cr == 0) |>.getD y0

def Dev.burstSyms (d : Dev) (n : Nat) : Nat := d.payloadSyms n (d.burstCycle n) + 14

/-- TIMEBASE ticks of one chip (R109): B is 1.024 MHz per unit of 4.096 MS/s. -/
def Dev.chipTicks (d : Dev) (n : Nat) : Nat := 160 / max 1 (d.portUnits n)
/-- TIMEBASE ticks of one symbol (R110). -/
def Dev.symTicks (d : Dev) (n : Nat) : Nat := d.chipTicks n * 2 ^ (d.chirpGeom n).sf

/-- Whether a shared port's further conditions hold (R138). -/
def Dev.sharedAllowed (d : Dev) (n : Nat) : Bool :=
  let g := d.chirpGeom n
  decide (16 ≤ g.syms) && decide (2 ≤ d.rd PORT.WINDOWS n ∧ d.rd PORT.WINDOWS n ≤ 16) && decide (1 ≤ d.rd PORT.BURST_SLOTS n) &&
  decide (d.burstSyms n ≤ d.windowSyms n) &&
  decide (14 + ceilDiv (d.rd PORT.MAX_RTT n * 1024 * d.portUnits n) (1000 * 2 ^ g.sf) ≤ d.windowSyms n)

/-- CFG_VALID (R114, R117, R124, R138). -/
def Dev.cfgValid (d : Dev) (n : Nat) : Bool := d.chirpAllowed n && (!d.shared n || d.sharedAllowed n)

/-- Symbols per frame of a PAM baud code (R169). -/
def pamSyms (b : Nat) : Nat := match b with | 0 => 128 | 1 => 256 | _ => 512
/-- Bits per PAM symbol. -/
def Dev.pamBits (d : Dev) (n : Nat) : Nat := if d.on PORT.PAM_MOD n then 3 else 2

/-- The PAM setting of a port (R170). -/
def Dev.pamGeom (d : Dev) (n : Nat) : Geom :=
  let s := pamSyms (d.rd PORT.PAM_BAUD n)
  let cr := d.rd PORT.PAM_CR n
  let q := s * d.pamBits n
  { sf := 0, depth := 1, cr := cr, syms := s, coded := q, info := infoOf cr q, slots := slotsOf (infoOf cr q) }

/-- PAM_CFG_VALID (R170, R79, R183): the baud rate needs 4.096 MS/s per 1.024 Mbaud. -/
def Dev.pamValid (d : Dev) (n : Nat) : Bool :=
  let g := d.pamGeom n
  decide (d.rd PORT.PAM_BAUD n ≤ 2) && decide (d.rd PORT.PAM_CR n ≤ 2) && decide (g.coded % rateStep g.cr = 0) &&
  decide (2 ^ d.rd PORT.PAM_BAUD n ≤ d.portUnits n)

/-- Whether a port runs PAM at present (LC_ACTIVE). -/
def Dev.isPam (d : Dev) (n : Nat) : Bool := d.rd PORT.LC_ACTIVE n == 2

/-- The setting of the line code in use. -/
def Dev.geom (d : Dev) (n : Nat) : Geom := if d.isPam n then d.pamGeom n else d.chirpGeom n

/-- A TRIB port in Profile L is handled as an invalid configuration (R279). -/
def Dev.timingBad (d : Dev) (n : Nat) : Bool := d.rd PORT.TIMING_MODE n == 2 && !d.on DEV.RATE_PROFILE && !d.shared n

/-- Whether the port's present line code cannot run (R117, R183, R279). -/
def Dev.cfgBad (d : Dev) (n : Nat) : Bool := (if d.isPam n then !d.pamValid n else !d.cfgValid n) || d.timingBad n

/-- Downstream slots of a port in the line code in use; 0 while it is DISABLED or cannot run. -/
def Dev.slots (d : Dev) (n : Nat) : Nat :=
  if d.rd PORT.LC_ACTIVE n = 0 || d.cfgBad n then 0 else (d.geom n).slots

/-- W of R211 of a port's frames, and of a station's on a shared port. -/
def Dev.rxWords (d : Dev) (n : Nat) : Nat := 2 + (if d.shared n then d.rd PORT.BURST_SLOTS n else d.slots n)

/-- The timing mode in effect: a shared port is always LOOP (R279). -/
def Dev.timingMode (d : Dev) (n : Nat) : Nat := if d.shared n then 0 else d.rd PORT.TIMING_MODE n

/-- DARN_DELAY (R202). -/
def Dev.darnDelay (d : Dev) (n : Nat) : Nat := ceilDiv d.traceback (max 1 (d.geom n).info)

/-- DET_THRESH (R125), 0.25 dB units. -/
def Dev.detThresh (d : Dev) (n : Nat) : Nat := d.rd PORT.NOISE_FLOOR n + d.rd PORT.DET_FACTOR n + (if d.prog = 0 then 6 else 0)

/-- The collision mode in effect: FORK (R161). -/
def Dev.forkMode (d : Dev) (n : Nat) : Bool := d.on PORT.COLL_MODE n && d.prog != 0

/-! ### Frames on the line -/

/-- The phase of a port's downstream multiframes within the system multiframe (log entry 22). -/
def Dev.dsPhase (d : Dev) (n : Nat) : Nat := d.sys.sysPhase + (Config.dsPhase n % 16) * frameTicks

/-- The first downstream multiframe boundary of a port after a TIMEBASE value. -/
def Dev.dsAfter (d : Dev) (n t : Nat) : Nat := nextAt (d.dsPhase n) mfTicks (t + 1)

/-- System multiframes ended with the port-frames of reference boundaries up to `ref`: what is measured per multiframe ends with the first
port-frame that reaches the last frame's boundary or one behind it (log entry 24). -/
def Dev.mfEnded (d : Dev) (ref : Nat) : Nat := (ref + frameTicks + mfTicks - d.sys.sysPhase % mfTicks) / mfTicks

/-! ### SD and SF thresholds (R253) -/

/-- Block size n of R253; a DISABLED port's is that of its chirp setting, which N_SLOTS shows. -/
def Dev.blockBits (d : Dev) (n : Nat) : Nat :=
  let w := if d.rd PORT.LC_ACTIVE n = 0 && !d.shared n && d.cfgValid n then 2 + (d.chirpGeom n).slots else d.rxWords n
  160 * w - 80

/-- p(10^−e) of a block of n bits, as a fraction over 10^(e n). -/
def errNum (e n : Nat) : Nat := 10 ^ (e * n) - (10 ^ e - 1) ^ n
/-- k(10^−e) (R253). -/
def winK (e n : Nat) : Nat := (((List.range 21).map (fun i => i + 4)).find? (fun k => decide (8 * 10 ^ (e * n) ≤ 2 ^ k * errNum e n))).getD 24
/-- The declaring and clearing counts (R253). -/
def winDecl (e n : Nat) : Nat := max 1 (ceilDiv (2 ^ winK e n * errNum e n) (10 ^ (e * n)))
def winClr (e n : Nat) : Nat := 2 ^ winK e n * errNum e n / 10 ^ (e * n)

/-- The eight values of R253 formed anew. -/
def Dev.formWindows (d : Dev) (n : Nat) : Dev :=
  let b := d.blockBits n
  let sd := d.rd PORT.SD_EXP n
  let sf := d.rd PORT.SF_EXP n
  (((((((d.wr PORT.SD_K n 0 (winK sd b)).wr PORT.SD_DECL n 0 (winDecl sd b)).wr PORT.SD_CLR_K n 0 (winK (sd + 1) b)).wr PORT.SD_CLR n 0
    (winClr (sd + 1) b)).wr PORT.SF_K n 0 (winK sf b)).wr PORT.SF_DECL n 0 (winDecl sf b)).wr PORT.SF_CLR_K n 0 (winK (sf + 1) b)).wr
    PORT.SF_CLR n 0 (winClr (sf + 1) b)

end Sys2Proof.Machine
end

