-- ==== Sys2Proof/Machine/Hook.lean ====
section
/-! DEFINITION. The hook queues of the Needle engines (R420 to R422, R424, R425). -/

namespace Sys2Proof.Machine

def Dev.setEngine (d : Dev) (e : Nat) (x : EngineSt) : Dev :=
  ({ d with needle := { d.needle with engines := FMap.set EngineSt.reset d.needle.engines e x } }).wr NDL.QUEUE e 0 x.queue.length

def Dev.modEngine (d : Dev) (e : Nat) (f : EngineSt → EngineSt) : Dev := d.setEngine e (f (d.engine e))

/-- An event queued at an engine (R422): events of a port whose period has ended early, and portless events of an engine whose
account is exhausted, are dropped (R424, R425); a full queue drops the event and counts it. -/
def Dev.hook (d : Dev) (e : Nat) (ev : HookEv) : Dev :=
  let spent := match ev.port with
    | some n => (d.port n).spent
    | none => (d.engine e).spent
  if spent then
    match ev.port with
    | some n => d.inc PORT.HOOKS_SKIPPED n
    | none => d
  else if 64 ≤ (d.engine e).queue.length then (d.inc NDL.HOOK_DROP e).raise .ndl e 2
  else d.modEngine e (fun (x : EngineSt) => { x with queue := x.queue ++ [ev] })

/-- An event that concerns a port goes to the engine that its PLACE names (R422). -/
def Dev.portHook (d : Dev) (n : Nat) (ev : HookEv) : Dev := d.hook (d.rd PORT.ENGINE n) ev

/-- LABEL_CHANGE (R420): cause 0 port label, 1 tributary label, 2 trace, 3 EXP_TRACE written. -/
def Dev.labelHook (d : Dev) (n s cause trib value : Nat) : Dev :=
  d.portHook n ⟨1, some n, s, cause * 2 ^ 16 + trib, value, [], (d.stn n s).lab.window⟩

end Sys2Proof.Machine
end

