-- ==== Sys2Proof/Machine/Defect.lean ====
section
/-! DEFINITION. Defects and their consequences: declaring and clearing, port states, failures, SD and SF windows, labels, the
PRE_WARN condition and performance monitoring (R30, R184, R185, R245 to R269). -/

namespace Sys2Proof.Machine

/-! ### Tributaries and stations -/

/-- The equipped tributary contexts of a port (R241). -/
def Dev.tribs (d : Dev) (n : Nat) : List Nat :=
  (List.range 16384).filter (fun t => d.on TRIB.EQUIPPED t && d.rd TRIB.PORT_N t == n)

/-- Those of one station; every one on a point-to-point port. -/
def Dev.stnTribs (d : Dev) (n s : Nat) : List Nat :=
  (d.tribs n).filter (fun t => !d.shared n || d.rd TRIB.STN_N t == s)

/-- The stations of a port that the device keeps: 16 on a shared port, station 0 otherwise (R137). -/
def Dev.stations (d : Dev) (n : Nat) : List Nat := if d.shared n then List.range 16 else [0]

/-- Whether a station is ACTIVE (R154). -/
def Dev.stnActive (d : Dev) (n s : Nat) : Bool := d.rd STN.STN_STATE (stnKey n s) == 2
def Dev.activeStns (d : Dev) (n : Nat) : List Nat := (List.range 16).filter (d.stnActive n)

/-! ### Defect bits (R267) -/

/-- The field of a station defect bit: LOS, LOF, LOMF, AIS, RDI, SD, SF, PLM, UNEQ, TIM. -/
def stnField (b : Nat) : Field :=
  match b with
  | 0 => PORT.STN_LOS | 1 => PORT.STN_LOF | 2 => PORT.STN_LOMF | 3 => PORT.STN_AIS | 4 => PORT.STN_RDI | 5 => PORT.STN_SD
  | 6 => PORT.STN_SF | 7 => PORT.STN_PLM | 8 => PORT.STN_UNEQ | _ => PORT.STN_TIM

/-- Whether a station has a defect; station 0 of a point-to-point port is the port (R245). -/
def Dev.hasDefect (d : Dev) (n s b : Nat) : Bool := d.on (stnField b) n s

/-- STN_DEFECT[10:0] of a station. -/
def Dev.defectWord (d : Dev) (n s : Nat) : Nat :=
  (List.range 10).foldl (fun v b => if d.hasDefect n s b then orBit v b else v) (if d.on PORT.STN_FAILED n s then 1024 else 0)

/-! ### Performance monitoring (R263, R264) -/

/-- Whether a port-frame of reference boundary `ref` belongs to the present PM second: every frame that arises 48 frames after the
second began does (R263, R265). Before the first WALLCLOCK increment none does. -/
def Dev.inSecond (d : Dev) (ref : Nat) : Bool :=
  match d.lines.secStart with
  | none => false
  | some t => decide (t ≤ ref) || d.passed t (48 * frameTicks)

/-- A PM counter counted up: TOTAL, and the counts of the present second or those since the last snapshot of each KIND. -/
def Dev.pmAddTo (d : Dev) (n i k : Nat) (now : Bool) : Dev :=
  let key := fun (kind : Nat) => (kind * 512 + n) * 8 + i
  let d1 := d.inc PORT.TOTAL n i k
  let x := d1.lines
  { d1 with lines :=
      if now then { x with accNew := FMap.set 0 x.accNew (n * 8 + i) (FMap.get 0 x.accNew (n * 8 + i) + k) }
      else { x with acc := [0, 1].foldl (fun m kind => FMap.set 0 m (key kind) (satAdd 32 (FMap.get 0 m (key kind)) k)) x.acc } }

/-- A count that belongs to the port-frame of a reference boundary (R263). -/
def Dev.pmAdd (d : Dev) (n i k ref : Nat) : Dev := d.pmAddTo n i k (d.inSecond ref)

/-- A PM counter taken back by one, where a late port-frame changes the class of an ended second. -/
def Dev.pmBack (d : Dev) (n i : Nat) : Dev :=
  let key := fun (kind : Nat) => (kind * 512 + n) * 8 + i
  let d1 := d.wr PORT.TOTAL n i (d.rd PORT.TOTAL n i - 1)
  { d1 with lines := { d1.lines with
      acc := [0, 1].foldl (fun m kind => FMap.set 0 m (key kind) (FMap.get 0 m (key kind) - 1)) d1.lines.acc } }

/-- Whether a second counts for counter `i`: 1 ES, 2 SES, 3 UAS, 5 FE_ES (R263). -/
def PmSec.counts (x : PmSec) (i : Nat) : Bool :=
  match i with
  | 1 => !x.failed && decide (0 < x.errs)
  | 2 => !x.failed && decide (150 ≤ x.errs)
  | 3 => x.failed
  | 5 => !x.failed && x.farEnd
  | _ => false

/-- An ended second classified, or classified anew after a late port-frame. -/
def Dev.pmClassify (d : Dev) (n : Nat) (old new : PmSec) : Dev :=
  [1, 2, 3, 5].foldl
    (fun d i =>
      if new.counts i && !old.counts i then d.pmAddTo n i 1 false
      else if old.counts i && !new.counts i then d.pmBack n i
      else d) d

/-- A mark on the PM second that a port-frame belongs to, by its reference boundary (R263). -/
def Dev.pmMark (d : Dev) (n ref : Nat) (f : PmSec → PmSec) : Dev :=
  match d.lines.secStart with
  | none => d
  | some _ =>
    let x := d.port n
    if d.inSecond ref then d.setPortSt n { x with secNow := f x.secNow }
    else if !d.lines.secPrev then d
    else (d.pmClassify n x.secOld (f x.secOld)).modPort n (fun (y : PortSt) => { y with secOld := f x.secOld })

/-! ### Failures (R257) -/

/-- The port failure of R257. -/
def Dev.portFailed (d : Dev) (n : Nat) : Bool :=
  d.enabled n &&
  (d.portMode n == .activating || d.portMode n == .down || d.defect n 0 || d.defect n 1 || d.defect n 2 || d.defect n 3 ||
   d.defect n 6 || (d.defect n 7 && d.on PORT.AIS_ON_PLM n) || (d.defect n 8 && d.on PORT.AIS_ON_UNEQ n) ||
   (d.defect n 9 && d.on PORT.AIS_ON_TIM n))

/-- The station failure of R257; on a point-to-point port the port's. -/
def Dev.stnFailed (d : Dev) (n s : Nat) : Bool :=
  if d.shared n then
    d.enabled n &&
    (!d.stnActive n s || d.hasDefect n s 1 || d.hasDefect n s 2 || d.hasDefect n s 3 || d.hasDefect n s 6 ||
     (d.hasDefect n s 7 && d.on PORT.AIS_ON_PLM n) || (d.hasDefect n s 8 && d.on PORT.AIS_ON_UNEQ n) ||
     (d.hasDefect n s 9 && d.on PORT.AIS_ON_TIM n))
  else d.portFailed n

/-- The station a tributary belongs to. -/
def Dev.tribStn (d : Dev) (t : Nat) : Nat := if d.shared (d.rd TRIB.PORT_N t) then d.rd TRIB.STN_N t else 0

/-- The tributary failure of R257. -/
def Dev.tribFailed (d : Dev) (t : Nat) : Bool :=
  let n := d.rd TRIB.PORT_N t
  d.stnFailed n (d.tribStn t) || (d.enabled n &&
    ((d.on TRIB.T_PLM t && d.on PORT.AIS_ON_PLM n) || (d.on TRIB.T_UNEQ t && d.on PORT.AIS_ON_UNEQ n)))

/-- Failures brought up to date: PORT_FAILED with FAIL_COUNT, the stations' FAILED bits, the tributaries' failure and SD
trigger (R257, R262, R264, R268). -/
def Dev.judgeFailure (d : Dev) (n : Nat) : Dev :=
  let now := d.portFailed n
  let d1 := if now && !d.on PORT.PORT_FAILED n then d.pmAdd n 7 1 (d.port n).refAt else d
  let d2 := d1.flag PORT.PORT_FAILED n 0 now
  let d3 := (d2.stations n).foldl (fun d s => d.flag PORT.STN_FAILED n s (d.stnFailed n s)) d2
  (d3.tribs n).foldl
    (fun d t =>
      let f := d.tribFailed t
      (d.flag TRIB.TRIB_FAILED t 0 f).flag TRIB.SD_TRIG t 0 (!f && d.hasDefect n (d.tribStn t) 5)) d3

/-! ### Port states (R30) and fallback causes (R184 to R186) -/

/-- A fallback whose cause has arisen: due, or blocked with the counts returned to 0 (R186). -/
def Dev.fallbackCause (d : Dev) (n : Nat) : Dev :=
  if d.on PORT.CABLE_PAM n && d.pamValid n then d.modPort n (fun (x : PortSt) => { x with due := true })
  else
    (((d.inc PORT.FALLBACK_BLOCKED n).raise .port n 25).wr PORT.NO_ANSWER n 0 0).modPort n
      (fun (x : PortSt) => { x with lofTimes := [] })

/-- Whether a port runs policy AUTO (R182); policies do not apply to a shared port (R136). -/
def Dev.auto (d : Dev) (n : Nat) : Bool := d.rd PORT.LC_POLICY n == 0 && !d.shared n

/-- The LOF declarations counted under R185: those of the last FALLBACK_WINDOW seconds; one of exactly that age no longer
counts (DESIGN CHOICE, log entry 128). -/
def Dev.lofRecent (d : Dev) (n : Nat) : List Nat :=
  (d.port n).lofTimes.filter (fun t => decide (d.timebase < t + secTicks (d.rd PORT.FALLBACK_WINDOW n)))

/-- A LOF declared while UP or DEGRADED by an AUTO port under chirp counts toward fallback (R185). -/
def Dev.countLof (d : Dev) (n : Nat) : Dev :=
  if d.auto n && d.rd PORT.LC_ACTIVE n == 1 && d.inService n then
    let ts := d.timebase :: d.lofRecent n
    let d1 := d.modPort n (fun (x : PortSt) => { x with lofTimes := ts })
    if d.rd PORT.LOF_FALLBACK n < ts.length then d1.fallbackCause n else d1
  else d

/-- UP or DEGRADED becomes DOWN (R30). -/
def Dev.portDown (d : Dev) (n : Nat) : Dev := if d.inService n then d.setPort n .down else d

/-- UP and DEGRADED judged by SD and the misses of the last 8,000 frames (R30, R248). -/
def Dev.judgeService (d : Dev) (n : Nat) : Dev :=
  let bad := d.defect n 5 || !(d.portMisses n).isEmpty
  if d.portMode n = .up ∧ bad then d.setPort n .degraded
  else if d.portMode n = .degraded ∧ !bad then d.setPort n .up
  else d

/-! ### Declaring and clearing -/

/-- The port-level condition of a defect of stations: present while every ACTIVE station has it (R155, R256). -/
def Dev.portLevel (d : Dev) (n b : Nat) : Bool := !(d.activeStns n).isEmpty && (d.activeStns n).all (fun s => d.hasDefect n s b)

/-- What a port-level defect declared does to the port state (R30, R185). -/
def Dev.defectState (d : Dev) (n b : Nat) (declared : Bool) : Dev :=
  if declared && (b == 0 || b == 1 || b == 2 || b == 6) then ((if b = 1 then d.countLof n else d).portDown n)
  else if b = 5 then d.judgeService n
  else d

/-- The port-level conditions of a shared port brought up to date with its stations: LOF to TIM, and LEVEL of STN_DEFECT (R155, R256,
R269). -/
def Dev.judgeShared (d : Dev) (n : Nat) : Dev :=
  let any := (List.range 16).any (fun s => (List.range 10).any (fun b => d.hasDefect n s b))
  let lv := d.rd (HDR.LEVEL .port) n
  let d1 := d.wr (HDR.LEVEL .port) n 0 (if any then orBit lv 30 else lv - (lv &&& 2 ^ 30))
  [1, 2, 3, 4, 5, 6, 7, 8, 9].foldl
    (fun (d : Dev) b =>
      let now := d.portLevel n b
      if d.defect n b = now then d else (d.cond .port n b now).defectState n b now) d1

/-- A station defect set or cleared, with its event, the port-level condition, the hook, the port state and the failures
(R245, R256, R269, R420). -/
def Dev.setDefect (d : Dev) (n s b : Nat) (v : Bool) : Dev :=
  if d.hasDefect n s b = v then d
  else
    let d1 := d.flag (stnField b) n s v
    let d2 :=
      if d1.shared n then (if v then d1.raise .port n 30 else d1).judgeShared n
      else (d1.cond .port n b v).defectState n b v
    let d3 := d2.judgeFailure n
    d3.portHook n ⟨2, some n, s, d3.defectWord n s, 2 ^ b, [], (d3.stn n s).lab.window⟩

/-- The port-level LOS of the energy detector (R94, R245, R256). -/
def Dev.setLos (d : Dev) (n : Nat) (v : Bool) : Dev :=
  if d.shared n then
    if d.defect n 0 = v then d else (((d.cond .port n 0 v).defectState n 0 v).judgeFailure n)
  else d.setDefect n 0 0 v

/-- Whether the defects AIS to TIM, or RDI to TIM, of a station keep their state (R249). -/
def Dev.frozenAis (d : Dev) (n s : Nat) : Bool := d.hasDefect n s 0 || d.hasDefect n s 1 || d.hasDefect n s 2
def Dev.frozen (d : Dev) (n s : Nat) : Bool := d.frozenAis n s || d.hasDefect n s 3

/-- A freezing defect cleared: the comparisons that fell due are made at the next system multiframe boundary (R249; that this boundary is
meant is DEDUCED, log entry 78). -/
def Dev.clearFreezing (d : Dev) (n s b : Nat) : Dev :=
  let d1 := d.setDefect n s b false
  if d.frozen n s && !d1.frozen n s then d1.modStn n s (fun (x : StnRx) => { x with freezeEnd := some d.sys.nextMf }) else d1

/-! ### SD and SF (R254) -/

/-- A window of SD (b = 5) or SF (b = 6) ends: cleared at most at the clearing count, a new window in every case. -/
def Dev.windowEnd (d : Dev) (n s b : Nat) : Dev :=
  let x := d.stn n s
  let w := if b = 5 then x.sd else x.sf
  let clr := d.rd (if b = 5 then PORT.SD_CLR else PORT.SF_CLR) n
  let d1 := d.modStn n s (fun (x : StnRx) => if b = 5 then { x with sd := ⟨0, 0⟩ } else { x with sf := ⟨0, 0⟩ })
  let d2 := if d1.shared n then d1 else d1.wr (if b = 5 then PORT.SD_WIN_ERR else PORT.SF_WIN_ERR) n 0 0
  if d.hasDefect n s b && decide (w.errs ≤ clr) then d2.setDefect n s b false else d2

/-- Whether the window is complete: 2^K multiframes with a result, K by whether the defect is present. -/
def Dev.windowDone (d : Dev) (n s b : Nat) : Bool :=
  let x := d.stn n s
  let w := if b = 5 then x.sd else x.sf
  let k := if d.hasDefect n s b then d.rd (if b = 5 then PORT.SD_CLR_K else PORT.SF_CLR_K) n
    else d.rd (if b = 5 then PORT.SD_K else PORT.SF_K) n
  decide (2 ^ k ≤ w.seen)

/-- A CRC result counted in the window of SD or SF; the defect is declared as soon as the count is reached. -/
def Dev.windowCount (d : Dev) (n s b : Nat) (errored : Bool) : Dev :=
  let d0 := if d.windowDone n s b then d.windowEnd n s b else d
  let x := d0.stn n s
  let w := if b = 5 then x.sd else x.sf
  let w1 : ErrWin := ⟨w.seen + 1, w.errs + errored.toNat⟩
  let put := fun (d : Dev) (w : ErrWin) =>
    let e := d.modStn n s (fun (x : StnRx) => if b = 5 then { x with sd := w } else { x with sf := w })
    if e.shared n then e else e.wr (if b = 5 then PORT.SD_WIN_ERR else PORT.SF_WIN_ERR) n 0 (min 65535 w.errs)
  let d1 := put d0 w1
  if errored && !d1.hasDefect n s b && decide (d1.rd (if b = 5 then PORT.SD_DECL else PORT.SF_DECL) n ≤ w1.errs) then
    (put d1 ⟨0, 0⟩).setDefect n s b true
  else d1

/-- A CRC-10 result of a multiframe: REI of f7 (R215), the counters of R243, R264 and R267, the SD and SF windows unless frozen (R249, R254).
`ref` is the reference boundary of its port-frame. -/
def Dev.crcResult (d : Dev) (n s ref : Nat) (r : CrcRes) : Dev :=
  match r with
  | .none => d.modPort n (fun (x : PortSt) => { x with tx := { x.tx with rei := false } })
  | _ =>
    let bad := r == .errored
    let d1 := d.inc (if bad then PORT.CRC_ERR_MF else PORT.CRC_GOOD_MF) n
    let d2 := if bad then ((d1.inc PORT.STN_CV n s).pmAdd n 0 1 ref).pmMark n ref (fun x => { x with errs := x.errs + 1 }) else d1
    let d3 := d2.modPort n (fun (x : PortSt) => { x with tx := { x.tx with rei := bad } })
    if d3.frozen n s then d3 else (d3.windowCount n s 5 bad).windowCount n s 6 bad

/-- A write to SD_EXP and SF_EXP: the values of R253 are formed anew and the windows restart; the defects keep their state (R253, R254). A write
of their word writes both fields (DEDUCED, log entry 133). -/
def Dev.restartWindows (d : Dev) (n : Nat) : Dev :=
  let d1 := ((d.formWindows n).wr PORT.SD_WIN_ERR n 0 0).wr PORT.SF_WIN_ERR n 0 0
  (d1.stations n).foldl (fun d s => d.modStn n s (fun (x : StnRx) => { x with sd := ⟨0, 0⟩, sf := ⟨0, 0⟩ })) d1

/-! ### Labels and trace (R250 to R252) -/

/-- Whether a received label matches the expected one (R250). -/
def labelMatches (exp rx : Nat) : Bool := rx == exp || (exp == 1 && rx != 0) || (rx == 1 && exp != 0)

/-- PLM and UNEQ of an accepted label, none where no comparison is made: neither with the expected label 0 (R250). -/
def labelJudge (exp rx : Nat) : Bool × Bool := if exp = 0 then (false, false) else if rx = 0 then (false, true) else (!labelMatches exp rx, false)

/-- The port-label defects compared (R251), unless frozen. -/
def Dev.judgePortLabel (d : Dev) (n s : Nat) : Dev :=
  if d.frozen n s then d
  else
    let exp := d.rd PORT.EXP_PORT_LABEL n
    match (d.stn n s).lab.portAcc with
    | some rx => let (p, u) := labelJudge exp rx; (d.setDefect n s 7 p).setDefect n s 8 u
    | none => if exp = 0 then (d.setDefect n s 7 false).setDefect n s 8 false else d

/-- A tributary's PLM and UNEQ set, with TRIB_DEFECT (R268, R269). -/
def Dev.setTribDefect (d : Dev) (t : Nat) (p u : Bool) : Dev :=
  let n := d.rd TRIB.PORT_N t
  let rise := (p && !d.on TRIB.T_PLM t) || (u && !d.on TRIB.T_UNEQ t)
  let d1 := (d.flag TRIB.T_PLM t 0 p).flag TRIB.T_UNEQ t 0 u
  let d2 := if rise then d1.raise .port n 10 else d1
  let any := (d2.tribs n).any (fun t => d2.on TRIB.T_PLM t || d2.on TRIB.T_UNEQ t)
  let lv := d2.rd (HDR.LEVEL .port) n
  (d2.wr (HDR.LEVEL .port) n 0 (if any then orBit lv 10 else lv - (lv &&& 2 ^ 10))).judgeFailure n

/-- A tributary's label defects compared, for a tributary with an upstream slot and an accepted label (R245, R251), unless its station is
frozen. -/
def Dev.judgeTribLabel (d : Dev) (t : Nat) : Dev :=
  let n := d.rd TRIB.PORT_N t
  let s := d.tribStn t
  if d.frozen n s then d
  else if !d.on TRIB.EQUIPPED t || d.rd TRIB.RX_SLOT t = 0 then d
  else
    let rx := d.rd TRIB.RX_LABEL t
    let exp := d.rd TRIB.EXP_LABEL t
    if FMap.get none (d.stn n s).lab.slotAcc (d.rd TRIB.RX_SLOT t) = some rx then let (p, u) := labelJudge exp rx; d.setTribDefect t p u
    else if exp = 0 then d.setTribDefect t false false
    else d

/-- The expected trace of a station, byte by byte (R242). -/
def Dev.expTrace (d : Dev) (n s : Nat) : List Nat :=
  (List.range 16).map (fun b => d.rd STN.EXP_TRACE (stnKey n s) (b / 4) / 2 ^ (8 * (b % 4)) % 256)

/-- TIM compared (R252): off with 16 zero bytes, else present while the accepted trace differs. Before the first acceptance the accepted trace
is what RX_TRACE then shows, 16 zero bytes (DEDUCED, log entry 125). -/
def Dev.judgeTim (d : Dev) (n s : Nat) : Dev :=
  if d.frozen n s then d
  else
    let e := d.expTrace n s
    let a := (d.stn n s).lab.accepted
    if e.all (fun b => b == 0) then d.setDefect n s 9 false
    else d.setDefect n s 9 (a != e)

/-- Every comparison of labels and trace of a station made anew (R249). -/
def Dev.judgeAll (d : Dev) (n s : Nat) : Dev :=
  (d.stnTribs n s).foldl (fun d t => d.judgeTribLabel t) ((d.judgePortLabel n s).judgeTim n s)

/-! ### PRE_WARN (R255) -/

/-- A multiframe boundary's PRE values taken into PRE_RATE and PRE_WARN. -/
def Dev.preWarn (d : Dev) (n errs bits : Nat) : Dev :=
  let x := d.port n
  let hist := ((errs, bits) :: x.pre).take 16
  let sumB := (hist.map Prod.snd).foldl (· + ·) 0
  let sumE := ((hist.filter (fun h => h.2 != 0)).map Prod.fst).foldl (· + ·) 0
  let rate := min 1023 (if sumB = 0 then Config.preRateNone d.free else 1024 * sumE / sumB)
  let th := d.rd PORT.PRE_WARN_TH n
  let low := if 2 * rate < th then min 16 (x.preLow + 1) else 0
  let d0 := if sumB = 0 then { d with free := d.free + 1 } else d
  let d1 := (d0.modPort n (fun (y : PortSt) => { y with pre := hist, preLow := low })).wr PORT.PRE_RATE n 0 rate
  if th ≤ rate then d1.condSet .port n 11 else if low = 16 then d1.condClear .port n 11 else d1

/-! ### Reaching UP (R30, R128, R184, R187, R230) -/

/-- ACTIVATING becomes UP. -/
def Dev.portUp (d : Dev) (n : Nat) : Dev :=
  if d.portMode n != .activating then d
  else
    let d1 := (((d.setPort n .up).wr PORT.NO_ANSWER n 0 0).wr PORT.PAM_FAILS n 0 0).modPort n
      (fun (x : PortSt) => { x with offer := none, upSeen := true, pam := { x.pam with warmAt := none } })
    let d2 := if d1.isPam n then d1.wr PORT.ACT_STATE n 0 7 else d1
    let d3 := (d2.stations n).foldl (fun d s => d.modStn n s (fun (x : StnRx) => { x with lab := { x.lab with anyAlive := true } })) d2
    d3.judgeFailure n

/-! ### Meanings -/

/-- SD_WINDOW_END (R254). -/
def execSdWindowEnd (port : Fin 512) (stn : Fin 16) (s : State) : Host.Outcome State Fault Refusal :=
  stay s (whenDev (fun d => d.enabled port && d.windowDone port stn 5 && !d.frozen port stn) (fun d => d.windowEnd port stn 5))

/-- SF_WINDOW_END (R254). -/
def execSfWindowEnd (port : Fin 512) (stn : Fin 16) (s : State) : Host.Outcome State Fault Refusal :=
  stay s (whenDev (fun d => d.enabled port && d.windowDone port stn 6 && !d.frozen port stn) (fun d => d.windowEnd port stn 6))

/-- DEFECT_FREEZE_END (R249). -/
def execDefectFreezeEnd (port : Fin 512) (stn : Fin 16) (s : State) : Host.Outcome State Fault Refusal :=
  stay s (whenDev (fun d => d.reached (d.stn port stn).freezeEnd && !d.frozen port stn)
    (fun d => (d.modStn port stn (fun (x : StnRx) => { x with freezeEnd := none })).judgeAll port stn))

/-- The labels of a port compared again (R251). -/
def Dev.recheckLabels (d : Dev) (n : Nat) : Dev :=
  (d.stations n).foldl (fun d x => (d.stnTribs n x).foldl (fun d t => d.judgeTribLabel t) (d.judgePortLabel n x))
    (d.modPort n (fun (x : PortSt) => { x with recheck := none }))

/-- LABEL_RECHECK (R251): at the multiframe boundary after a write of an expected label. -/
def execLabelRecheck (port : Fin 512) (s : State) : Host.Outcome State Fault Refusal :=
  stay s (whenDev (fun d => d.enabled port && d.reached (d.port port).recheck) (fun d => d.recheckLabels port))

/-- TX_RDI_STOP (R259): at an odd frame, the failure ended and 16 frames passed. -/
def execTxRdiStop (port : Fin 512) (s : State) : Host.Outcome State Fault Refusal :=
  stay s (whenDev
    (fun d => d.on PORT.TX_RDI port && !(d.on PORT.PORT_FAILED port && d.on PORT.RDI_EN port) &&
      match (d.port port).tx.rdiAt with
      | some c => decide (c + 16 ≤ (d.port port).tx.count) && (d.port port).tx.count % 2 == 1
      | none => true)
    (fun d => (d.wr PORT.TX_RDI port 0 0).modPort port (fun (x : PortSt) => { x with tx := { x.tx with rdiAt := none } })))

/-- FORCE_HUNT_WRITE (R239): a write of 1 waits for the port's next frame in HEM. The stations of a shared port are not hunted: there it has no
effect (DESIGN CHOICE, log entry 126). -/
def execForceHuntWrite (port : Fin 512) (value : Word) (s : State) : Host.Outcome State Fault Refusal :=
  unlessMisuse (s.dev.wordMisuse .port port 0x160 value.toNat)
    (stay s (whenDev (fun d => d.writable .port)
      (fun d =>
        let d1 := d.writeFields (0x100000 + 4096 * port.val + 0x160) .port port 0x160 value.toNat
        if value.toNat.testBit 8 && d1.enabled port && !d1.shared port then d1.wr PORT.FORCE_HUNT port 0 1 else d1)))

end Sys2Proof.Machine
end

