-- ==== Sys2Proof/Machine/Label.lean ====
section
/-! DEFINITION. LABEL: overhead windows, signalling, labels, trace, far-end reports and DCC blocks of received multiframes, and
the alignment events of HEM (R217 to R233, R240, R245, R246, R281). -/

namespace Sys2Proof.Machine

def Dev.modLab (d : Dev) (n s : Nat) (f : LabelSt → LabelSt) : Dev :=
  d.modStn n s (fun (x : StnRx) => { x with lab := f x.lab })

/-! ### HEM events (R236 to R238, R245, R246) -/

/-- What an event of HEM does to counters, defects and the port state. -/
def Dev.hemEvent (n s ref : Nat) (d : Dev) : HemEv → Dev
  | .faDeclared amb =>
    let d1 := d.inc PORT.ALIGN_COUNT n
    if amb then (d1.inc PORT.AMBIG_COUNT n).raise .port n 26 else d1
  | .faLost => (d.inc PORT.FA_LOSS n).setDefect n s 1 true
  | .mfaDeclared =>
    let d1 := (d.clearFreezing n s 1).clearFreezing n s 2
    if d1.shared n then d1 else d1.portUp n
  | .mfaLost => (d.inc PORT.MFA_LOSS n).setDefect n s 2 true
  | .fawErr => d.inc PORT.FAW_ERR n
  | .mfaErr => d.inc PORT.MFA_ERR n
  | .crc r => d.crcResult n s ref r
  | .crcNone => (d.inc PORT.CRC_NONE_MF n).crcResult n s ref .none
  | .lofClear => d.clearFreezing n s 1

/-! ### RDI and AIS (R245, R246) -/

/-- An odd frame's RDI bit. -/
def Dev.labelRdi (d : Dev) (n s : Nat) (rdi : Bool) : Dev :=
  let l := (d.stn n s).lab
  let a := if rdi then min 5 (l.rdiRun + 1) else 0
  let b := if rdi then 0 else min 5 (l.noRdi + 1)
  let d1 := d.modLab n s (fun (l : LabelSt) => { l with rdiRun := a, noRdi := b })
  if d1.frozen n s then d1
  else if a = 5 then d1.setDefect n s 4 true
  else if b = 5 then d1.setDefect n s 4 false
  else d1

/-- The OH1 words of a complete multiframe judged for AIS; one with an absent frame is left out. -/
def Dev.labelAis (d : Dev) (n s : Nat) (c : MfCapture) : Dev :=
  if c.words.any (fun w => w.isNone) then d
  else
    let other := (c.words.filter (fun w => match w with | some x => x.2 != 0x3FF | none => false)).length
    let l := (d.stn n s).lab
    let a := if other = 0 then min 2 (l.aisRun + 1) else 0
    let b := if 2 ≤ other then min 2 (l.clrRun + 1) else 0
    let d1 := d.modLab n s (fun (l : LabelSt) => { l with aisRun := a, clrRun := b })
    if d1.frozenAis n s then d1
    else if a = 2 then d1.setDefect n s 3 true
    else if b = 2 then d1.clearFreezing n s 3
    else d1

/-! ### Overhead words of a multiframe -/

/-- OH0 and OH1 of frame f. -/
def MfCapture.oh0 (c : MfCapture) (f : Nat) : Option Nat := (c.words.getD f none).map Prod.fst
def MfCapture.oh1 (c : MfCapture) (f : Nat) : Option Nat := (c.words.getD f none).map Prod.snd

/-- The receive overhead window of R233. -/
def MfCapture.window (c : MfCapture) : List Nat :=
  let one := fun (x : Option Nat) => match x with | some v => v + 1024 | none => 0
  (List.range 16).map (fun f => one (c.oh0 f)) ++ (List.range 16).map (fun f => one (c.oh1 f))

/-- Whether the multiframe carries AIS: every OH1 word is 0x3FF (R217). -/
def MfCapture.ais (c : MfCapture) : Bool := c.words.all (fun w => match w with | some x => x.2 == 0x3FF | none => false)

/-! ### Signalling (R219, R261) -/

/-- The candidate words of a multiframe committed or held. -/
def Dev.commitSig (d : Dev) (n s : Nat) (c : MfCapture) (good : Bool) : Dev :=
  let ok := fun (d : Dev) (t : Nat) => good && !c.slip && !d.tribFailed t
  let ts := (d.stnTribs n s).filter (fun t => d.rd TRIB.RX_SLOT t != 0)
  let d1 := ts.foldl (fun d t => if ok d t then d.wr TRIB.SIG_RX t 0 (FMap.get 0 c.sigs (d.rd TRIB.RX_SLOT t)) else d) d
  if ts.any (fun t => !ok d t) then d1.inc PORT.SIG_HELD n else d1

/-! ### Labels (R223) -/

/-- A value added to a run. -/
def LabelRun.add (r : LabelRun) (v : Nat) : LabelRun := if r.count ≠ 0 ∧ r.value = v then ⟨v, r.count + 1⟩ else ⟨v, 1⟩

/-- The port label of a good multiframe. -/
def Dev.takePortLabel (d : Dev) (n s v : Nat) : Dev :=
  let l := (d.stn n s).lab
  let r := l.port.add v
  let d1 := d.modLab n s (fun (l : LabelSt) => { l with port := { r with count := min 3 r.count } })
  if 3 ≤ r.count ∧ l.portAcc ≠ some v then
    let changed := d1.rd PORT.RX_PORT_LABEL n != v
    let d2 := (d1.modLab n s (fun (l : LabelSt) => { l with portAcc := some v })).wr PORT.RX_PORT_LABEL n 0 v
    (if changed then (d2.raise .port n 27).labelHook n s 0 0 v else d2).judgePortLabel n s
  else d1

/-- The tributary label of slot k of a good multiframe: accepted by every tributary of that first slot that does not hold it yet. -/
def Dev.takeTribLabel (d : Dev) (n s k v : Nat) : Dev :=
  let slots := if d.shared n then d.rd PORT.BURST_SLOTS n else d.slots n
  if k = 0 ∨ slots < k then d
  else
    let l := (d.stn n s).lab
    let r := (FMap.get ⟨0, 0⟩ l.slots k).add v
    let d1 := d.modLab n s (fun (l : LabelSt) => { l with slots := FMap.set ⟨0, 0⟩ l.slots k { r with count := min 2 r.count } })
    if 2 ≤ r.count then
      let old := FMap.get none l.slotAcc k
      let d2 := d1.modLab n s (fun (l : LabelSt) => { l with slotAcc := FMap.set none l.slotAcc k (some v) })
      ((d2.stnTribs n s).filter (fun t => d2.rd TRIB.RX_SLOT t == k && (old != some v || d2.rd TRIB.RX_LABEL t != v))).foldl
        (fun d t =>
          let changed := d.rd TRIB.RX_LABEL t != v
          let e := d.wr TRIB.RX_LABEL t 0 v
          (if changed then (e.raise .port n 27).labelHook n s 1 t v else e).judgeTribLabel t) d2
    else d1

/-! ### Trace (R225) -/

/-- The trace byte of a good multiframe; none for a multiframe without a good result. The accepted trace where it changes. -/
def LabelSt.traceByte (l : LabelSt) (b : Option (Bool × Nat)) : LabelSt × Bool :=
  match b with
  | none => ({ l with trace := [], cycle := none }, false)
  | some (true, v) =>
    ({ l with trace := [v], cycle := if l.trace.isEmpty then l.cycle else none }, false)
  | some (false, v) =>
    if l.trace.isEmpty then ({ l with cycle := none }, false)
    else
      let t := l.trace ++ [v]
      if t.length = 16 then
        let hit := l.cycle == some t && l.accepted != t
        ({ l with trace := [], cycle := some t, accepted := if hit then t else l.accepted }, hit)
      else ({ l with trace := t }, false)

/-- The trace byte taken, with TRACE_CHANGE. -/
def Dev.takeTrace (d : Dev) (n s : Nat) (b : Option (Bool × Nat)) : Dev :=
  let (l, hit) := (d.stn n s).lab.traceByte b
  let d1 := d.modLab n s (fun _ => l)
  if hit then (d1.raise .port n 28).labelHook n s 2 0 0 else d1

/-! ### Far-end words -/

/-- The f8 status of a station (R215, R243). -/
def Dev.takeStatus (d : Dev) (n s v : Nat) : Dev :=
  let f := if s < 8 then PORT.STN_STATUS_LO else PORT.STN_STATUS_HI
  let k := 4 * (s % 8)
  let old := d.rd f n
  d.wr f n 0 (old - (old / 2 ^ k % 16) * 2 ^ k + (v % 16) * 2 ^ k)

/-- The upstream f9 (R281). -/
def Dev.takeF9 (d : Dev) (n s v : Nat) : Dev :=
  let self := v.testBit 9
  let d1 := ((d.flag PORT.STN_SELF_TIMED n 0 self).flag PORT.STN_HOLDOVER n 0 (v.testBit 8)).wr PORT.STN_CLK_OFFSET n 0 (v % 256)
  let run := if self == (d1.timingMode n == 1) then 0 else (d1.stn n s).lab.timMis + 1
  let d2 := d1.modLab n s (fun (l : LabelSt) => { l with timMis := min 4 run })
  if run = 3 then d2.inc PORT.TIMING_MISMATCH n else d2

/-- The f7 word (R215, R243, R264). -/
def Dev.takeF7 (d : Dev) (n ref v : Nat) : Dev :=
  let d1 := d.wr PORT.FE_PRE_ERR n 0 (v % 256)
  if v.testBit 8 then ((d1.inc PORT.FE_BLOCK_ERR n).pmAdd n 4 1 ref).pmMark n ref (fun x => { x with farEnd := true }) else d1

/-! ### DCC blocks (R226 to R228, R230) -/

/-- The six bytes of a multiframe's block, and BS. -/
def MfCapture.block (c : MfCapture) : List Nat × Bool :=
  let ws := (List.range 8).map (fun i => c.oh0 (2 * i + 1))
  let bits := ws.flatMap (fun w => wordBits 6 (w.getD 0 % 64))
  (bitsWords 8 6 bits, decide (5 ≤ (ws.filter (fun w => match w with | some x => x.testBit 6 | none => false)).length))

/-- The blocks a message takes (R227). -/
def dccBlocks (len : Nat) : Nat := ceilDiv (5 + len) 6

/-- A block taken into the message being received. `void`: its multiframe holds an absent frame. -/
def LabelSt.takeBlock (l : LabelSt) (bytes : List Nat) (bs void : Bool) : LabelSt :=
  let l0 := if (bs || void) && !l.msg.isEmpty then { l with msgs := l.msgs ++ [(l.msg, true)], msg := [] } else l
  if bs then
    if bytes.headD 0 = 0 then l0
    else if void then { l0 with msgs := l0.msgs ++ [(bytes, true)] }
    else if dccBlocks (bytes.getD 2 0) ≤ 1 then { l0 with msgs := l0.msgs ++ [(bytes, false)] }
    else { l0 with msg := bytes }
  else if l0.msg.isEmpty then l0
  else
    let m := l0.msg ++ bytes
    if 6 * dccBlocks (m.getD 2 0) ≤ m.length then { l0 with msgs := l0.msgs ++ [(m, false)], msg := [] } else { l0 with msg := m }

/-! ### A multiframe -/

/-- The overhead of a received multiframe once its CRC result is known (R219, R223, R225, R233). -/
def Dev.mfReady (d : Dev) (n s ref : Nat) (c : MfCapture) (r : CrcRes) : Dev :=
  let good := r == .good && !c.ais
  let d1 := d.modLab n s (fun (l : LabelSt) => { l with window := c.window, mfCount := (l.mfCount + 1) % 2 ^ 20 })
  let d2 := d1.commitSig n s c good
  let oh := fun (f : Nat) => (c.oh1 f).getD 0
  let d3 := if good then
      ((((d2.takePortLabel n s (oh 1 % 256)).takeTribLabel n s (oh 2 % 256) (oh 3 % 256)).takeTrace n s
        (some ((oh 6).testBit 9, oh 6 % 256))).takeStatus n s (oh 8)).takeF9 n s (oh 9)
    else d2.takeTrace n s none
  let d4 := match c.oh1 7 with
    | some v => if c.ais then d3 else d3.takeF7 n ref v
    | none => d3
  let code := match r with | .good => 0 | .errored => 1 | .none => 2
  d4.portHook n ⟨0, some n, s, code, (d4.stn n s).lab.mfCount, [], c.window⟩

/-- The end of a multiframe's last frame: AIS, the DCC block, and the capture kept until its CRC result. -/
def Dev.mfComplete (d : Dev) (n s : Nat) (c : MfCapture) : Dev :=
  let void := c.words.any (fun w => w.isNone)
  let (bytes, bs) := c.block
  let d1 := d.labelAis n s c
  d1.modLab n s (fun (l : LabelSt) =>
    let l1 := if c.ais then l else l.takeBlock bytes bs void
    { l1 with prev := some c, cur := MfCapture.empty })

/-- The S bits of a frame's slot words entered into the candidate words: bit 15 − f (R218). -/
def addSigs (m : FMap Nat) (f : Nat) (slots : List Nat) : FMap Nat :=
  (slots.zipIdx).foldl (fun m x => if x.1.testBit 8 then FMap.set 0 m (x.2 + 1) (orBit (FMap.get 0 m (x.2 + 1)) (15 - f)) else m) m

/-- Alignment has ended, and with it the multiframe in progress: it gives no result and its signalling is held; the runs of the alignment
restart (R219, R225, R232, R246). `fa`: frame alignment too. -/
def Dev.labelEnds (d : Dev) (n s : Nat) (fa : Bool) : Dev :=
  let l := (d.stn n s).lab
  let d1 := if l.prev.isSome || !l.cur.words.isEmpty then d.commitSig n s MfCapture.empty false else d
  d1.modLab n s (fun (l : LabelSt) => { l with
    cur := MfCapture.empty
    prev := none
    aisRun := 0
    clrRun := 0
    trace := []
    cycle := none
    rdiRun := if fa then 0 else l.rdiRun
    noRdi := if fa then 0 else l.noRdi })

/-- The multiframe that frame f0 closes: one captured as a whole is ready, one that began before multiframe alignment was declared gives no
result (R219, R232, R233). -/
def Dev.labelCloses (d : Dev) (n s ref : Nat) (o : HemOut) : Dev :=
  match o.crc, (d.stn n s).lab.prev with
  | some r, some c => (d.mfReady n s ref c r).modLab n s (fun (l : LabelSt) => { l with prev := none })
  | some _, none => d.commitSig n s MfCapture.empty false
  | none, _ => d

/-- LABEL over one frame that HEM has passed on. -/
def Dev.labelFrame (d : Dev) (n s ref : Nat) (o : HemOut) : Dev :=
  let d0 := match o.ends with | some fa => d.labelEnds n s fa | none => d
  let d1 := match o.oh0 with
    | some w => if o.odd && o.ends != some true then d0.labelRdi n s (w.testBit 7) else d0
    | none => d0
  match (if o.ends.isSome then none else o.fidx) with
  | none => d1
  | some f =>
    let d2 := if f = 0 then d1.labelCloses n s ref o else d1
    let l := (d2.stn n s).lab
    let c0 := if f = 0 then MfCapture.empty else l.cur
    let w := if o.absent || o.words.isEmpty then none else some (o.words.getD 0 0, o.words.getD 1 0)
    let c := { c0 with words := c0.words ++ [w], sigs := addSigs c0.sigs f (o.words.drop 2), slip := c0.slip || l.cur.slip }
    if f = 15 ∧ c.words.length = 16 then d2.mfComplete n s c
    else d2.modLab n s (fun (l : LabelSt) => { l with cur := if f = 15 then MfCapture.empty else c })

/-- A slip falls in the multiframe being received (R219, R285). -/
def Dev.labelSlip (d : Dev) (n s : Nat) : Dev :=
  d.modLab n s (fun (l : LabelSt) => { l with cur := { l.cur with slip := true } })

/-- HEM over one port-frame of a port or station: its state, its events, its registers. A forced hunt begins with it (R239). -/
def Dev.hemFrame (d : Dev) (n s ref : Nat) (masked : Nat) (bits : Option (List Bool)) : Dev × HemOut :=
  let p : HemPar := ⟨d.rxWords n, masked, d.rd PORT.LOF_COUNT n, !d.shared n⟩
  let forced := d.on PORT.FORCE_HUNT n && !d.shared n
  let (h0, e0) := if forced then (d.stn n s).hem.force else ((d.stn n s).hem, [])
  let (h, o', e1) := h0.frame p bits
  let o := if forced then { o' with ends := some true } else o'
  let evs := e0 ++ e1
  let d0 := if forced then d.wr PORT.FORCE_HUNT n 0 0 else d
  let d1 := (d0.modStn n s (fun (x : StnRx) => { x with hem := h })).modPort n (fun (x : PortSt) => { x with refAt := ref })
  let d2 := if d1.shared n then d1
    else
      ((d1.wr PORT.ALIGN_STATE n 0 h.state).wr PORT.SURVIVORS n 0 (h.cands.filter (fun c => c.surv)).length).wr PORT.BIT_POS n 0
        (match h.decl with | some c => c.q | none => d1.rd PORT.BIT_POS n)
  (evs.foldl (Dev.hemEvent n s ref) d2, o)

/-! ### DCC reception (R230) -/

/-- The body length of the vendor messages of R158. -/
def vendorLen (t : Nat) : Option Nat :=
  match t with | 0x20 => some 5 | 0x21 => some 3 | 0x22 => some 1 | 0x23 => some 1 | _ => none

/-- A discarded message recorded: CAUSE 0 CRC-16, 1 length, 2 type range, 3 incomplete. -/
def Dev.dccDiscard (d : Dev) (n : Nat) (m : List Nat) (cause : Nat) : Dev :=
  let d1 := d.inc (if cause = 0 ∨ cause = 3 then PORT.DCC_CRC_ERR else PORT.DCC_FMT_ERR) n
  (((d1.wr PORT.DCCL_TYPE n 0 (m.headD 0)).wr PORT.DCCL_STN n 0 (m.getD 1 0 / 16)).wr PORT.DCCL_CAUSE n 0 cause).raise .port n 29

/-- Bytes packed into words, lowest byte first. -/
def packBytes (bytes : List Nat) : List Nat :=
  (List.range (ceilDiv bytes.length 4)).map
    (fun i => (List.range 4).foldl (fun v b => v + bytes.getD (4 * i + b) 0 * 2 ^ (8 * b)) 0)

/-- An item written to the DCC_RX ring with DCC_RX_ITEM, or dropped for want of credit (R447, R448, R451 to R453). -/
def Dev.dccRing (d : Dev) (n s : Nat) (m : List Nat) : Dev :=
  if !d.on HOSTQ.RING_ENABLE 0 2 then d
  else
    let seq := d.host.dccSeq
    let d1 := { d with host := { d.host with dccSeq := (seq + 1) % 4096 } }
    let body := packBytes ((m.drop 2).take (1 + m.getD 2 0))
    if 0 < d1.ringCredits 2 then
      (d1.ringPut 2 (itemHeader (2 + body.length) (m.headD 0) seq :: (n + s * 2 ^ 16) :: body)).raise .hostq 0 0
    else (d1.inc HOSTQ.RING_DROPPED 0 2).raise .hostq 0 1

/-- An accepted message: the DCC_RX hook; customer messages also go to the ring. -/
def Dev.dccAccept (d : Dev) (n s : Nat) (m : List Nat) : Dev :=
  let d1 := (d.inc PORT.DCC_RX_OK n).portHook n
    ⟨3, some n, s, m.headD 0, m.getD 2 0, (List.range 21).map (fun i => m.getD i 0), (d.stn n s).lab.window⟩
  if 128 ≤ m.headD 0 then d1.dccRing n s m else d1

/-- R230 in its order over one received message. -/
def Dev.dccCheck (d : Dev) (n s : Nat) (m : List Nat) (incomplete : Bool) : Dev :=
  let t := m.headD 0
  let len := m.getD 2 0
  if incomplete then d.dccDiscard n m 3
  else if crc16 (m.take (3 + len)) != m.getD (3 + len) 0 * 256 + m.getD (4 + len) 0 then d.dccDiscard n m 0
  else if 16 < len then d.dccDiscard n m 1
  else if t < 128 && (vendorLen t).isNone then d.dccDiscard n m 2
  else if t < 128 && vendorLen t != some len then d.dccDiscard n m 1
  else
    let a := m.getD 1 0 % 16
    let l := (d.stn n s).lab
    let put := fun (d : Dev) => (d.modLab n s (fun (l : LabelSt) => { l with alive := some a, anyAlive := false })).dccAccept n s m
    if l.anyAlive then put d
    else
      match l.alive with
      | none => put d
      | some b =>
        if a = b then d.inc PORT.ALIVE_REPEAT n
        else if a = (b + 1) % 16 then put d
        else put (d.inc PORT.ALIVE_GAP n)

/-- DCC_MESSAGE_RX (R230): the oldest received message of a station is checked. -/
def execDccMessageRx (port : Fin 512) (stn : Fin 16) (s : State) : Host.Outcome State Fault Refusal :=
  stay s (fun d =>
    match (d.stn port stn).lab.msgs with
    | [] => d
    | (m, inc) :: r => (d.modLab port stn (fun (l : LabelSt) => { l with msgs := r })).dccCheck port stn m inc)

end Sys2Proof.Machine
end

