-- ==== Sys2Proof/Machine/Pleat.lean ====
section
/-! DEFINITION. Profile S rate adaptation: pleaters and desynchronizers (R286 to R293). -/

namespace Sys2Proof.Machine

def Dev.pleat (d : Dev) (p : Nat) : PleatSt := FMap.get PleatSt.empty d.sys.pleats p
def Dev.setPleat (d : Dev) (p : Nat) (x : PleatSt) : Dev := { d with sys := { d.sys with pleats := FMap.set PleatSt.empty d.sys.pleats p x } }
def Dev.desync (d : Dev) (p : Nat) : DesyncSt := FMap.get DesyncSt.empty d.sys.desyncs p
def Dev.setDesync (d : Dev) (p : Nat) (x : DesyncSt) : Dev :=
  { d with sys := { d.sys with desyncs := FMap.set DesyncSt.empty d.sys.desyncs p x } }

/-- Profile S (R282). -/
def Dev.profileS (d : Dev) : Bool := d.on DEV.RATE_PROFILE

/-- Whether a tributary is pleated in Profile S (R286). -/
def Dev.pleated (d : Dev) (t : Nat) : Bool := d.profileS && d.on TRIB.EQUIPPED t && d.on TRIB.PLEAT t

/-- The tributary of a pleat index, the lowest numbered. -/
def Dev.pleatTrib (d : Dev) (p : Nat) : Option Nat :=
  (List.range 16384).find? (fun t => d.on TRIB.EQUIPPED t && d.on TRIB.PLEAT t && d.rd TRIB.PLEAT_IDX t == p)

/-- A slip of a pleat index counted at its tributary (R289, R292). -/
def Dev.pleatSlip (d : Dev) (p : Nat) : Dev :=
  match d.pleatTrib p with
  | some t => d.inc TRIB.PLEAT_SLIPS t
  | none => d

/-! ### Pleaters (R287 to R289) -/

/-- A tributary's received slot word enters its pleater; above 640 bits one whole word is dropped (R288, R289). -/
def Dev.pleatWord (d : Dev) (p w : Nat) : Dev :=
  let x := d.pleat p
  if 640 < x.buf.length + 10 then (d.setPleat p { x with stamp := d.timebase }).pleatSlip p
  else d.setPleat p { x with buf := x.buf ++ wordBits 10 w, stamp := d.timebase }

/-- The fill in 1/16 bit, the frame in progress interpolated (R289). -/
def PleatSt.fill16 (x : PleatSt) (now : Nat) : Nat := 16 * x.buf.length + min 160 ((now - x.stamp) * 160 / frameTicks)

/-- The justification words sent (R287). -/
def jcWord (just : Int) (njo : Bool) : Nat := if just = 1 then 0x075 + 8 * njo.toNat else if just = -1 then 0x385 else 0x005

/-- The 16 AIS words that a pleater writes for a multiframe of a failed tributary; beyond 640 bits whole words are dropped and counted
(R289). -/
def Dev.pleatAis (d : Dev) (p : Nat) : Dev := (List.range 16).foldl (fun (d : Dev) _ => d.pleatWord p 0x3FF) d

/-- A multiframe of a pleater by its justification: its bits leave the buffer as 16 words, NJO with negative justification, a stuff bit with
positive; a fill below it repeats a word (R287 to R289). -/
def Dev.pleatTake (d : Dev) (p : Nat) (just : Int) : Dev :=
  let x := d.pleat p
  let n := (160 + just).toNat
  let short := x.buf.length < n
  let bits := if short then x.buf ++ x.buf.drop (x.buf.length - 10) else x.buf
  let data := bits.take n ++ List.replicate (n - bits.length) false
  let njo := decide (just = 1) && data.getD 160 false
  let ws := bitsWords 10 16 (data.take 160 ++ List.replicate (160 - data.length) false)
  let d1 := d.setPleat p { x with active := true, buf := bits.drop n, code := jcWord just njo, words := ws }
  if short then d1.pleatSlip p else d1

/-- The decision of a trunk multiframe boundary: inactive until the fill first reaches 320; no justification while the tributary is failed
(R286 to R289). -/
def Dev.pleatDecide (d : Dev) (p : Nat) : Dev :=
  match d.pleatTrib p with
  | none => d.setPleat p { d.pleat p with code := 0, words := [] }
  | some t =>
    if d.on TRIB.WIDE t then d.setPleat p { d.pleat p with code := 0, words := [] }
    else
      let failed := d.tribFailed t
      let d1 := if failed then d.pleatAis p else d
      let x := d1.pleat p
      let f := if failed then 16 * x.buf.length else x.fill16 d1.timebase
      if !x.active && decide (f < 16 * 320) then d1.setPleat p { x with code := 0, words := [] }
      else d1.pleatTake p (if failed then 0 else if 16 * 328 ≤ f then 1 else if f ≤ 16 * 312 then -1 else 0)

/-- The pleat indices that a port's tributaries feed. -/
def Dev.pleatsInUse (d : Dev) : List Nat :=
  (((List.range 16384).filter (fun t => d.pleated t && d.timingMode (d.rd TRIB.PORT_N t) != 0)).map (fun t => d.rd TRIB.PLEAT_IDX t)).eraseDups

/-- PLEAT_JUSTIFY (R289): every pleater decides. -/
def Dev.pleatBoundary (d : Dev) : Dev := d.pleatsInUse.foldl (fun d p => d.pleatDecide p) d

/-! ### Desynchronizers (R290 to R293) -/

/-- A triplet decided (R290). -/
def triplet (w hi : Nat) : Bool := decide (2 ≤ (w.testBit hi).toNat + (w.testBit (hi - 1)).toNat + (w.testBit (hi - 2)).toNat)

/-- DESYNC_ACTIVE shown. -/
def Dev.showDesync (d : Dev) (p : Nat) : Dev :=
  match d.pleatTrib p with
  | some t => d.flag TRIB.DESYNC_ACTIVE t 0 (d.desync p).active
  | none => d

/-- A received justification word of an index fed by trunk lane `l` (R290). -/
def Dev.jcReceive (d : Dev) (l p w : Nat) : Dev :=
  let x := d.desync p
  if w % 8 = 5 then
    if x.active then
      let pos := triplet w 9
      let neg := triplet w 6
      if pos && neg then (d.setDesync p { x with bad := 0, just := 0 }).inc DEV.JC_ERR 0 l
      else d.setDesync p { x with bad := 0, just := if pos then -1 else if neg then 1 else 0, njo := w.testBit 3 }
    else if 1 ≤ x.good then (d.setDesync p { x with active := true, start := true, good := 0, bad := 0, just := 0 }).showDesync p
    else d.setDesync p { x with good := 1 }
  else if x.active then
    if 1 ≤ x.bad then (d.setDesync p { DesyncSt.empty with mf := x.mf }).showDesync p |>.inc DEV.JC_ERR 0 l
    else (d.setDesync p { x with bad := x.bad + 1, just := 0 }).inc DEV.JC_ERR 0 l
  else d.setDesync p { x with good := 0 }

/-- Bits written into a desynchronizer; beyond 640 one whole word is dropped (R291, R292). -/
def Dev.desyncWrite (d : Dev) (p : Nat) (bits : List Bool) : Dev :=
  let x := d.desync p
  let b := x.buf ++ bits
  if 640 < b.length then (d.setDesync p { x with buf := b.take (min 640 (b.length - 10)) }).pleatSlip p else d.setDesync p { x with buf := b }

/-- A word of the trunk slot in trunk frame `f`; frame 15 completes the multiframe: 159, 160 or 161 bits are written, or 16
IDLE words where a slip fell in it (R288, R291, R293). -/
def Dev.desyncWord (d : Dev) (p f w : Nat) : Dev :=
  let x := d.desync p
  let ws := if f = 0 then [w] else x.mf ++ [w]
  let d1 := d.setDesync p { x with mf := ws }
  if f ≠ 15 ∨ !x.active then d1
  else if x.start then d1.setDesync p { d1.desync p with start := false, mf := [], just := 0, hit := false }
  else
    let bits :=
      if x.hit || ws.length != 16 then (List.replicate 16 0x155).flatMap (wordBits 10)
      else
        let b := ws.flatMap (wordBits 10)
        if x.just = -1 then b.take 159 else if x.just = 1 then b ++ [x.njo] else b
    (d1.setDesync p { d1.desync p with mf := [], just := 0, hit := false }).desyncWrite p bits

/-- A word read for a downstream line frame of a TRIB port; IDLE while inactive; below 10 bits the last word is repeated
(R290 to R292). -/
def Dev.desyncRead (d : Dev) (p : Nat) : Nat × Dev :=
  let x := d.desync p
  if !x.active || x.start then (0x155, d)
  else if x.buf.length < 10 then (x.last, d.pleatSlip p)
  else
    let w := bitsVal (x.buf.take 10)
    (w, d.setDesync p { x with buf := x.buf.drop 10, last := w })

/-- The loop of a TRIB port: its rate offset follows the fill of desynchronizer TREF_IDX within ±200 ppm; an inactive index
leaves it (R291, R292). -/
def Dev.tribLoop (d : Dev) (n : Nat) : Dev :=
  let x := d.desync (d.rd PORT.TREF_IDX n)
  if d.timingMode n = 2 ∧ x.active then
    let e : Int := (x.buf.length : Int) - 320
    let k := limitAbs (3200 * 65536) (FMap.get 0 d.sys.rates n + Config.rateKept * e)
    ({ d with sys := { d.sys with rates := FMap.set 0 d.sys.rates n k } }).wr PORT.TX_OFFSET n 0
      (codeOf 16 (limitAbs 3200 (Int.fdiv (k + Config.rateNow * e) 65536)))
  else d

end Sys2Proof.Machine
end

