-- ==== Sys2Proof/Machine/Trunk.lean ====
section
/-! DEFINITION. Trunk lanes: alignment, overhead, defects, delivery to the slip buffer (R283 to R285, R293, R308, R319 to R331). -/

namespace Sys2Proof.Machine

def Dev.trx (d : Dev) (l : Nat) : TrunkRx := FMap.get TrunkRx.reset d.mangle.rx l
def Dev.setTrx (d : Dev) (l : Nat) (x : TrunkRx) : Dev := { d with mangle := { d.mangle with rx := FMap.set TrunkRx.reset d.mangle.rx l x } }
def Dev.modTrx (d : Dev) (l : Nat) (f : TrunkRx → TrunkRx) : Dev := d.setTrx l (f (d.trx l))

/-- Whether a lane is enabled. -/
def Dev.trunkOn (d : Dev) (l : Nat) : Bool := d.on (HDR.ENABLE .trunk) l

/-- Words per frame and payload slots of a lane's rate (R319). -/
def Dev.trunkWords (d : Dev) (l : Nat) : Nat := if d.on TRUNK.RATE l then 65536 else 16384
def Dev.trunkSlots (d : Dev) (l : Nat) : Nat := if d.on TRUNK.RATE l then 65152 else 16000

/-- Whether pairing is in effect on the pair of a lane (R324). -/
def Dev.trunkPaired (d : Dev) (l : Nat) : Bool :=
  let a := l / 2 * 2
  d.on TRUNK.PAIR_EN a && d.trunkOn a && d.trunkOn (a + 1) && d.rd TRUNK.RATE a == d.rd TRUNK.RATE (a + 1)

/-- The selector of a trunk pair. -/
def Dev.pairSt (d : Dev) (p : Nat) : SelSt := FMap.get SelSt.reset d.mangle.pairSel p

/-- The lane that a trunk source reads: with pairing in effect the one the pair selector selects (R324, R346). -/
def Dev.sourceLane (d : Dev) (l : Nat) : Nat :=
  if l % 2 = 0 ∧ d.trunkPaired l ∧ (d.pairSt (l / 2)).onProt then l + 1 else l

/-! ### Defects and failure (R326, R327, R331) -/

def Dev.tDefect (d : Dev) (l b : Nat) : Bool := (d.rd TRUNK.DEFECTS l).testBit b

/-- The failure of a lane (R327). -/
def Dev.trunkFailedNow (d : Dev) (l : Nat) : Bool :=
  !d.trunkOn l || !(d.trx l).everFa || d.tDefect l 0 || d.tDefect l 1 || d.tDefect l 2 || d.tDefect l 3 ||
  (d.tDefect l 6 && d.on TRUNK.AIS_ON_TPLM l) || (d.tDefect l 7 && d.on TRUNK.AIS_ON_TTIM l)

def Dev.judgeTrunk (d : Dev) (l : Nat) : Dev := d.flag TRUNK.FAILED l 0 (d.trunkFailedNow l)

/-- A trunk defect set or cleared, with its event (R331). -/
def Dev.setTDefect (d : Dev) (l b : Nat) (v : Bool) : Dev :=
  let w := d.rd TRUNK.DEFECTS l
  ((d.wr TRUNK.DEFECTS l 0 (if v then orBit w b else w - (w &&& 2 ^ b))).cond .trunk l b v).judgeTrunk l

/-- Whether the defects TRDI to TTIM keep their state (R326). -/
def Dev.trunkFrozen (d : Dev) (l : Nat) : Bool := d.tDefect l 0 || d.tDefect l 1 || d.tDefect l 2 || d.tDefect l 3

/-! ### Alignment (R325) -/

/-- The checks of word 2: 0b10 in bits [9:8], the complement of the frame number in [3:0]. -/
def word2Ok (w : Nat) : Bool := w / 256 == 2 && w % 16 == 15 - w / 16 % 16
def word2Fn (w : Nat) : Nat := w / 16 % 16

/-- ALIGN of R331. -/
def Dev.showAlign (d : Dev) (l : Nat) : Dev :=
  let x := d.trx l
  d.wr TRUNK.ALIGN l 0 (if x.aligned then 2 else if x.pos.isSome then 1 else 0)

/-- Delivery to a lane's slip buffer stops; the next frame delivered is a first frame (R283). -/
def TrunkRx.stopDelivery (x : TrunkRx) : TrunkRx :=
  { x with deliver := false, whole := false, expect := none, bytes := [], sigs := [], slip := false, trace := [], cycle := none }

/-- The hunt of a lane starts anew. -/
def TrunkRx.hunt (x : TrunkRx) : TrunkRx :=
  { x.stopDelivery with cands := [], pos := none, fn := none, aligned := false, fawBad := 0, fnBad := 0, fnGood := 0, held := 0, aisRun := 0,
                        noAis := 0, label := ⟨0, 0⟩, role := ⟨0, 0⟩, epoch := ⟨0, 0⟩, sel := ⟨0, 0⟩ }

/-- Delivery stops in the middle of a multiframe: it has no CRC result, and its signalling is held (R308). -/
def Dev.trunkCut (d : Dev) (l : Nat) : Dev :=
  let d1 := d.modTrx l (fun x => { x with rei := false })
  if (d.trx l).bytes.isEmpty then d1 else d1.inc TRUNK.TSIG_HELD l

/-- Frame alignment lost: FA_LOSS, TLOF, a new hunt (R325, R326). -/
def Dev.trunkLoss (d : Dev) (l : Nat) : Dev :=
  (((((((d.trunkCut l).modTrx l TrunkRx.hunt).inc TRUNK.FA_LOSS l).slipRestart (512 + l)).setTDefect l 1 true)).showAlign l).trunkAligned l false

/-- A restart of the hunt that the FAW rule does not cause (R325, R488). -/
def Dev.trunkRestart (d : Dev) (l : Nat) : Dev :=
  if (d.trx l).pos.isSome then d.trunkLoss l else (d.modTrx l TrunkRx.hunt).showAlign l

/-- A candidate judged at its next frame; none where it is dropped. -/
def TrunkCand.judge (c : TrunkCand) (faws : List (Nat × Nat × Bool)) : Option TrunkCand :=
  match faws.find? (fun f => f.1 == c.pos) with
  | none => none
  | some (_, w, ais) =>
    if ais then some { c with passed := c.passed + 1, fn := c.fn.map (fun f => (f + 1) % 16) }
    else if !word2Ok w then none
    else
      match c.fn with
      | some f => if word2Fn w = (f + 1) % 16 then some { c with passed := c.passed + 1, fn := some (word2Fn w) } else none
      | none => some { c with passed := c.passed + 1, fn := some (word2Fn w) }

/-- A new candidate. A first word 2 that fails its own check gives no number (R325). -/
def TrunkCand.open (p w : Nat) (ais : Bool) : TrunkCand :=
  ⟨p, 1, if !ais && word2Ok w then some (word2Fn w) else none, 0⟩

/-- One frame of the hunt, and the candidate declared at its end, if any. -/
def huntStep (cs : List TrunkCand) (faws : List (Nat × Nat × Bool)) : List TrunkCand × Option TrunkCand :=
  let kept := cs.filterMap (fun c => c.judge faws)
  let all := kept ++ (faws.filter (fun f => !cs.any (fun c => c.pos == f.1))).map (fun f => TrunkCand.open f.1 f.2.1 f.2.2)
  let aged := all.map (fun c => if 3 ≤ c.passed then { c with age := c.age + 1 } else c)
  match aged.filter (fun c => decide (3 ≤ c.passed)) with
  | [] => (aged, none)
  | [c] => (aged, some c)
  | c :: r =>
    if (c :: r).any (fun x => decide (17 ≤ x.age)) then (aged, some (r.foldl (fun b x => if x.pos < b.pos then x else b) c)) else (aged, none)

/-- The bit positions where the 20 bits of a stream equal 0xB_39B5 (R325). -/
def fawScan (bits : List Bool) : List Nat :=
  ((bits.foldl (fun (a : Nat × Nat × List Nat) b =>
    let v := a.1 * 2 % 2 ^ 20 + b.toNat
    (v, a.2.1 + 1, if v = 0xB39B5 ∧ 20 ≤ a.2.1 + 1 then (a.2.1 - 19) :: a.2.2 else a.2.2)) (0, 0, [])).2.2).reverse

/-- Every position of a frame's length where the FAW stands, with word 2 there and whether words 2 to 127 there are trunk AIS. -/
def fawsOf (bits : List Bool) (len : Nat) : List (Nat × Nat × Bool) :=
  ((fawScan (bits.take (len + 19)))).map (fun p =>
    let ws := bitsWords 10 126 (bits.drop (p + 20))
    (p, ws.headD 0, ws.all (fun w => w == 0x3FF)))

/-- A frame of the hunt of a lane, by the positions where the FAW stands (R325). -/
def Dev.trunkHunt (d : Dev) (l : Nat) (faws : List (Nat × Nat × Bool)) : Dev :=
  let x := d.trx l
  let (cs, won) := huntStep x.cands faws
  match won with
  | none => d.setTrx l { x with cands := cs }
  | some c =>
    let y := { x with cands := [], pos := some c.pos, fn := c.fn.map (fun n => (n + 1) % 16), aligned := c.fn.isSome, everFa := true,
                      fawBad := 0, fnBad := 0, fnGood := 0, held := 0, aisRun := 0, noAis := 0 }
    let d1 := ((d.setTrx l y).showAlign l).trunkAligned l true
    if c.fn.isSome && d1.tDefect l 2 then d1.setTDefect l 2 false else d1.judgeTrunk l

/-! ### Overhead (R328) -/

/-- A value added to a run. -/
def ValueRun.add (r : ValueRun) (v : Nat) : ValueRun := if r.count ≠ 0 ∧ r.value = v then ⟨v, min 3 (r.count + 1)⟩ else ⟨v, 1⟩

/-- The 32-bit value in word 3 of four frames. -/
def bytes4 (m : FMap Nat) (f : Nat) : Nat := (List.range 4).foldl (fun v i => v * 256 + FMap.get 0 m (f + i) % 256) 0

/-- The trace byte of a good multiframe (R225, R328). -/
def TrunkRx.traceByte (x : TrunkRx) (start : Bool) (v : Nat) : TrunkRx × Bool :=
  if start then ({ x with trace := [v], cycle := if x.trace.isEmpty then x.cycle else none }, false)
  else if x.trace.isEmpty then ({ x with cycle := none }, false)
  else
    let t := x.trace ++ [v]
    if t.length = 16 then
      let hit := x.cycle == some t && x.accepted != t
      ({ x with trace := [], cycle := some t, accepted := if hit then t else x.accepted }, hit)
    else ({ x with trace := t }, false)

/-- Sixteen bytes written in the layout of TX_TRACE. -/
def Dev.wrTrace (d : Dev) (f : Field) (i : Nat) (t : List Nat) : Dev :=
  (List.range 4).foldl (fun d w => d.wr f i w ((List.range 4).foldl (fun v b => v + t.getD (4 * w + b) 0 * 2 ^ (8 * b)) 0)) d

/-- Sixteen bytes read in that layout. -/
def Dev.rdTrace (d : Dev) (f : Field) (i : Nat) : List Nat := (List.range 16).map (fun b => d.rd f i (b / 4) / 2 ^ (8 * (b % 4)) % 256)

/-- TPLM and TTIM compared (R326). Before the first acceptance the accepted trace is what RX_TRACE then shows (DEDUCED, log entry 125). -/
def Dev.judgeTrunkLabels (d : Dev) (l : Nat) : Dev :=
  if d.trunkFrozen l then d
  else
    let e := d.rd TRUNK.EXP_TLABEL l
    let seen := (d.trx l).label.count = 3 ∨ d.rd TRUNK.RX_TLABEL l ≠ 0
    let d1 := if e = 0 then d.setTDefect l 6 false else if seen then d.setTDefect l 6 (d.rd TRUNK.RX_TLABEL l != e) else d
    let t := d1.rdTrace TRUNK.EXP_TTRACE l
    if t.all (fun b => b == 0) then d1.setTDefect l 7 false
    else d1.setTDefect l 7 ((d1.trx l).accepted != t)

/-- The overhead of a multiframe with a good CRC-10 (R308, R326, R328). `epoch` acts on a newly accepted EPOCH and SELECTED_EPOCH
through the registers that pairing reads. -/
def Dev.trunkOverhead (d : Dev) (l : Nat) (m : FMap Nat) : Dev :=
  let x := d.trx l
  let w := fun (f : Nat) => FMap.get 0 m f
  let lab := x.label.add (w 1 % 256)
  let role := x.role.add (w 2 % 256)
  let ep := x.epoch.add (bytes4 m 3)
  let sel := x.sel.add (bytes4 m 7)
  let (y, hit) := { x with label := lab, role := role, epoch := ep, sel := sel }.traceByte ((w 11).testBit 9) (w 11 % 256)
  let trdi := (w 12).testBit 9
  let a := if trdi then min 3 (x.trdiRun + 1) else 0
  let b := if trdi then 0 else min 3 (x.noTrdi + 1)
  let d1 := d.setTrx l { y with trdiRun := a, noTrdi := b }
  let d2 := if 3 ≤ lab.count ∧ d1.rd TRUNK.RX_TLABEL l ≠ lab.value then (d1.wr TRUNK.RX_TLABEL l 0 lab.value).raise .trunk l 10 else d1
  let d3 := if hit then (d2.wrTrace TRUNK.RX_TRACE l y.accepted).raise .trunk l 11 else d2
  let d4 := if 2 ≤ role.count then d3.wr TRUNK.RX_ROLE l 0 role.value else d3
  let d5 := if 2 ≤ ep.count then d4.wr TRUNK.RX_EPOCH l 0 ep.value else d4
  let d6 := if 2 ≤ sel.count ∧ d5.rd TRUNK.RX_SEL_EPOCH l ≠ sel.value then (d5.wr TRUNK.RX_SEL_EPOCH l 0 sel.value).raise .trunk l 9 else d5
  let d7 := if (w 12).testBit 8 then d6.inc TRUNK.FE_CRC_ERR l else d6
  let d8 := if d7.trunkFrozen l then d7 else if a = 3 then d7.setTDefect l 4 true else if b = 3 then d7.setTDefect l 4 false else d7
  d8.judgeTrunkLabels l

/-! ### TSD (R326) -/

/-- A new TSD window. -/
def Dev.tsdWindow (d : Dev) (l : Nat) : Dev := (d.modTrx l (fun x => { x with winSeen := 0 })).wr TRUNK.TSD_WIN_ERR l 0 0

/-- The end of a window of 500. -/
def Dev.tsdEnd (d : Dev) (l : Nat) : Dev :=
  let e := d.rd TRUNK.TSD_WIN_ERR l
  let d1 := d.tsdWindow l
  if d1.tDefect l 5 && decide (e ≤ d1.rd TRUNK.TSD_CLR l) then d1.setTDefect l 5 false else d1

/-- A CRC result counted. -/
def Dev.tsdCount (d : Dev) (l : Nat) (bad : Bool) : Dev :=
  if d.trunkFrozen l then d
  else
    let d0 := if 500 ≤ (d.trx l).winSeen then d.tsdEnd l else d
    let d1 := d0.modTrx l (fun x => { x with winSeen := x.winSeen + 1 })
    let d2 := if bad then d1.inc TRUNK.TSD_WIN_ERR l else d1
    if bad && !d2.tDefect l 5 && decide (d2.rd TRUNK.TSD_DECL l ≤ d2.rd TRUNK.TSD_WIN_ERR l) then (d2.tsdWindow l).setTDefect l 5 true else d2

/-! ### Frames with alignment (R308, R322, R325) -/

/-- The candidate signalling words committed or held (R308). -/
def Dev.trunkSigs (d : Dev) (l : Nat) (good : Bool) : Dev :=
  let x := d.trx l
  if good && !d.on TRUNK.FAILED l && !x.slip then
    d.setTrx l { x with tsig := (List.range (d.trunkSlots l)).foldl (fun m t => FMap.set 0 m t (FMap.get 0 x.sigs t)) x.tsig }
  else d.inc TRUNK.TSIG_HELD l

/-- The end of a received multiframe: its CRC-10 result at frame 0 of the next (R322, R326, R328). -/
def Dev.trunkMfEnd (d : Dev) (l : Nat) (w3 : Nat) : Dev :=
  let x := d.trx l
  match x.expect with
  | none => if x.bytes.isEmpty then d else (d.modTrx l (fun x => { x with rei := false })).trunkSigs l false
  | some e =>
    let good := decide (w3 = e)
    let d1 := d.inc (if good then TRUNK.CRC_GOOD_MF else TRUNK.CRC_ERR_MF) l
    let d2 := (d1.modTrx l (fun x => { x with rei := !good })).trunkSigs l good
    let d3 := if good then d2.trunkOverhead l x.bytes else d2.modTrx l (fun x => { x with trace := [], cycle := none })
    d3.tsdCount l (!good)

/-- The active page's trunk-to-line pleated entries that a lane feeds: pleat index and trunk slot (R311, R324). -/
def Dev.lanePleats (d : Dev) (l : Nat) : List (Nat × Nat) :=
  d.mangle.cmem.filterMap (fun e =>
    let v := e.2 ^^^ 15
    if e.1 / 32768 = d.rd MANGLE.ACTIVE_PAGE ∧ v % 16 = 5 then
      let dst := v / 2 ^ 44
      let src := v / 2 ^ 24 % 2 ^ 20
      if src.testBit 19 ∧ d.sourceLane (src / 65536 % 8) = l ∧ !dst.testBit 19 then
        match (d.tribs (dst / 1024)).find? (fun t => d.on TRIB.PLEAT t && d.rd TRIB.TX_SLOT t == dst % 1024) with
        | some t => some (d.rd TRIB.PLEAT_IDX t, src % 65536)
        | none => none
      else none
    else none)

/-- The justification words of a frame (R290). -/
def Dev.trunkJc (d : Dev) (l f : Nat) (words : List Nat) : Dev :=
  let d1 := d.modTrx l (fun x =>
    { x with jcActive := x.jcActive.filter (fun p => p / 256 != f) ++
        ((List.range 256).filter (fun i => words.getD (128 + i) 0 % 8 == 5)).map (fun i => 256 * f + i) })
  if d1.profileS then
    ((d1.lanePleats l).filter (fun x => x.1 / 256 == f)).foldl (fun d x => d.jcReceive l x.1 (words.getD (128 + x.1 % 256) 0)) d1
  else d1

/-- A frame received with multiframe alignment: descrambled, its CRC-10, overhead, signalling and justification words taken, its
payload delivered (R308, R321, R322, R325). Nothing is taken before the first frame 0, with which the scrambler starts. A frame with TAIS present
voids the CRC-10 result (R326). `last` is the stamp of the frame's last word (R283). -/
def Dev.trunkContent (d : Dev) (l f : Nat) (raw : List Nat) (last : Nat) : Dev :=
  let x := d.trx l
  if f ≠ 0 ∧ !x.deliver then d
  else
  let seed := if f = 0 then lfsrSeed else x.lfsr
  let (bits, s) := scramble ((raw.drop 3).flatMap (wordBits 10)) seed
  let body := bitsWords 10 (raw.length - 3) bits
  let words := raw.take 3 ++ body
  let d1 := if f = 0 then d.trunkMfEnd l (body.headD 0) else d
  let y := d1.trx l
  let begin := decide (f = 0)
  let crc := crc10 (body.flatMap (wordBits 10)) (if begin then 0x3FF else y.crc)
  let whole := (begin || y.whole) && !d.tDefect l 3
  let sig := fun (m : FMap Nat) => ((words.drop 384).zipIdx).foldl
    (fun m w => if w.1.testBit 8 then FMap.set 0 m w.2 (orBit (FMap.get 0 m w.2) (15 - f)) else m) m
  let z := { y with
    lfsr := s
    crc := crc
    whole := whole
    expect := if f = 15 then (if whole then some crc else none) else if begin then none else y.expect
    bytes := FMap.set 0 (if begin then [] else y.bytes) f (body.headD 0)
    sigs := sig (if begin then [] else y.sigs)
    slip := y.slip && !begin
    deliver := y.deliver || begin }
  let d2 := (d1.setTrx l z).trunkJc l f words
  if z.deliver then d2.modTrx l (fun x => { x with incoming := x.incoming ++ [⟨last, f, words⟩] }) else d2

/-- A frame at the declared position (R325, R326). `first` and `last` are the stamps of its first bit and its last word. -/
def Dev.trunkTrack (d : Dev) (l : Nat) (ws : List Nat) (first last : Nat) : Dev :=
  let fawOk := ws.getD 0 0 == 0x2CE && ws.getD 1 0 == 0x1B5
  let x := d.trx l
  let bad := if fawOk then 0 else x.fawBad + 1
  let d0 := if fawOk then d.trunkFaw l first else d.inc TRUNK.FAW_ERR l
  if 4 ≤ bad then d0.trunkLoss l
  else
    let held := min 16 (x.held + 1)
    let other := (((ws.drop 2).take 126).filter (fun w => w != 0x3FF)).length
    let ais := other == 0
    let aisRun := if ais then min 32 (x.aisRun + 1) else 0
    let noAis := if 2 ≤ other then min 32 (x.noAis + 1) else 0
    let d1 := d0.setTrx l { d0.trx l with fawBad := bad, held := held, aisRun := aisRun, noAis := noAis }
    let d2 := if held = 16 ∧ d1.tDefect l 1 then d1.setTDefect l 1 false else d1
    -- TAIS keeps its state while TLOS, TLOF or TLOMF is present, as AIS does under R249 (DEDUCED, log entry 134)
    let d3 := if d2.tDefect l 0 || d2.tDefect l 1 || d2.tDefect l 2 then d2 else if aisRun = 32 then d2.setTDefect l 3 true
      else if noAis = 32 then d2.setTDefect l 3 false else d2
    let w2 := ws.getD 2 0
    let y := d3.trx l
    let next := fun (f : Nat) => (f + 1) % 16
    if ais then
      -- not judged: the expected number still advances
      let d4 := d3.setTrx l { y with fn := y.fn.map next }
      match y.fn with
      | some f => if y.aligned then d4.trunkContent l f ws last else d4
      | none => d4
    else if y.aligned then
      let f := y.fn.getD 0
      let ok := word2Ok w2 && word2Fn w2 == f
      let k := if ok then 0 else y.fnBad + 1
      if 3 ≤ k then
        let d4 := (((d3.trunkCut l).setTrx l { y.stopDelivery with rei := false, aligned := false, fn := some (next f), fnBad := 0, fnGood := 0 }).slipRestart (512 + l)).showAlign l
        if d4.tDefect l 3 then d4 else d4.setTDefect l 2 true
      else (d3.setTrx l { y with fn := some (next f), fnBad := k }).trunkContent l f ws last
    else
      let found := fun (d : Dev) (y : TrunkRx) (f : Nat) =>
        let e := (d.setTrx l { y with aligned := true, fn := some (next f), fnBad := 0, fnGood := 0 }).showAlign l
        if e.tDefect l 2 then e.setTDefect l 2 false else e
      match y.fn with
      | none => if word2Ok w2 then found d3 y (word2Fn w2) else d3
      | some f =>
        if word2Ok w2 then
          let k := if word2Fn w2 = f ∧ 0 < y.fnGood then y.fnGood + 1 else 1
          if 3 ≤ k then found d3 y (word2Fn w2) else d3.setTrx l { y with fn := some (next (word2Fn w2)), fnGood := k }
        else d3.setTrx l { y with fn := some (next f), fnGood := 0 }

/-- The words of one frame time taken by a lane's deframer, in the order received and wherever the frame begins in them. The frame at a position
is complete with them once it began in the words of the frame time before (R325). -/
def Dev.trunkReceive (d : Dev) (l : Nat) (ws : List Nat) : Dev :=
  let x := d.trx l
  let d1 := d.setTrx l { x with raw := ws }
  let n := ws.length
  if x.raw.length ≠ n then d1
  else
    let bits := (x.raw ++ ws).flatMap (wordBits 10)
    let stamp := fun (left : Nat) => d.timebase - left * frameTicks / (10 * n)
    match x.pos with
    | some p => d1.trunkTrack l (bitsWords 10 n (bits.drop p)) (stamp (20 * n - p)) (stamp (10 * n - p))
    | none => d1.trunkHunt l (fawsOf bits (10 * n))

/-! ### The slip buffer of a lane (R283 to R285, R293) -/

/-- PLEAT_HIT: a slip on a lane that carries an active justification word (R293). -/
def Dev.pleatHit (d : Dev) (l : Nat) : Dev :=
  if d.profileS && !(d.trx l).jcActive.isEmpty then
    (d.lanePleats l).foldl (fun d x => d.setDesync x.1 { d.desync x.1 with hit := true, just := 0 }) ((d.inc DEV.PLEAT_HIT 0 l).raise .trunk l 8)
  else d

/-- A trunk frame enters its slip buffer. -/
def Dev.trunkSlip (d : Dev) (l : Nat) : Dev :=
  match (d.trx l).incoming with
  | [] => d
  | f :: r =>
    let (b, fill, act) := slipStep d.sys.sysPhase (d.slip (512 + l)).b f.time
    let d1 := ((d.modTrx l (fun x => { x with incoming := r })).setSlip (512 + l) { d.slip (512 + l) with b := some b }).wr DEV.TRK_FILL 0 l
      (min 1023 (max fill 0).toNat)
    let put := fun (d : Dev) => d.modTrx l (fun x => { x with queue := x.queue ++ [{ f with time := b }] })
    match act with
    | .normal => put d1
    | .repeated => (((put d1).inc DEV.TRUNK_SLIPS 0 l).modTrx l (fun x => { x with slip := true })).pleatHit l
    | .dropped => ((d1.inc DEV.TRUNK_SLIPS 0 l).modTrx l (fun x => { x with slip := true })).pleatHit l

/-! ### Meanings -/

/-- TRUNK_CDR_CHANGE (R326). -/
def execTrunkCdrChange (lane : Fin 8) (lock : Bool) (s : State) : Host.Outcome State Fault Refusal :=
  stay s (fun d =>
    let d1 := d.flag TRUNK.CDR_LOCK lane 0 lock
    if !d1.trunkOn lane then d1
    else if lock then d1.modTrx lane (fun x => { x with lockFrom := some d1.timebase })
    else (d1.modTrx lane (fun x => { x with lockFrom := none })).setTDefect lane 0 true)

/-- TLOS_CLEAR (R326): lock held without a break for 163,840 ticks. -/
def execTlosClear (lane : Fin 8) (s : State) : Host.Outcome State Fault Refusal :=
  stay s (whenDev
    (fun d => d.tDefect lane 0 && match (d.trx lane).lockFrom with | some t => d.passed t 163840 | none => false)
    (fun d => (d.modTrx lane (fun x => { x with lockFrom := none })).setTDefect lane 0 false))

/-- TSD_WINDOW_END (R326). -/
def execTsdWindowEnd (lane : Fin 8) (s : State) : Host.Outcome State Fault Refusal :=
  stay s (whenDev (fun d => decide (500 ≤ (d.trx lane).winSeen) && !d.trunkFrozen lane) (fun d => d.tsdEnd lane))

/-- A lane switched on or off (R331). -/
def Dev.trunkEnable (d : Dev) (l : Nat) (was : Bool) : Dev :=
  if d.trunkOn l == was then d
  else
    let d1 := ((d.setTrx l { TrunkRx.reset with tsig := (d.trx l).tsig, accepted := (d.trx l).accepted }).wr TRUNK.DEFECTS l 0 0).wr (HDR.LEVEL .trunk) l 0
      (d.rd (HDR.LEVEL .trunk) l / 256 * 256)
    (((d1.wr TRUNK.TSD_WIN_ERR l 0 0).slipRestart (512 + l)).showAlign l).judgeTrunk l |>.trunkAligned l false

/-- TRUNK_ENABLE_WRITE (R331): the CTRL word of a TRUNK page. -/
def execTrunkEnableWrite (lane : Fin 8) (value : Word) (s : State) : Host.Outcome State Fault Refusal :=
  unlessMisuse (s.dev.wordMisuse .trunk lane 8 value.toNat)
    (stay s (whenDev (fun d => d.writable .trunk)
      (fun d => (d.writeFields (0x10000 + 4096 * lane.val + 8) .trunk lane 8 value.toNat).trunkEnable lane (d.trunkOn lane))))

end Sys2Proof.Machine
end

