-- ==== Sys2Proof/Machine/Protect.lean ====
section
/-! DEFINITION. Connection entries and slot addresses (R299 to R302), and protection switching: requests, hold-off, restoration,
port groups with APS, trunk pairs (R332 to R353). -/

namespace Sys2Proof.Machine

/-! ### Connection entries (R299 to R302) -/

/-- A connection entry. -/
structure Conn where
  index : Nat
  dst   : Nat
  srcA  : Nat
  srcB  : Nat
  mode  : Nat
  deriving DecidableEq, Repr

def Conn.of (i v : Nat) : Conn := ⟨i, v / 2 ^ 44 % 2 ^ 20, v / 2 ^ 24 % 2 ^ 20, v / 16 % 2 ^ 20, v % 16⟩

/-- Entry `i` of page `g`; at reset 0x0000_0000_0000_000F (R313). -/
def Dev.cmemWord (d : Dev) (g i : Nat) : Nat := FMap.get 0 d.mangle.cmem (g * 32768 + i) ^^^ 15

/-- The entries of a page with a MODE other than 15, by index. -/
def Dev.pageEntries (d : Dev) (g : Nat) : List Conn :=
  (d.mangle.cmem.filterMap (fun e =>
    if e.1 / 32768 = g then
      let c := Conn.of (e.1 % 32768) (e.2 ^^^ 15)
      if c.mode = 15 then none else some c
    else none))

def Dev.activePage (d : Dev) : Nat := d.rd MANGLE.ACTIVE_PAGE

/-- Whether an address is on the trunk side, and its parts. -/
def isTrunk (a : Nat) : Bool := a.testBit 19
def addrLane (a : Nat) : Nat := a / 65536 % 8
def addrSlot (a : Nat) : Nat := a % 65536
def addrPort (a : Nat) : Nat := a / 1024 % 512
def addrQ (a : Nat) : Nat := a % 1024

/-- Whether a trunk address is valid (R301). -/
def Dev.trunkValid (d : Dev) (a : Nat) : Bool :=
  let l := addrLane a
  d.trunkOn l && decide (addrSlot a < d.trunkSlots l) && !(l % 2 == 1 && d.trunkPaired l)

/-- The slot count of a port's configuration, whether or not it is enabled (R300). -/
def Dev.cfgSlots (d : Dev) (n : Nat) : Nat :=
  if d.isPam n then (if d.pamValid n then (d.pamGeom n).slots else 0) else (if d.cfgValid n then (d.chirpGeom n).slots else 0)

/-- Whether an address is valid as a destination and as a source (R300, R301). -/
def Dev.dstValid (d : Dev) (a : Nat) : Bool :=
  if isTrunk a then d.trunkValid a else decide (1 ≤ addrQ a ∧ addrQ a ≤ d.cfgSlots (addrPort a))
def Dev.srcValid (d : Dev) (a : Nat) : Bool :=
  if isTrunk a then d.trunkValid a
  else
    let n := addrPort a
    decide (1 ≤ addrQ a ∧ addrQ a ≤ if d.shared n then 16 * d.rd PORT.BURST_SLOTS n else d.cfgSlots n)

/-- The station and upstream slot of a line source (R300). -/
def Dev.srcStnSlot (d : Dev) (a : Nat) : Nat × Nat :=
  let n := addrPort a
  if d.shared n then
    let k := max 1 (d.rd PORT.BURST_SLOTS n)
    ((addrQ a - 1) / k, (addrQ a - 1) % k + 1)
  else (0, addrQ a)

/-- The equipped tributary that occupies an upstream slot, and whether the slot is its first. -/
def Dev.srcTrib (d : Dev) (a : Nat) : Option (Nat × Bool) :=
  if isTrunk a then none
  else
    let (s, i) := d.srcStnSlot a
    ((d.stnTribs (addrPort a) s).find? (fun t =>
      d.rd TRIB.RX_SLOT t != 0 && (d.rd TRIB.RX_SLOT t == i || (d.on TRIB.WIDE t && d.rd TRIB.RX_SLOT t + 1 == i)))).map
      (fun t => (t, d.rd TRIB.RX_SLOT t == i))

/-- The equipped tributary that occupies a downstream slot, and whether the slot is its first. -/
def Dev.dstTrib (d : Dev) (n q : Nat) : Option (Nat × Bool) :=
  ((d.tribs n).find? (fun t =>
    d.rd TRIB.TX_SLOT t != 0 && (d.rd TRIB.TX_SLOT t == q || (d.on TRIB.WIDE t && d.rd TRIB.TX_SLOT t + 1 == q)))).map
    (fun t => (t, d.rd TRIB.TX_SLOT t == q))

/-! ### Groups (R332, R340) -/

/-- Whether the group of a working port is valid (R340). -/
def Dev.groupValid (d : Dev) (n : Nat) : Bool :=
  let p := d.rd PORT.PARTNER n
  d.on PORT.PROT_EN n && p != n && !d.on PORT.PROT_EN p && !d.shared n && !d.shared p &&
  !(List.range n).any (fun m => d.on PORT.PROT_EN m && d.rd PORT.PARTNER m == p)

/-- The valid groups, by working port. -/
def Dev.groups (d : Dev) : List Nat := (List.range 512).filter (fun n => d.on PORT.PROT_EN n && d.groupValid n)

/-- The working port of the valid group whose working or protection port this is. -/
def Dev.groupOf (d : Dev) (n : Nat) : Option Nat := d.groups.find? (fun w => w == n || d.rd PORT.PARTNER w == n)

/-- Whether a MODE 1 entry is governed by a port group (R332). -/
def Dev.groupEntry (d : Dev) (c : Conn) : Option Nat :=
  if isTrunk c.srcA || isTrunk c.srcB then none
  else
    let n := addrPort c.srcA
    if d.groupValid n && addrPort c.srcB == d.rd PORT.PARTNER n then some n else none

/-! ### Configuration and triggers (R332, R334) -/

/-- What a selector is configured with: revertive, WTR in minutes, hold-off in 100 ms units, the command. -/
structure SelCfg where
  revertive : Bool
  wtr       : Nat
  holdOff   : Nat
  command   : Nat
  deriving DecidableEq, Repr

/-- SF and SD of the two sources. -/
structure SelTrig where
  workSf : Bool
  workSd : Bool
  protSf : Bool
  protSd : Bool
  deriving DecidableEq, Repr

/-- The tributary context that configures an entry's selector (R332). -/
def Dev.entryCtx (d : Dev) (c : Conn) : Option Nat :=
  match d.srcTrib c.srcA with
  | some (t, _) => some t
  | none => (d.srcTrib c.srcB).map Prod.fst

def Dev.entryCfg (d : Dev) (c : Conn) : SelCfg :=
  match d.entryCtx c with
  | some t => ⟨d.on TRIB.REVERTIVE t, d.rd TRIB.WTR t, d.rd TRIB.HOLD_OFF t, d.rd TRIB.COMMAND t⟩
  | none => ⟨false, 1, 0, 0⟩

def Dev.groupCfg (d : Dev) (n : Nat) : SelCfg := ⟨d.on PORT.REVERTIVE n, d.rd PORT.WTR n, d.rd PORT.HOLD_OFF n, d.rd PORT.COMMAND n⟩

def Dev.pairCfg (d : Dev) (p : Nat) : SelCfg :=
  ⟨d.on DEV.PAIR_REVERTIVE 0 p, d.rd DEV.PAIR_WTR 0 p, d.rd DEV.PAIR_HOLD_OFF 0 p, d.rd DEV.PAIR_COMMAND 0 p⟩

/-- SF and SD of a trunk lane (R327). -/
def Dev.laneTrig (d : Dev) (l : Nat) : Bool × Bool := (d.on TRUNK.FAILED l || !d.trunkOn l, d.tDefect l 5 && !d.on TRUNK.FAILED l)

/-- SF and SD of a slot address (R262, R334). -/
def Dev.slotTrig (d : Dev) (a : Nat) : Bool × Bool :=
  if isTrunk a then d.laneTrig (d.sourceLane (addrLane a))
  else
    let n := addrPort a
    if !d.enabled n then (true, false)
    else
      match d.srcTrib a with
      | none => (true, false)
      | some (t, _) =>
        let f := d.tribFailed t
        (f && d.on PORT.PROT_SF_EN n, !f && d.hasDefect n (d.tribStn t) 5 && d.on PORT.PROT_SD_EN n)

/-- SF and SD of a port of a group (R334). -/
def Dev.portTrig (d : Dev) (n : Nat) : Bool × Bool :=
  let f := d.portFailed n
  (!d.enabled n || (f && d.on PORT.PROT_SF_EN n), !f && d.defect n 5 && d.on PORT.PROT_SD_EN n)

def trigOf (w p : Bool × Bool) : SelTrig := ⟨w.1, w.2, p.1, p.2⟩

/-! ### Requests (R333, R335, R336, R338) -/

/-- Whether a request code selects protection; MS by its direction (R333). -/
def selects (code : Nat) (ms : Bool) : Bool :=
  match code with
  | 0xD => true | 0xB => true | 0x9 => true | 0x5 => true | 0x1 => true | 0x7 => ms | _ => false

/-- The triggers and hold-off timers of a selector at TIMEBASE `now` (R335, R339). -/
def SelSt.timers (x : SelSt) (cfg : SelCfg) (tr : SelTrig) (now : Nat) : SelSt :=
  let one := fun (at? : Option Nat) (ok present : Bool) =>
    if !present then (none, false)
    else
      let t := at?.getD now
      (some t, ok || !x.started || decide (t + msTicks (100 * cfg.holdOff) ≤ now))
  let w := one x.workAt x.workOk (tr.workSf || tr.workSd)
  let p := one x.protAt x.protOk (tr.protSf || tr.protSd)
  { x with started := true, workAt := w.1, workOk := w.2, protAt := p.1, protOk := p.2 }

/-- The highest local request of commands and triggers (R333). -/
def SelSt.request (x : SelSt) (cfg : SelCfg) (tr : SelTrig) : Nat :=
  if cfg.command = 1 then 0xF
  else if x.protOk && tr.protSf then 0xE
  else if cfg.command = 2 then 0xD
  else if x.workOk && tr.workSf then 0xB
  else if x.workOk && tr.workSd && !tr.protSd then 0x9
  else if cfg.command = 3 ∨ cfg.command = 4 then 0x7
  else 0

/-- Restoration: WTR or DNR started, gone on with or ended (R336). `r` is the local request of commands and triggers. -/
def SelSt.restoring (x : SelSt) (cfg : SelCfg) (tr : SelTrig) (r now : Nat) : Restore :=
  if r ≠ 0 then (match x.restore with | .wtr e => if 5 < r then .none else .wtr e | _ => .none)
  else
    match x.restore with
    | .wtr e => if e ≤ now then .none else .wtr e
    | .dnr => .dnr
    | .none =>
      if !x.onProt then .none
      else if x.own && (x.localReq = 0xB || x.localReq = 0x9) then (if cfg.revertive then .wtr (now + secTicks (60 * cfg.wtr)) else .dnr)
      else if (x.localReq = 0xD || (x.localReq = 0x7 && x.msProt)) && !tr.workSf && !tr.workSd && !cfg.revertive then .dnr
      else .none

/-- The code of a restoration state. -/
def Restore.code : Restore → Nat
  | .none => 0 | .wtr _ => 5 | .dnr => 1

/-- A higher request of the far end ends WTR and DNR as a local one does (R336; DEDUCED, log entry 138). -/
def Restore.against (x : Restore) (remote : Nat) : Restore := if x.code < remote then .none else x

/-- One evaluation of a selector with the accepted remote request (code and SIG), NR where there is none: the new state (R338,
R339, R343). -/
def SelSt.eval (x : SelSt) (cfg : SelCfg) (tr : SelTrig) (remote : Nat × Bool) (now : Nat) : SelSt :=
  let y := x.timers cfg tr now
  let r := y.request cfg tr
  let rest := (y.restoring cfg tr r now).against remote.1
  let loc := max r rest.code
  let ms := cfg.command == 3
  let own := decide (remote.1 ≤ loc)
  let top := if own then loc else remote.1
  { y with restore := rest, localReq := loc, msProt := ms, top := top, own := own
           onProt := selects top (if own then ms else remote.2) }

/-- A running hold-off timer that is due has expired; the next walk forms the request of it (R334, R335). -/
def SelSt.holdOffEnds (x : SelSt) (hold now : Nat) : SelSt :=
  let due := fun (at? : Option Nat) => match at? with | some t => decide (t + hold ≤ now) | none => false
  { x with workOk := x.workOk || due x.workAt, protOk := x.protOk || due x.protAt }

/-- WTR has expired: the request becomes NR; the next walk moves the selector with whatever requests it finds (R336, R338, R339). -/
def SelSt.wtrEnds (x : SelSt) : SelSt := { x with restore := .none, localReq := 0, top := if x.own then 0 else x.top }

/-- Whether a hold-off timer of a selector runs. -/
def SelSt.holding (x : SelSt) : Bool := (x.workAt.isSome && !x.workOk) || (x.protAt.isSome && !x.protOk)

/-- Whole seconds of WTR left, rounded up. -/
def Restore.left (r : Restore) (now : Nat) : Nat := match r with | .wtr e => ceilDiv (e - now) (secTicks 1) | _ => 0

/-! ### The selectors -/

def Dev.groupSt (d : Dev) (n : Nat) : SelSt := FMap.get SelSt.reset d.mangle.group n
def Dev.entrySt (d : Dev) (i : Nat) : SelSt := FMap.get SelSt.reset d.mangle.entrySel i
def Dev.aps (d : Dev) (n : Nat) : ApsSt := FMap.get ApsSt.reset d.mangle.aps n

/-- A change of position counted and raised (R349 to R353). -/
def Dev.protSwitch (d : Dev) (f : Field) (inst idx : Nat) (changed : Bool) : Dev :=
  if changed then (d.inc f inst idx).raise .mangle 0 6 else d

/-- The remote request of a group: NR while the protection port is failed, the group unidirectional, or APS_MISMATCH present
(R343). -/
def Dev.remoteReq (d : Dev) (n : Nat) : Nat × Bool :=
  if !d.on PORT.BIDIR n || d.portFailed (d.rd PORT.PARTNER n) || !d.enabled (d.rd PORT.PARTNER n) || d.on PORT.MISMATCH n then (0, false)
  else ((d.aps n).remote, (d.aps n).sig == 1)

/-- The registers of a group (R349). -/
def Dev.showGroup (d : Dev) (n : Nat) : Dev :=
  let x := d.groupSt n
  ((((d.wr PORT.TOP_REQ n 0 x.top).wr PORT.LOCAL_REQ n 0 x.localReq).wr PORT.REMOTE_REQ n 0 (d.remoteReq n).1).flag PORT.SELECTED n 0
    x.onProt).wr PORT.WTR_LEFT n 0 (x.restore.left d.timebase)

/-- A group evaluated; an accepted MS is removed by a request above it (R334, R337, R338). -/
def Dev.evalGroup (d : Dev) (n : Nat) : Dev :=
  let x := d.groupSt n
  let y := x.eval (d.groupCfg n) (trigOf (d.portTrig n) (d.portTrig (d.rd PORT.PARTNER n))) (d.remoteReq n) d.timebase
  let d1 := { d with mangle := { d.mangle with group := FMap.set SelSt.reset d.mangle.group n y } }
  let d2 := if 7 < y.top ∧ 3 ≤ d1.rd PORT.COMMAND n then d1.wr PORT.COMMAND n 0 0 else d1
  (d2.protSwitch PORT.SWITCHES n 0 (x.onProt != y.onProt)).showGroup n

/-- A pair evaluated; while pairing is not in effect the selector stays on lane 2p and keeps no state (R346). -/
def Dev.evalPair (d : Dev) (p : Nat) : Dev :=
  if !d.trunkPaired (2 * p) then { d with mangle := { d.mangle with pairSel := FMap.set SelSt.reset d.mangle.pairSel p SelSt.reset } }
  else
    let x := d.pairSt p
    let y := x.eval (d.pairCfg p) (trigOf (d.laneTrig (2 * p)) (d.laneTrig (2 * p + 1))) (0, false) d.timebase
    let d1 := { d with mangle := { d.mangle with pairSel := FMap.set SelSt.reset d.mangle.pairSel p y } }
    let d2 := if 7 < y.top ∧ 3 ≤ d1.rd DEV.PAIR_COMMAND 0 p then d1.wr DEV.PAIR_COMMAND 0 p 0 else d1
    (((d2.protSwitch DEV.PAIR_SWITCHES 0 p (x.onProt != y.onProt)).wr DEV.PAIR_TOP_REQ 0 p y.top).flag DEV.PAIR_SELECTED 0 p y.onProt).wr
      DEV.PAIR_WTR_LEFT 0 p (y.restore.left d2.timebase)

/-- The tributary selector of a MODE 1 entry evaluated (R332, R334, R338). -/
def Dev.evalEntry (d : Dev) (c : Conn) : Dev :=
  let x := d.entrySt c.index
  let y := x.eval (d.entryCfg c) (trigOf (d.slotTrig c.srcA) (d.slotTrig c.srcB)) (0, false) d.timebase
  let d1 := { d with mangle := { d.mangle with entrySel := FMap.set SelSt.reset d.mangle.entrySel c.index y } }
  match d.entryCtx c with
  | none => if x.onProt != y.onProt then d1.raise .mangle 0 6 else d1
  | some t => d1.protSwitch TRIB.SWITCHES t 0 (x.onProt != y.onProt)

/-- The MS of a tributary configuration removed where a request above it stands on an entry that uses it (R337). -/
def Dev.dropMs (d : Dev) (c : Conn) : Dev :=
  match d.entryCtx c with
  | none => d
  | some t => if 7 < (d.entrySt c.index).top ∧ 3 ≤ d.rd TRIB.COMMAND t then d.wr TRIB.COMMAND t 0 0 else d

/-- Whether an entry is ignored: a reserved MODE, an invalid DST, or a DST that an entry of lower index has (R304). -/
def Dev.ignoredAfter (d : Dev) (before : List Conn) (c : Conn) : Bool :=
  decide (8 ≤ c.mode) || !d.dstValid c.dst || before.any (fun o => o.dst == c.dst)

/-- The entries of a list that are not ignored (R304). -/
def Dev.heeded (d : Dev) : List Conn → List Conn → List Conn
  | _, [] => []
  | before, c :: r => if d.ignoredAfter before c then d.heeded (before ++ [c]) r else c :: d.heeded (before ++ [c]) r

/-- The MODE 1 entries of the active page that are not ignored (R304, R332). -/
def Dev.mode1Entries (d : Dev) : List Conn := (d.heeded [] (d.pageEntries d.activePage)).filter (fun c => c.mode == 1)

/-- Those of them that have a tributary selector (R332). -/
def Dev.selEntries (d : Dev) : List Conn := d.mode1Entries.filter (fun c => (d.groupEntry c).isNone)

/-- The tributary selectors of a walk: evaluated together with the commands as they stand, then an MS below another request is removed; an
entry without a tributary selector keeps no state of one (R337 to R339). -/
def Dev.evalEntries (d : Dev) : Dev :=
  let cs := d.selEntries
  let keep := d.mangle.entrySel.filter (fun e => cs.any (fun c => c.index == e.1))
  let d1 := cs.foldl (fun (d : Dev) c => d.evalEntry c) { d with mangle := { d.mangle with entrySel := keep } }
  cs.foldl (fun (d : Dev) c => d.dropMs c) d1

/-- The position of a MODE 1 entry: whether it reads SRC_B. -/
def Dev.selected (d : Dev) (c : Conn) : Bool :=
  match d.groupEntry c with
  | some n => (d.groupSt n).onProt
  | none => (d.entrySt c.index).onProt

/-- The state of a selector. -/
def Dev.selSt (d : Dev) : SelRef → SelSt
  | .group n => d.groupSt n
  | .entry i => d.entrySt i
  | .pair p => d.pairSt p

/-- The state of a selector changed between two walks, with the registers that show it. -/
def Dev.modSel (d : Dev) (f : SelSt → SelSt) : SelRef → Dev
  | .group n => ({ d with mangle := { d.mangle with group := FMap.set SelSt.reset d.mangle.group n (f (d.groupSt n)) } }).showGroup n
  | .entry i => { d with mangle := { d.mangle with entrySel := FMap.set SelSt.reset d.mangle.entrySel i (f (d.entrySt i)) } }
  | .pair p =>
    let y := f (d.pairSt p)
    (({ d with mangle := { d.mangle with pairSel := FMap.set SelSt.reset d.mangle.pairSel p y } }).wr DEV.PAIR_TOP_REQ 0 p y.top).wr
      DEV.PAIR_WTR_LEFT 0 p (y.restore.left d.timebase)

def Dev.selCfg (d : Dev) : SelRef → SelCfg
  | .group n => d.groupCfg n
  | .entry i => d.entryCfg (Conn.of i (d.cmemWord d.activePage i))
  | .pair p => d.pairCfg p

/-- Selectors keep no state outside RUN (R348); the accepted remote requests go with them (DEDUCED, log entry 135). -/
def Dev.dropSelectors (d : Dev) : Dev := { d with mangle := { d.mangle with group := [], entrySel := [], pairSel := [], aps := [] } }

/-- A group that is not valid has no selector, so a later valid group of the same working port starts afresh (R332, R339, R340; DEDUCED, log
entry 135). -/
def Dev.dropGroups (d : Dev) : Dev :=
  { d with mangle := { d.mangle with
      group := d.mangle.group.filter (fun e => d.groupValid e.1)
      aps := d.mangle.aps.filter (fun e => d.groupValid e.1) } }

/-! ### Commands (R337) -/

/-- The COMMAND field and its element, with the refusal counter. -/
def protFields : ProtRef → Field × Field × Nat × Nat
  | .port n => (PORT.COMMAND, PORT.CMD_REFUSED, n, 0)
  | .trib t => (TRIB.COMMAND, TRIB.CMD_REFUSED, t, 0)
  | .pair p => (DEV.PAIR_COMMAND, DEV.PAIR_CMD_REFUSED, 0, p)

/-- The page, instance, word offset and BAR0 address of the word that holds COMMAND. -/
def protWordOf : ProtRef → Page × Nat × Nat × Nat
  | .port n => (.port, n, 0x324, 0x100000 + 4096 * n + 0x324)
  | .trib t => (.trib, t, 0x14, 0x1000000 + 64 * t + 0x14)
  | .pair p => (.dev, 0, 0x940 + 16 * p, 0x940 + 16 * p)

/-- Whether a request above MS is present at the selectors a configuration governs (R337). -/
def Dev.aboveMs (d : Dev) : ProtRef → Bool
  | .port n => decide (7 < (d.groupSt n).top)
  | .trib t => d.selEntries.any (fun c => d.entryCtx c == some t.val && decide (7 < (d.entrySt c.index).top))
  | .pair p => decide (7 < (d.pairSt p).top)

/-- Whether a selector takes commands: a trunk pair only while pairing is in effect (R346). -/
def Dev.takesCommands (d : Dev) : ProtRef → Bool
  | .pair p => d.trunkPaired (2 * p.val)
  | _ => true

/-- A write of the word that holds COMMAND (R337). -/
def Dev.protWrite (d : Dev) (r : ProtRef) (value : Nat) : Dev :=
  let (f, refused, inst, idx) := protFields r
  let (p, i, off, addr) := protWordOf r
  let old := d.rd f inst idx
  let cmd := f.part idx value
  let d1 := (d.writeFields addr p i off value).wr f inst idx old
  if !d1.takesCommands r then d1
  else if cmd ≤ 2 then d1.wr f inst idx cmd
  else if 5 ≤ cmd ∨ d1.aboveMs r then d1.inc refused inst idx
  else d1.wr f inst idx cmd

/-- A protection command of one code written. -/
def protCommand (code : Nat) (sel : ProtRef) (value : Word) (s : State) : Host.Outcome State Fault Refusal :=
  let (p, i, off, _) := protWordOf sel
  unlessMisuse (s.dev.wordMisuse p i off value.toNat)
    (stay s (whenDev (fun d => d.writable p && ((protFields sel).1.part (protFields sel).2.2.2 value.toNat == code))
      (fun d => d.protWrite sel value.toNat)))

/-! ### APS (R341 to R344) -/

/-- The faults of an accepted pair (R344). -/
def Dev.apsFault (d : Dev) (n f4 f5 : Nat) : Bool :=
  let req := f4 / 16 % 16
  !f5.testBit 3 || f5.testBit 2 != d.on PORT.BIDIR n || f5.testBit 1 != d.on PORT.REVERTIVE n || !f4.testBit 8 ||
  !([0xF, 0xE, 0xD, 0xB, 0x9, 0x7, 0x5, 0x1, 0x0].contains req) || decide (1 < f4 % 16) || decide (1 < f5 / 16 % 16)

/-- APS_ACCEPT and APS_MISMATCH: a pair from a multiframe with a good CRC-10 of the protection port (R343, R344). -/
def Dev.apsReceive (d : Dev) (n f4 f5 : Nat) : Dev :=
  let x := d.aps n
  let run := if x.run ≠ 0 ∧ x.pair = (f4, f5) then 2 else 1
  let put := fun (d : Dev) (y : ApsSt) => { d with mangle := { d.mangle with aps := FMap.set ApsSt.reset d.mangle.aps n y } }
  let d1 := put d { x with pair := (f4, f5), run := run }
  if run < 2 then d1
  else
    let bad := d1.apsFault n f4 f5
    let d2 := ((put d1 { pair := (f4, f5), run := 2, remote := f4 / 16 % 16, sig := f4 % 16 }).wr PORT.RX_F4 n 0 f4).wr PORT.RX_F5 n 0 f5
    let d3 := if bad && !d2.on PORT.MISMATCH n then (d2.inc PORT.MISMATCH_COUNT n).raise .mangle 0 7 else d2
    (d3.flag PORT.MISMATCH n 0 bad).showGroup n

/-- f4 and f5 as sent on the protection port (R341, R342); the working port sends ON_PROT 0. -/
def Dev.apsWords (d : Dev) (n : Nat) : Nat × Nat :=
  let x := d.groupSt n
  let req := if x.own then x.top else 0
  let sig := if x.own then (if x.top = 7 then x.msProt else selects x.top false) else (d.remoteReq n).2
  (256 + req * 16 + sig.toNat,
   x.onProt.toNat * 16 + 8 + (d.on PORT.BIDIR n).toNat * 4 + (d.on PORT.REVERTIVE n).toNat * 2)

/-! ### Meanings -/

/-- The word of 0x0E4 for a MODE 1 entry, as the walk leaves it (R352). -/
def Dev.queryWord (d : Dev) (c : Conn) : Nat :=
  let (kind, x) := match d.groupEntry c with
    | some n => (2, d.groupSt n)
    | none => (if isTrunk c.srcA && isTrunk c.srcB then 3 else 1, d.entrySt c.index)
  kind * 2 ^ 30 + x.onProt.toNat * 2 ^ 29 + x.holding.toNat * 2 ^ 28 + x.top * 2 ^ 24 + x.restore.left d.timebase

/-- The selector states that DEV.QUERY_INDEX can name, as the last walk left them (R352). -/
def Dev.showQuery (d : Dev) : Dev :=
  let q := d.mode1Entries.foldl (fun (m : FMap Nat) c => FMap.set 0 m c.index (d.queryWord c)) []
  { d with mangle := { d.mangle with query := q } }

/-- HOLD_OFF_EXPIRE (R335): a trigger of the working or the protection source has outlasted its hold-off. -/
def execHoldOffExpire (sel : SelRef) (s : State) : Host.Outcome State Fault Refusal :=
  stay s (whenDev
    (fun d =>
      let x := d.selSt sel
      let h := msTicks (100 * (d.selCfg sel).holdOff)
      let due := fun (at? : Option Nat) (ok : Bool) => match at? with | some t => !ok && d.passed t h | none => false
      d.mode == .run && (due x.workAt x.workOk || due x.protAt x.protOk))
    (fun d => d.modSel (fun x => x.holdOffEnds (msTicks (100 * (d.selCfg sel).holdOff)) d.timebase) sel))

/-- WTR_EXPIRE (R336). -/
def execWtrExpire (sel : SelRef) (s : State) : Host.Outcome State Fault Refusal :=
  stay s (whenDev
    (fun d => d.mode == .run && match (d.selSt sel).restore with | .wtr e => decide (e ≤ d.timebase) | _ => false)
    (fun d => d.modSel SelSt.wtrEnds sel))

/-- PROT_CMD_CLEAR (R337). -/
def execProtCmdClear (sel : ProtRef) (value : Word) (s : State) : Host.Outcome State Fault Refusal := protCommand 0 sel value s
/-- PROT_CMD_LO (R337). -/
def execProtCmdLo (sel : ProtRef) (value : Word) (s : State) : Host.Outcome State Fault Refusal := protCommand 1 sel value s
/-- PROT_CMD_FS (R337). -/
def execProtCmdFs (sel : ProtRef) (value : Word) (s : State) : Host.Outcome State Fault Refusal := protCommand 2 sel value s
/-- PROT_CMD_MS_PROT (R337). -/
def execProtCmdMsProt (sel : ProtRef) (value : Word) (s : State) : Host.Outcome State Fault Refusal := protCommand 3 sel value s
/-- PROT_CMD_MS_WORK (R337). -/
def execProtCmdMsWork (sel : ProtRef) (value : Word) (s : State) : Host.Outcome State Fault Refusal := protCommand 4 sel value s

end Sys2Proof.Machine
end

