-- ==== Sys2Proof/Machine/Hamper.lean ====
section
/-! DEFINITION. The Hamper: capacity and areas, the recorder and its rings, lookup and extraction, the aperture, delay lines, clips
and plays, memory errors (R354 to R380). -/

namespace Sys2Proof.Machine

/-! ### Population and areas (R354 to R360) -/

def gib : Nat := 2 ^ 30
/-- HAMPER.STATE ONLINE (R356, R379). -/
def Dev.hamperOnline (d : Dev) : Bool := d.rd (HDR.STATE .hamper) == 2
/-- Capacity in GiB (R354). -/
def Dev.capacityGib (d : Dev) : Nat := 4 * d.rd HAMPER.DPC * d.rd HAMPER.DIMM_GIB
def Dev.capacity (d : Dev) : Nat := d.capacityGib * gib
/-- Ranks per channel, and K, the ranks of the Hamper (R359). -/
def Dev.ranksPerCh (d : Dev) : Nat := d.rd HAMPER.DPC * d.rd HAMPER.RANKS
def Dev.rankCount (d : Dev) : Nat := 4 * d.ranksPerCh
/-- The record area: its start and its size (R358). -/
def recBase : Nat := 72 * gib
def Dev.recSize (d : Dev) : Nat := d.rd HAMPER.REC_SIZE_GIB * gib
/-- The bytes of one rank's share, and the blocks of its ring (R359, R366). -/
def Dev.rankBytes (d : Dev) : Nat := d.recSize / d.rankCount
def Dev.ringBlocks (d : Dev) : Nat := d.rankBytes / 4096
/-- A REC_SIZE value as it takes effect (R360). -/
def Dev.recRound (d : Dev) (g : Nat) : Nat := min (g / d.rankCount * d.rankCount) (d.capacityGib - 72)

/-- The channel of a logical address: interleaved in 1 KiB granules, rank-linear in the record area (R359). -/
def Dev.laChannel (d : Dev) (la : Nat) : Nat :=
  if recBase ≤ la ∧ la < recBase + d.recSize then (la - recBase) / d.rankBytes / d.ranksPerCh else la / 1024 % 4

/-- Whether the host may write an address: the clip store and the free area (R358). -/
def Dev.laWritable (d : Dev) (la : Nat) : Bool :=
  decide (gib ≤ la ∧ la < 8 * gib) || decide (recBase + d.recSize ≤ la ∧ la < d.capacity)

def Dev.modHamper (d : Dev) (f : HamperSt → HamperSt) : Dev := { d with hamper := f d.hamper }
/-- A byte of the Hamper; bytes nothing has written read 0 (log entry 30). -/
def Dev.ddrByte (d : Dev) (la : Nat) : Nat := FMap.get 0 d.hamper.mem la
/-- A byte as the aperture reads it: in the delay area that of a frame record where an entry has left one (R358, R373). -/
def Dev.apertureByte (d : Dev) (la : Nat) : Nat :=
  let a := la - 8 * gib
  if 8 * gib ≤ la ∧ la < 72 * gib ∧ a % 1024 < 64 then
    match FMap.get none d.hamper.dlyRecs (a / 1024) with
    | some r => Config.delayByte (a % 1024) r.word r.kind r.sig r.frame r.gen % 256
    | none => d.ddrByte la
  else d.ddrByte la
def Dev.apertureData (d : Dev) (la n : Nat) : List Nat := (List.range n).map (fun i => d.apertureByte (la + i))
def Dev.ddrRead (d : Dev) (la n : Nat) : List Nat := (List.range n).map (fun i => d.ddrByte (la + i))
/-- Bytes stored from an address on. -/
def memPut : List Nat → Nat → FMap Nat → FMap Nat
  | [], _, m => m
  | b :: r, la, m => memPut r (la + 1) (FMap.set 0 m la (b % 256))
def Dev.ddrWrite (d : Dev) (la : Nat) (bytes : List Nat) : Dev := d.modHamper (fun h => { h with mem := memPut bytes la h.mem })

/-! ### Streams (R361 to R363) -/

def recIdle : Nat := 0x155
/-- The frames of a record period, and its ticks. -/
def periodFrames : Nat := 3200
def periodTicks : Nat := 3200 * 20480

/-- Whether a tributary's slot meets the conditions of a record stream (R361). -/
def Dev.recWanted (d : Dev) (k : Nat) : Bool :=
  let t := k / 2
  d.on TRIB.EQUIPPED t && d.rd TRIB.RX_SLOT t != 0 && d.on TRIB.REC_EN t &&
  (k % 2 == 0 || (d.on TRIB.WIDE t && d.on TRIB.REC_WIDE t))

def Dev.recStream (d : Dev) (k : Nat) : Option RecStream := FMap.get none d.hamper.streams k
def Dev.setStream (d : Dev) (k : Nat) (x : Option RecStream) : Dev := d.modHamper (fun h => { h with streams := FMap.set none h.streams k x })
def Dev.rank (d : Dev) (r : Nat) : RankSt := FMap.get RankSt.empty d.hamper.ranks r
def Dev.setRank (d : Dev) (r : Nat) (x : RankSt) : Dev := d.modHamper (fun h => { h with ranks := FMap.set RankSt.empty h.ranks r x })
/-- The keys of the streams that record. -/
def Dev.streamKeys (d : Dev) : List Nat := d.hamper.streams.map (fun e => e.1)

/-- The logical address of a block of a stripe. -/
def Dev.blockLa (d : Dev) (r : Nat) (s : Stripe) (pos : Nat) : Nat := recBase + r * d.rankBytes + (s.off + pos) * 4096

/-- The words of a record block as a packed bit stream (R364). -/
def packWords (ws : List Nat) : List Nat :=
  let rec go : List Bool → Nat → List Nat
    | _, 0 => []
    | bs, n + 1 => bitsVal (bs.take 8) :: go (bs.drop 8) n
  go (ws.flatMap (wordBits 10)) (ceilDiv (10 * ws.length) 8)

/-- What the header of a block says beside its words (R364). -/
structure BlockInfo where
  mirror : Bool
  key    : Nat
  stn    : Nat
  port   : Nat
  mfNum  : Nat
  tb     : Nat
  wall   : Nat
  epoch  : Nat
  label  : Nat
  deriving DecidableEq, Repr

/-- A record block of 4,096 bytes (R364). -/
def blockBytes (i : BlockInfo) (frames : List Nat) : List Nat :=
  let fail := (List.range 16).foldl (fun v j => if ((frames.drop (200 * j)).take 200).any (fun w => w / 4096 % 2 == 1) then orBit v j else v) 0
  let held := (frames.filter (fun w => w / 1024 % 2 == 1)).length
  let sub := (frames.filter (fun w => w / 2048 % 2 == 1)).length
  let head :=
    leBytes 4 (2 ^ 29 + i.mirror.toNat * 2 ^ 28 + i.key % 2 * 2 ^ 27 + i.key / 2 * 2 ^ 13 + i.stn * 512 + i.port) ++ leBytes 4 i.mfNum ++
    leBytes 8 i.tb ++ leBytes 4 i.wall ++ leBytes 4 i.epoch ++ leBytes 4 (i.label * 2 ^ 24 + fail) ++ leBytes 4 (held * 65536 + sub) ++
    List.replicate 60 0
  let body := packWords (frames.map (fun w => w % 1024))
  head ++ leBytes 4 (crc32 (head ++ body)) ++ body

/-- The frames of a period as recorded; a frame that no walk gave is IDLE. -/
def RecStream.frames (x : RecStream) : List Nat := (List.range periodFrames).map (fun w => FMap.get recIdle x.words w)

/-! ### Rings (R365, R366) -/

def Segment.pos (g : Segment) (k : Nat) : Option Nat := g.layout.findIdx? (fun x => x == k)
def RankSt.seg (x : RankSt) (n : Nat) : Option Segment := x.segs.find? (fun g => g.num == n)
/-- The blocks of a stripe. -/
def RankSt.size (x : RankSt) (s : Stripe) : Nat := ((x.seg s.seg).map (fun g => g.layout.length)).getD 0
/-- Stripes lost to overwriting or release, with the segments that hold no stripe any more. -/
def RankSt.lose (x : RankSt) (gone : Stripe → Bool) : RankSt :=
  let out := x.stripes.filter gone
  let left := x.stripes.filter (fun s => !gone s)
  { x with
    stripes := left
    segs := x.segs.filter (fun g => left.any (fun s => s.seg == g.num))
    lost := match out.getLast? with | some s => some s.start | none => x.lost }

/-- A ring whose blocks are all discarded (R360). -/
def RankSt.discard (x : RankSt) : RankSt :=
  { RankSt.empty with lost := match x.stripes.getLast? with | some s => some s.start | none => x.lost }

/-- The place of the stripe that starts with a period under a layout, at most `ring` blocks: a stripe that does not fit before the
end of the ring starts at its beginning, and the oldest stripes are overwritten (R366). True where a segment was released. -/
def RankSt.open (x : RankSt) (ring : Nat) (layout : List Nat) (start : Nat) (epoch : Option Nat) : RankSt × Bool :=
  if layout = [] ∨ ring < layout.length then ({ x with last := layout }, false)
  else
    let fresh := x.last != layout || x.segs = []
    let drop := fresh && decide (1024 ≤ x.segs.length)
    let x1 := match x.segs with
      | g :: _ => if drop then x.lose (fun s => s.seg == g.num) else x
      | [] => x
    let n := layout.length
    let off := if ring < x1.cursor + n then 0 else x1.cursor
    let x2 := x1.lose (fun s => decide (s.off < off + n ∧ off < s.off + x1.size s))
    let x3 : RankSt := if fresh then { x2 with segs := x2.segs ++ [⟨x2.next, layout⟩], next := x2.next + 1 } else
      (if x2.segs.any (fun g => g.num + 1 == x2.next) then x2 else { x2 with segs := x2.segs ++ [⟨x2.next - 1, layout⟩] })
    ({ x3 with last := layout, cursor := off + n, stripes := x3.stripes ++ [⟨x3.next - 1, off, start, epoch, []⟩] }, drop)

/-! ### The record period boundary (R362 to R367) -/

/-- The port and station of a stream's tributary. -/
def Dev.recPort (d : Dev) (k : Nat) : Nat := d.rd TRIB.PORT_N (k / 2)

/-- The block of one stream written at the end of its period (R363). -/
def Dev.recWrite (d : Dev) (k : Nat) (x : RecStream) (mf wall : Nat) : Dev :=
  match (d.rank x.rank).stripes.getLast? with
  | none => d
  | some s =>
    match ((d.rank x.rank).seg s.seg).bind (fun g => g.pos k) with
    | none => d
    | some pos =>
      if d.hamper.periods.head?.map (fun p => p.start) != some s.start then d
      else
        let i : BlockInfo := ⟨false, k, d.rd TRIB.STN_N (k / 2), d.recPort k, mf, s.start, wall, d.rd PAIR.EPOCH, x.label⟩
        let d1 := (d.ddrWrite (d.blockLa x.rank s pos) (blockBytes i x.frames)).inc HAMPER.REC_BLOCKS
        let r := d1.rank x.rank
        d1.setRank x.rank { r with stripes := r.stripes.dropLast ++ [{ s with have? := s.have? ++ [k] }] }

/-- The rank a tributary's streams go to: its pin, its other stream's rank, or the least used rank, ties by choice (R365). -/
def Dev.recPlace (d : Dev) (k : Nat) : Nat × Dev :=
  let t := k / 2
  let pinned := d.rd TRIB.REC_CH t * d.ranksPerCh + d.rd TRIB.REC_RANK t
  if d.on TRIB.REC_PIN t && d.rd TRIB.REC_RANK t < d.ranksPerCh then (pinned, d)
  else
    match d.recStream (2 * t) with
    | some x => (x.rank, d)
    | none =>
      let used := fun r => (d.hamper.streams.filter (fun e => match e.2 with | some x => x.rank == r | none => false)).length
      let best := (List.range d.rankCount).foldl (fun b r => min b (used r)) 16385
      let (c, d1) := d.choose
      ((pickFrom ((List.range d.rankCount).filter (fun r => used r == best)) c).getD 0, d1)

/-- The flags of a stream in its tributary context (R380). -/
def Dev.showStream (d : Dev) (k : Nat) (active : Bool) : Dev :=
  d.flag (if k % 2 = 0 then TRIB.REC_ACTIVE else TRIB.REC_ACTIVE2) (k / 2) 0 active

/-- One stream at a period boundary: it stops, goes on in the rank SORT gives it, or starts where a place is left (R361, R362, R365). -/
def Dev.recStep (d : Dev) (k : Nat) : Dev :=
  let first : FMap Nat := match FMap.get 0 d.hamper.nextFirst k with | 0 => [] | v => FMap.set recIdle [] 0 (v - 1)
  match d.recStream k with
  | some x =>
    if !d.recWanted k then (d.setStream k none).showStream k false
    else
      let t := k / 2
      let r := if d.on TRIB.REC_PIN t then d.rd TRIB.REC_CH t * d.ranksPerCh + d.rd TRIB.REC_RANK t else x.rank
      d.setStream k (some ⟨if r < d.rankCount then r else x.rank, d.rd TRIB.RX_LABEL t, first⟩)
  | none =>
    if !d.recWanted k then d
    else if decide (16384 ≤ d.hamper.streams.length) || d.rankCount = 0 then
      if d.hamper.refused.contains k then d
      else ((d.flag TRIB.REC_REFUSED (k / 2) 0 true).inc HAMPER.REC_REFUSED).modHamper (fun h => { h with refused := h.refused ++ [k] })
    else
      let (r, d1) := d.recPlace k
      (((((d1.setStream k (some ⟨r, d.rd TRIB.RX_LABEL (k / 2), first⟩)).flag TRIB.REC_REFUSED (k / 2) 0 false).showStream k true).wr
        TRIB.REC_CH (k / 2) 0 (r / d.ranksPerCh)).wr TRIB.REC_RANK (k / 2) 0 (r % d.ranksPerCh))

/-- Whether a refused stream still waits for a place. -/
def Dev.recWaits (d : Dev) (k : Nat) : Bool := d.recWanted k && (d.recStream k).isNone

/-- REC_REFUSED of a tributary no stream of which waits for a place (R361, R380). -/
def Dev.recUnrefuse (d : Dev) (t : Nat) : Dev :=
  if d.on TRIB.REC_REFUSED t && !d.recWaits (2 * t) && !d.recWaits (2 * t + 1) then d.flag TRIB.REC_REFUSED t 0 false else d

/-- The stripe of one rank for the period that starts. -/
def Dev.openStripe (start : Nat) (d : Dev) (r : Nat) : Dev :=
  let layout := d.hamper.streams.filterMap (fun e => match e.2 with | some x => if x.rank = r then some e.1 else none | none => none)
  let (x, dropped) := (d.rank r).open d.ringBlocks layout start none
  let d1 := d.setRank r x
  if dropped then (d1.inc HAMPER.SEG_DROPS).raise .hamper 0 1 else d1

/-- REC_RETENTION (R367), in whole seconds. -/
def Dev.retention (d : Dev) : Nat :=
  let ns := (List.range d.rankCount).map (fun r =>
    (d.hamper.streams.filter (fun e => match e.2 with | some x => x.rank == r | none => false)).length)
  (ns.filter (fun n => n != 0)).foldl (fun b n => min b ((d.rankBytes / (n * 4096) - 1) * 2 / 5)) 0xFFFFFFFF

/-- Whether the unit writes its partner's record in place of its own (R368). -/
def Dev.mirrorStandby (d : Dev) : Bool := d.paired && d.mode == .standby && d.on PAIR.MIRROR_RECORD

/-- A list cut into pieces of `n`. -/
def chunks (n : Nat) : Nat → List Nat → List (List Nat)
  | 0, _ => []
  | _, [] => []
  | k + 1, xs => xs.take n :: chunks n k (xs.drop n)

/-- The segment layout of a period as MIRROR frames carry it (R397), at most 1,000 streams a frame: start, EPOCH, MF_NUM and WALLCLOCK,
then a rank with its segment, place and streams. -/
def Dev.mirLayout (d : Dev) (start mf wall : Nat) : List (List Nat) :=
  let ranks := d.hamper.ranks.filterMap (fun e =>
    match e.2.stripes.getLast? with
    | some s => if s.start = start then (e.2.seg s.seg).map (fun g => (e.1, s, g)) else none
    | none => none)
  ranks.flatMap (fun x => (chunks 1000 x.2.2.layout.length x.2.2.layout).map (fun c =>
    words64 start ++ [d.rd PAIR.EPOCH, mf, wall, x.1, x.2.1.seg, x.2.1.off, c.length] ++ c.flatMap (fun k =>
      [k, d.rd TRIB.STN_N (k / 2), d.recPort k, d.rd TRIB.RX_LABEL (k / 2)])))

/-- A record period boundary: the blocks of the period that ends are written, streams stop and start, each rank opens its stripe
(R362 to R367). While the Hamper is offline nothing is recorded (R357); a standby records no streams of its own (R368, R408). -/
def Dev.periodBoundary (d : Dev) : Dev :=
  let mf := d.sys.mfNum / 200 * 200
  let ended := d.hamper.nextPer - 200
  let start := d.sys.nextMf - mfTicks * (d.sys.mfNum - mf + 1)
  let d0 := d.modHamper (fun h => { h with nextPer := mf + 200 })
  if !d0.hamperOnline || d0.mode == .standby then
    let d1 := d0.streamKeys.foldl (fun (d : Dev) k => d.showStream k false) d0
    let d2 := (d1.modHamper (fun h => { h with streams := [], nextFirst := [], refused := [] })).wr HAMPER.REC_STREAMS 0 0 0
    if d0.mirrorStandby then d2
    else (d2.modHamper (fun h => { h with periods := ⟨start, none⟩ :: h.periods })).wr HAMPER.REC_RETENTION 0 0 d2.retention
  else
    let wall := d0.rd DEV.WALLCLOCK
    let d1 := d0.hamper.streams.foldl (fun (d : Dev) e => match e.2 with | some x => d.recWrite e.1 x ended d.hamper.perWall | none => d) d0
    let stay := d1.streamKeys.foldl Dev.recStep d1
    let start? := (List.range 32768).filter (fun k => stay.recWanted k && (stay.recStream k).isNone)
    let d2 := (List.range 16384).foldl Dev.recUnrefuse (start?.foldl Dev.recStep stay)
    let d3 := d2.modHamper (fun h => { h with nextFirst := [], refused := h.refused.filter d2.recWaits, perWall := wall, periods := ⟨start, none⟩ :: h.periods })
    let d4 := (List.range d3.rankCount).foldl (fun (d : Dev) r => Dev.openStripe start d r) d3
    let d5 := (d4.wr HAMPER.REC_STREAMS 0 0 d4.hamper.streams.length).wr HAMPER.REC_RETENTION 0 0 d4.retention
    if d5.pairActive && d5.on PAIR.MIRROR_RECORD then (d5.mirLayout start mf wall).foldl (fun (d : Dev) p => d.mateSend 0x30 p) d5 else d5

/-- RECORD_PERIOD_BOUNDARY (R362). -/
def execRecordPeriodBoundary (s : State) : Host.Outcome State Fault Refusal :=
  stay s (whenDev (fun d => d.mode != .reset && decide (d.hamper.nextPer ≤ d.sys.mfNum)) Dev.periodBoundary)

/-- A word that the record tap gives for system frame `j` (R363): into the stream's period, or kept for the period to come. -/
def Dev.recTap (d : Dev) (k j word kind : Nat) (held sub failed : Bool) : Dev :=
  let v := word + held.toNat * 1024 + sub.toNat * 2048 + failed.toNat * 4096 + kind * 8192
  let first := (d.hamper.nextPer) * 16
  if first ≤ j then
    if j = first ∧ d.recWanted k then d.modHamper (fun h => { h with nextFirst := FMap.set 0 h.nextFirst k (v + 1) }) else d
  else
    match d.recStream k with
    | some x => d.setStream k (some { x with words := FMap.set recIdle x.words (j + periodFrames - first) v })
    | none => d

/-! ### Finding blocks (R369, R372) -/

/-- A period's start on this unit's TIMEBASE: a mirrored one through the offset of its writer's EPOCH (R369, R390). -/
def Dev.localStart (d : Dev) (start : Nat) (epoch : Option Nat) : Option Nat :=
  match epoch with
  | none => some start
  | some e => (d.pair.offsets.find? (fun o => o.1 == e)).map (fun o => ((start : Int) - o.2).toNat)

/-- The logical address of a stream's block of a period. -/
def Dev.findBlock (d : Dev) (k : Nat) (p : Period) : Option Nat :=
  d.hamper.ranks.findSome? (fun e =>
    e.2.stripes.findSome? (fun s =>
      if s.start = p.start ∧ s.epoch = p.epoch ∧ k ∈ s.have? then ((e.2.seg s.seg).bind (fun g => g.pos k)).map (fun q => d.blockLa e.1 s q)
      else none))

/-- Whether a period is older than what is left of the rank that the stream is on, or of any rank where it is on none (R370). -/
def Dev.periodLost (d : Dev) (k : Nat) (p : Period) : Bool :=
  let gone := fun (x : RankSt) => match x.lost with | some l => decide (p.start ≤ l) | none => false
  match d.recStream k with
  | some x => gone (d.rank x.rank)
  | none => d.hamper.ranks.any (fun e => gone e.2)

/-- Whether a stream has a place in a period's stripe. -/
def Dev.inStripe (d : Dev) (k : Nat) (p : Period) : Bool :=
  d.hamper.ranks.any (fun e => e.2.stripes.any (fun s =>
    s.start == p.start && s.epoch == p.epoch && ((e.2.seg s.seg).map (fun g => g.layout.contains k)).getD false))

/-- What the record holds of a stream's block of a period: 0 found, 1 no longer held, 2 not recorded, 3 not yet complete (R372). -/
def Dev.blockStatus (d : Dev) (k : Nat) (p : Period) : Nat × Nat :=
  match d.findBlock k p with
  | some la => (0, la)
  | none =>
    if d.hamper.periods.head? = some p ∧ (p.epoch.isSome || decide (d.sys.mfNum < d.hamper.nextPer)) ∧ d.inStripe k p then (3, 0)
    else if d.periodLost k p then (1, 0)
    else (2, 0)

/-- The periods that overlap a span of TIMEBASE, oldest first. -/
def Dev.periodsIn (d : Dev) (lo hi : Nat) : List Period :=
  (d.hamper.periods.filter (fun p => match d.localStart p.start p.epoch with
    | some s => decide (s < hi ∧ lo < s + periodTicks)
    | none => false)).reverse

/-! ### Extraction (R369, R370) -/

def word64 (lo hi : Nat) : Nat := lo + hi * 2 ^ 32

/-- Misuse of CMD_REC_EXTRACT's arguments (R67, R369). -/
def extractBad (a : List Nat) : Bool :=
  a.length != 7 || a.getD 0 0 / 2 ^ 14 % 2 ^ 17 != 0 || a.getD 3 0 == 0 || a.getD 4 0 % 64 != 0 || a.getD 6 0 % 4096 != 0

/-- CMD_REC_EXTRACT (R369): BUSY with 16 running, OK at once while the Hamper is offline (R357). -/
def execCmdRecExtract (tag : Fin 4096) (s : State) : Host.Outcome State Fault Refusal :=
  unlessMisuse (argMisuse s 9 tag extractBad)
    (stay s (fun d => d.startCmd 9 tag (fun c d =>
      if 16 ≤ d.hamper.extracts.length then d.complete tag .busy
      else if !d.hamperOnline then d.complete tag .ok [0, 0, 0, 0, 0, 0, 0, 1]
      else
        let a := c.args
        let x : Extract := ⟨tag, 2 * (a.getD 0 0 % 2 ^ 14) + a.getD 0 0 / 2 ^ 31 % 2, word64 (a.getD 1 0) (a.getD 2 0), a.getD 3 0,
          word64 (a.getD 4 0) (a.getD 5 0), a.getD 6 0⟩
        (d.modHamper (fun h => { h with extracts := h.extracts ++ [x] })).wr HAMPER.EXTRACTS 0 0 (d.hamper.extracts.length + 1))))

/-- The counts of an extraction so far (R370). -/
structure ExtractSum where
  copied  : Nat
  overs    : Nat
  missing : Nat
  bad     : Nat
  trunc   : Nat
  first   : Nat
  deriving DecidableEq, Repr

/-- Whether a block's CRC-32 passes and its header names the stream and the expected period (R370). -/
def blockGood (k start : Nat) (b : List Nat) : Bool :=
  let h := bitsVal ((b.take 4).reverse.flatMap (wordBits 8))
  crc32 (b.take 92 ++ b.drop 96) == bitsVal (((b.drop 92).take 4).reverse.flatMap (wordBits 8)) &&
  h / 2 ^ 27 % 2 == k % 2 && h / 2 ^ 13 % 2 ^ 14 == k / 2 &&
  bitsVal (((b.drop 8).take 8).reverse.flatMap (wordBits 8)) == start

/-- One selected period of an extraction; `ue` lists the addresses of blocks whose read met an uncorrectable error. -/
def Dev.extractOne (x : Extract) (ue : List Nat) (acc : Dev × ExtractSum) (p : Period) : Dev × ExtractSum :=
  let (d, r) := acc
  match d.blockStatus x.key p with
  | (0, la) =>
    if x.len / 4096 ≤ r.copied then (d, { r with trunc := r.trunc + 1 })
    else
      let b := d.ddrRead la 4096
      let bad := ue.contains la
      if !bad && !blockGood x.key p.start b then (d, { r with overs := r.overs + 1 })
      else (d.emit (.hostWrite (x.host + 4096 * r.copied) b),
        { r with copied := r.copied + 1, bad := r.bad + bad.toNat, first := if r.copied = 0 then (d.localStart p.start p.epoch).getD 0 else r.first })
  | (1, _) => (d, { r with overs := r.overs + 1 })
  | (2, _) => (d, { r with missing := r.missing + 1 })
  | _ => (d, { r with trunc := r.trunc + 1 })

/-- EXTRACT_DONE (R370): the blocks are copied and the command completes. -/
def execExtractDone (tag : Fin 4096) (ue : List Nat) (s : State) : Host.Outcome State Fault Refusal :=
  stay s (fun d =>
    match d.hamper.extracts.find? (fun x => x.tag == tag.val) with
    | none => d
    | some x =>
      let (d1, r) := (d.periodsIn x.start (x.start + x.dur * frameTicks)).foldl (Dev.extractOne x ue) (d, ⟨0, 0, 0, 0, 0, 0⟩)
      let d2 := d1.modHamper (fun h => { h with extracts := h.extracts.filter (fun y => y.tag != tag.val) })
      ((d2.wr HAMPER.EXTRACTS 0 0 d2.hamper.extracts.length).complete tag .ok
        [r.copied, r.overs, r.missing, r.bad, r.trunc, r.first % 2 ^ 32, r.first / 2 ^ 32, 0]))

/-! ### Training and size (R356, R360) -/

/-- DDR_TRAINING_DONE (R356): training has ended in CAL; `fails` are the channels that failed. -/
def execDdrTrainingDone (fails : List (Fin 4)) (s : State) : Host.Outcome State Fault Refusal :=
  stay s (whenDev (fun d => d.rd (HDR.STATE .hamper) == 1)
    (fun d =>
      if fails = [] then (d.wr (HDR.STATE .hamper) 0 0 2).modHamper (fun h => { h with scrubFrom := d.timebase })
      else
        let d1 := fails.foldl (fun (d : Dev) c => d.raise .hamper 0 (18 + 4 * c.val)) (d.wr (HDR.STATE .hamper) 0 0 3)
        (d1.condSet .hamper 0 0).faultCond srcHamper true))

/-- REC_SIZE_WRITE (R360): effective in READY; a change discards the whole record. -/
def execRecSizeWrite (value : Word) (s : State) : Host.Outcome State Fault Refusal :=
  unlessMisuse (s.dev.wordMisuse .hamper 0 0x4C value.toNat)
    (stay s (whenDev (fun d => d.mode == .ready)
      (fun d =>
        let g := d.recRound (value.toNat % 4096)
        if g = d.rd HAMPER.REC_SIZE_GIB then d
        else (d.wr HAMPER.REC_SIZE_GIB 0 0 g).modHamper (fun h => { h with 
            ranks := h.ranks.foldl (fun m e => FMap.set RankSt.empty m e.1 e.2.discard) [] }))))

/-! ### The aperture (R371) -/

/-- WIN_BASE_WRITE (R371). -/
def execWinBaseWrite (value : Word) (s : State) : Host.Outcome State Fault Refusal :=
  unlessMisuse (s.dev.wordMisuse .hamper 0 0x60 value.toNat)
    (stay s (whenDev (fun d => d.writable .hamper)
      (fun d => (d.writeFields 0xA060 .hamper 0 0x60 value.toNat).wr HAMPER.WIN_BUSY 0 0 1)))

/-- WIN_REMAP_DONE (R371). -/
def execWinRemapDone (s : State) : Host.Outcome State Fault Refusal := stay s (fun d => d.wr HAMPER.WIN_BUSY 0 0 0)

/-- The logical address that an aperture offset maps to. -/
def Dev.apertureLa (d : Dev) (off : Nat) : Nat := d.rd HAMPER.WIN_BASE * gib + off

/-- APERTURE_READ (R371, R357): `ue` where the read meets an uncorrectable error. -/
def execApertureRead (off : Fin 1073741824) (len : Fin 4097) (ue : Bool) (s : State) : Host.Outcome State Fault Refusal :=
  unlessMisuse (if s.dev.on HAMPER.WIN_BUSY then some .remapAccess else none)
    (stay s (fun d =>
      let la := d.apertureLa off
      let ones := d.emit (.readData (List.replicate len 255))
      if !d.hamperOnline then ones
      else if d.capacity < la + len then ones.inc HAMPER.APT_OOR
      else if ue then d.emit .readPoison
      else d.emit (.readData (d.apertureData la len))))

/-- APERTURE_WRITE (R371, R357). -/
def execApertureWrite (off : Fin 1073741824) (data : List Byte) (s : State) : Host.Outcome State Fault Refusal :=
  unlessMisuse (if s.dev.on HAMPER.WIN_BUSY then some .remapAccess else none)
    (stay s (fun d =>
      let la := d.apertureLa off
      let last := la + (data.length - 1)
      if !d.hamperOnline || d.capacity ≤ last then d
      else if d.laWritable la && d.laWritable last then d.ddrWrite la (data.map (fun b => b.toNat))
      else d.inc HAMPER.APT_WR_DROP))

/-! ### Lookup (R372) -/

/-- LOOKUP_GO_WRITE (R372). -/
def execLookupGoWrite (value : Word) (s : State) : Host.Outcome State Fault Refusal :=
  unlessMisuse (s.dev.wordMisuse .hamper 0 0x68 value.toNat)
    (stay s (whenDev (fun d => d.writable .hamper)
      (fun d =>
        let d1 := d.writeFields 0xA068 .hamper 0 0x68 value.toNat
        if value.toNat.testBit 31 then (d1.wr HAMPER.LOOKUP_GO 0 0 1).modHamper (fun h => { h with lookup := true }) else d1)))

/-- LOOKUP_DONE (R372). -/
def execLookupDone (s : State) : Host.Outcome State Fault Refusal :=
  stay s (whenDev (fun d => d.hamper.lookup)
    (fun d =>
      let t := word64 (d.rd HAMPER.LOOKUP_TIME_LO) (d.rd HAMPER.LOOKUP_TIME_HI)
      let k := 2 * d.rd HAMPER.LOOKUP_TRIB + d.rd HAMPER.SECOND
      let (st, la) : Nat × Nat :=
        match (d.periodsIn t (t + 1)).head? with
        | some p => if d.hamperOnline then d.blockStatus k p else (2, 0)
        | none =>
          match d.hamper.periods.head? with
          | some p => if (d.localStart p.start p.epoch).getD 0 < t then (3, 0) else (2, 0)
          | none => (2, 0)
      ((((d.modHamper (fun h => { h with lookup := false })).wr HAMPER.LOOKUP_GO 0 0 0).wr HAMPER.LOOKUP_STATUS 0 0 st).wr
        HAMPER.LOOKUP_LA_LO 0 0 la).wr HAMPER.LOOKUP_LA_HI 0 0 (la / 2 ^ 32)))

/-! ### Delay lines (R373, R374) -/

def Dev.dly (d : Dev) (e : Nat) : Nat := FMap.get 0 d.hamper.dly e
def Dev.dlyGen (d : Dev) (e : Nat) : Nat := FMap.get 0 d.hamper.dlyGen e

/-- DELAY of an entry written: it takes effect at the next system multiframe boundary (R374). -/
def Dev.dlyWrite (d : Dev) (e v : Nat) : Dev :=
  d.modHamper (fun h => { h with dlySet := FMap.set 0 h.dlySet e (min v 16000), dlyDue := some d.sys.nextMf })

/-- DELAY_CHANGE_APPLY (R374). -/
def execDelayChangeApply (s : State) : Host.Outcome State Fault Refusal :=
  stay s (whenDev (fun d => match d.hamper.dlyDue with | some t => decide (t ≤ d.timebase) | none => false)
    (fun d => d.modHamper (fun h => { h with dly := h.dlySet, dlyDue := none })))

/-- A delay entry as the walk first sees it: a new generation (R373). -/
def Dev.dlyEnter (d : Dev) (e : Nat) : Dev :=
  if d.hamper.dlyUsed.contains e then d else d.modHamper (fun h => { h with dlyGen := FMap.set 0 h.dlyGen e (d.dlyGen e + 1) })

/-- The record of an entry for frame `j`, if its frame number and generation match. -/
def Dev.dlyFind (d : Dev) (e : Nat) (j : Int) : Option DlyRec :=
  if j < 0 then none
  else
    match FMap.get none d.hamper.dlyRecs (e * 16384 + j.toNat % 16384) with
    | some r => if r.frame = j.toNat % 2 ^ 32 ∧ r.gen = d.dlyGen e then some r else none
    | none => none

/-- A word goes into the line and the word DELAY frames back comes out, with the signalling word of floor(DELAY / 2 ms)
multiframes back (R303, R373). -/
def Dev.dlyStep (d : Dev) (e j word kind sig : Nat) : Nat × Nat × Nat × Dev :=
  let d1 := d.modHamper (fun h => { h with
    dlyRecs := FMap.set none h.dlyRecs (e * 16384 + j % 16384) (some ⟨word, kind, sig, j % 2 ^ 32, d.dlyGen e⟩) })
  let s := match d1.dlyFind e ((j : Int) - (d1.dly e / 16 * 16 : Nat)) with | some r => r.sig | none => 0
  match d1.dlyFind e ((j : Int) - (d1.dly e : Nat)) with
  | some r => (r.word, r.kind, s, d1)
  | none => (0x155, 1, 0, d1)

/-! ### Clips and plays (R375 to R377) -/

def clipBase : Nat := gib
/-- A little-endian word of the Hamper. -/
def Dev.ddrWord (d : Dev) (la : Nat) : Nat := (List.range 4).foldr (fun i v => v * 256 + d.ddrByte (la + i)) 0

/-- CLIP_COMMIT_WRITE (R375). -/
def execClipCommitWrite (value : Word) (s : State) : Host.Outcome State Fault Refusal :=
  unlessMisuse (s.dev.wordMisuse .hamper 0 0x84 value.toNat)
    (stay s (whenDev (fun d => d.writable .hamper)
      (fun d =>
        let d1 := d.writeFields 0xA084 .hamper 0 0x84 value.toNat
        if value.toNat.testBit 31 then
          (d1.wr HAMPER.CLIP_GO 0 0 1).modHamper (fun h => { h with clipJob := some (value.toNat % 4096) })
        else d1)))

/-- CLIP_CHECK_DONE (R375): VALID and the CRC-32 are checked, OFFSET and LENGTH latched. -/
def execClipCheckDone (s : State) : Host.Outcome State Fault Refusal :=
  stay s (fun d =>
    match d.hamper.clipJob with
    | none => d
    | some c =>
      let e := clipBase + 16 * c
      let off := d.ddrWord e
      let len := d.ddrWord (e + 4)
      let bytes := ceilDiv (10 * len) 8
      let ok := d.hamperOnline && d.ddrWord (e + 12) / 2 ^ 31 == 1 && decide (1 ≤ len ∧ 64 * off + bytes ≤ 7 * gib) &&
        crc32 (d.ddrRead (clipBase + 64 * off) bytes) == d.ddrWord (e + 8)
      let d1 := d.modHamper (fun h => { h with clipJob := none, clips := FMap.set Clip.none h.clips c ⟨off, len, ok⟩ })
      ((d1.flag HAMPER.VERIFIED 0 0 ok).wr HAMPER.CLIP_GO 0 0 0).raise .hamper 0 2)

/-- Misuse of CMD_PLAY's arguments (R67, R376). -/
def playBad (a : List Nat) : Bool :=
  let w := a.getD 0 0
  w / 2 ^ 17 % 4 != 0 || w / 256 % 256 != 0 ||
  (!w.testBit 19 && (a.length != 3 || a.getD 1 0 / 2 ^ 20 % 2 ^ 11 != 0 || a.getD 2 0 / 8 != 0 || decide (2 ≤ a.getD 2 0 % 4)))

def Dev.play (d : Dev) (ch : Nat) : Option Play := FMap.get none d.hamper.plays ch
def Dev.showPlays (d : Dev) : Dev := d.wr HAMPER.PLAYS 0 0 d.hamper.plays.length
def Dev.setPlay (d : Dev) (ch : Nat) (p : Option Play) : Dev :=
  (d.modHamper (fun h => { h with plays := FMap.set none h.plays ch p })).showPlays

/-- The boundary of the first walk that begins at least `n` ticks from now (R317, R376). -/
def Dev.walkAfter (d : Dev) (n : Nat) : Nat :=
  let b := nextAt d.sys.sysPhase frameTicks (d.timebase + n + 3277)
  max b d.mangle.nextWalk

/-- CMD_PLAY (R376): BUSY with 256 plays running. -/
def execCmdPlay (tag : Fin 4096) (s : State) : Host.Outcome State Fault Refusal :=
  unlessMisuse (argMisuse s 10 tag playBad)
    (stay s (fun d => d.startCmd 10 tag (fun c d =>
      let w := c.args.getD 0 0
      let busy := fun (ch : Nat) => (d.play ch).isSome || d.hamper.playReqs.any (fun (r : PlayReq) => r.ch == ch && !r.stop)
      if decide (256 ≤ d.hamper.plays.length) || (w.testBit 16 && !w.testBit 19 && (List.range 256).all busy) then d.complete tag .busy
      else
        let ch := if w.testBit 16 && !w.testBit 19 then ((List.range 256).find? (fun ch => !busy ch)).getD 0 else w % 256
        let m := c.args.getD 2 0
        let dst := if (c.args.getD 1 0).testBit 31 then some (c.args.getD 1 0 % 2 ^ 20) else none
        let r : PlayReq := ⟨tag, ch, w.testBit 19, if w.testBit 19 then d.mangle.nextWalk else d.walkAfter (usTicks 250),
          ⟨FMap.get Clip.none d.hamper.clips (w / 2 ^ 20), 0, dst, m % 4 == 1, m.testBit 2, 0⟩⟩
        d.modHamper (fun h => { h with playReqs := h.playReqs ++ [r] }))))

/-- One play request whose walk has come: the play starts or ends and the command completes (R376). -/
def Dev.playTake (d : Dev) (r : PlayReq) : Dev :=
  let was := (d.play r.ch).isSome
  let d1 := d.modHamper (fun h => { h with playReqs := h.playReqs.filter (fun x => x.tag != r.tag) })
  let res := [r.ch + (was && !r.stop).toNat * 256, r.walk % 2 ^ 32, r.walk / 2 ^ 32]
  if r.stop then (d1.setPlay r.ch none).complete r.tag .ok res
  else
    let p := { r.play with order := d1.hamper.playCount }
    let d2 := d1.modHamper (fun h => { h with playCount := h.playCount + 1 })
    let d3 := if r.play.clip.verified then d2 else (d2.inc HAMPER.PLAY_ERR).raise .hamper 0 3
    (d3.setPlay r.ch (if r.play.clip.length = 0 then none else some p)).complete r.tag .ok res

/-- The play requests whose walk begins at or before a boundary's walk. -/
def Dev.playsDue (d : Dev) (walk : Nat) : Dev := (d.hamper.playReqs.filter (fun r => decide (r.walk ≤ walk))).foldl Dev.playTake d

/-- PLAY_START (R376): at the start of the walk that takes the play's first word. -/
def execPlayStart (tag : Fin 4096) (s : State) : Host.Outcome State Fault Refusal :=
  stay s (fun d =>
    match d.hamper.playReqs.find? (fun (r : PlayReq) => r.tag == tag.val) with
    | some r => if r.walk ≤ d.timebase + 3277 then d.playTake r else d
    | none => d)

/-- Word `w` of a packed stream that starts at a logical address (R364). -/
def Dev.packedWord (d : Dev) (la w : Nat) : Nat :=
  let b := la + 10 * w / 8
  (d.ddrByte b * 256 + d.ddrByte (b + 1)) / 2 ^ (6 - 10 * w % 8) % 1024

/-- The word a play gives in this frame: IDLE if its clip is not VERIFIED (R376). -/
def Dev.playWord (d : Dev) (p : Play) : DestWord :=
  if p.clip.verified && d.hamperOnline then ⟨d.packedWord (clipBase + 64 * p.clip.offset) p.pos, .data, 0⟩ else DestWord.idle

/-- Every play moves on by one word; it ends after LENGTH words unless it loops (R376). -/
def Dev.playsStep (d : Dev) : Dev :=
  (d.modHamper (fun h => { h with plays := h.plays.filterMap (fun e =>
    match e.2 with
    | some p =>
      if p.pos + 1 < p.clip.length then some (e.1, some { p with pos := p.pos + 1 })
      else if p.loop then some (e.1, some { p with pos := 0 })
      else none
    | none => none) })).showPlays

/-- The play that holds a destination: the latest start (R377). -/
def Dev.playOn (d : Dev) (dst : Nat) : Option Play :=
  d.hamper.plays.foldl (fun (b : Option Play) e =>
    match e.2 with
    | some p => if p.dst == some dst && (match b with | some q => decide (q.order < p.order) | none => true) then some p else b
    | none => b) none

/-! ### Errors and scrub (R378) -/

/-- DDR_CORRECTED_ERROR (R378): CE_LIMIT corrected errors within one hour raise CE_LIMIT. -/
def execDdrCorrectedError (channel : Fin 4) (s : State) : Host.Outcome State Fault Refusal :=
  stay s (whenDev Dev.hamperOnline
    (fun d =>
      let ts := d.timebase :: (FMap.get [] d.hamper.ceTimes channel).filter (fun t => decide (d.timebase < t + secTicks 3600))
      let hit := decide (d.rd HAMPER.CE_LIMIT ≤ ts.length)
      let d1 := (d.inc HAMPER.CE_COUNT 0 channel).modHamper (fun h => { h with ceTimes := FMap.set [] h.ceTimes channel (if hit then [] else ts) })
      if hit then d1.raise .hamper 0 (16 + 4 * channel.val) else d1))

/-- DDR_UNCORRECTABLE_ERROR (R378). -/
def execDdrUncorrectableError (la : Fin 2199023255552) (s : State) : Host.Outcome State Fault Refusal :=
  stay s (whenDev (fun d => d.hamperOnline && decide (la.val < d.capacity))
    (fun d =>
      let c := d.laChannel la
      ((((d.inc HAMPER.UE_COUNT 0 c).wr HAMPER.UE_LA_LO 0 0 la).wr HAMPER.UE_LA_HI 0 0 (la.val / 2 ^ 32))).raise .hamper 0 (17 + 4 * c)))

/-- SCRUB_PASS_DONE (R378): once every 24 h. -/
def execScrubPassDone (s : State) : Host.Outcome State Fault Refusal :=
  stay s (whenDev (fun d => d.hamperOnline && d.on HAMPER.SCRUB_EN && d.passed d.hamper.scrubFrom (secTicks 86400))
    (fun d => (d.modHamper (fun h => { h with scrubFrom := d.timebase })).inc HAMPER.SCRUB_PASSES))

end Sys2Proof.Machine
end

