-- ==== Sys2Proof/Machine/Mangle.lean ====
section
/-! DEFINITION. MANGLE: connection memory and page swaps, the walk with its words, kinds and signalling, the trunk frames of PRESS,
slip buffers (R283 to R285, R299 to R324). -/

namespace Sys2Proof.Machine

def Dev.modMangle (d : Dev) (f : MangleSt → MangleSt) : Dev := { d with mangle := f d.mangle }

/-! ### Connection memory (R50, R313, R315, R316) -/

/-- 32-bit writes dropped or halves discarded. -/
def Dev.cmDrop (d : Dev) : Dev := (d.inc MANGLE.CM_WR_DROP).raise .mangle 0 4

/-- ENTRIES of the active page. -/
def Dev.showEntries' (d : Dev) : Dev := d.wr MANGLE.ENTRIES 0 0 (d.pageEntries d.activePage).length

/-- An entry committed whole: it is judged anew; on the active page a MODE 1 entry that has changed starts anew (R304, R310, R316). -/
def Dev.cmCommit (d : Dev) (g i v : Nat) : Dev :=
  let old := d.cmemWord g i
  let d1 := d.modMangle (fun m => { m with cmem := FMap.set 0 m.cmem (g * 32768 + i) (v ^^^ 15) })
  let d2 := if g = d1.activePage then d1.modMangle (fun m => { m with
      judged := FMap.set false m.judged i false
      entrySel := if old = v then m.entrySel else FMap.set SelSt.reset m.entrySel i SelSt.reset }) else d1
  d2.showEntries'.jrnAdd 2 [g, i, v % 2 ^ 32, v / 2 ^ 32]

/-- A write of one half of an entry (R50, R313, R315). -/
def Dev.cmHalf (d : Dev) (g i : Nat) (high : Bool) (v : Nat) : Dev :=
  let active := g == d.activePage
  if (active && !d.expert .mangle 0) || (!active && d.mangle.swap.isSome) then d.cmDrop
  else
    let put := fun (x : Staging) => if high then { x with hi := some v } else { x with lo := some v }
    let (d1, x) := match d.host.staging with
      | some x => if x.page = g ∧ x.entry = i then (d, put x) else (d.cmDrop, put ⟨g, i, none, none⟩)
      | none => (d, put ⟨g, i, none, none⟩)
    match x.lo, x.hi with
    | some lo, some hi => ({ d1 with host := { d1.host with staging := none } }).cmCommit g i (lo + hi * 2 ^ 32)
    | _, _ => { d1 with host := { d1.host with staging := some x } }

/-- Misuse: an expert write to the active page while a swap is pending (R77, R315). -/
def Dev.cmMisuse (d : Dev) (g : Nat) : Option Misuse :=
  if g = d.activePage ∧ d.expert .mangle 0 ∧ d.mangle.swap.isSome then some .activePage else none

/-- CMEM_HALF_WRITE (R50). -/
def execCmemHalfWrite (page : Fin 2) (entry : Fin 32768) (high : Bool) (value : Word) (s : State) : Host.Outcome State Fault Refusal :=
  unlessMisuse (s.dev.cmMisuse page)
    (stay s (whenDev (fun d => d.writable .mangle) (fun d => d.cmHalf page entry high value.toNat)))

/-! ### Page swap (R314 to R316) -/

/-- CMD_PAGE_SWAP (R314): BUSY while a swap is pending. -/
def execCmdPageSwap (tag : Fin 4096) (s : State) : Host.Outcome State Fault Refusal :=
  unlessMisuse (argMisuse s 1 tag (fun a => a != []))
    (stay s (fun d => d.startCmd 1 tag (fun _ d =>
      if d.mangle.swap.isSome then d.complete tag .busy
      else
        let b := if d.timebase + 3277 < d.sys.nextMf ∧ d.mangle.nextWalk ≤ d.sys.nextMf then d.sys.nextMf else d.sys.nextMf + mfTicks
        (d.modMangle (fun m => { m with swap := some ⟨tag, b, false⟩ })).wr MANGLE.SWAP_PENDING 0 0 1)))

/-- The swap completes (R314). -/
def Dev.swapDone (d : Dev) (x : SwapSt) : Dev :=
  let d1 := (((d.modMangle (fun m => { m with swap := none })).wr MANGLE.SWAP_PENDING 0 0 0).wr MANGLE.COPY_BUSY 0 0 0).inc MANGLE.SWAP_COUNT
  ((d1.raise .mangle 0 0).jrnAdd 4 [d1.sys.mfNum, d1.activePage]).complete x.tag .ok [d1.activePage, x.boundary % 2 ^ 32, x.boundary / 2 ^ 32]

/-- The selectors of the page that becomes active: a MODE 1 entry that the old page also held keeps its selection (R310, R316). -/
def Dev.carrySelectors (d : Dev) (old new : Nat) : Dev :=
  let was := (d.pageEntries old).filter (fun c => c.mode == 1)
  let sel := ((d.pageEntries new).filter (fun c => c.mode == 1)).foldl
    (fun (m : FMap SelSt) c =>
      match was.find? (fun o => o.dst == c.dst && o.srcA == c.srcA && o.srcB == c.srcB) with
      | some o => FMap.set SelSt.reset m c.index (d.entrySt o.index)
      | none => m) []
  d.modMangle (fun m => { m with entrySel := sel })

/-- The swap point, at the start of a walk for a boundary at or after the swap's (R314). -/
def Dev.swapPoint (d : Dev) (walk : Nat) : Dev :=
  match d.mangle.swap with
  | some x =>
    if x.passed || walk < x.boundary then d
    else
      let old := d.activePage
      let d1 := ((d.carrySelectors old (1 - old)).wr MANGLE.ACTIVE_PAGE 0 0 (1 - old)).modMangle (fun m => { m with judged := [] })
      let d2 := d1.showEntries'
      if d2.on MANGLE.COPY_ON_SWAP then
        (d2.modMangle (fun m => { m with swap := some { x with passed := true } })).wr MANGLE.COPY_BUSY 0 0 1
      else d2.swapDone x
  | none => d

/-- The active page copied into the other (R314). -/
def Dev.copyPage (d : Dev) : Dev :=
  let body := d.mangle.cmem.filterMap (fun e => if e.1 / 32768 = d.activePage then some (e.1 % 32768, e.2) else none)
  let page := fun (g : Nat) => body.map (fun (e : Nat × Nat) => (g * 32768 + e.1, e.2))
  d.modMangle (fun m => { m with cmem := page 0 ++ page 1 })

/-- PAGE_COPY_DONE (R314): the new active page has been copied into the standby page. -/
def execPageCopyDone (s : State) : Host.Outcome State Fault Refusal :=
  stay s (fun d =>
    match d.mangle.swap with
    | some x =>
      if !x.passed then d
      else
        d.copyPage.swapDone x
    | none => d)

/-! ### Received words at the walk (R17, R21, R258) -/

/-- The key of a line source's words: the port, or 512 plus the station context on a shared port. -/
def Dev.dueKey (d : Dev) (n s : Nat) : Nat := if d.shared n then 512 + stnKey n s else n

/-- Slot words put on their way to the walk of a boundary. -/
def Dev.putDue (d : Dev) (k b : Nat) (words failed : List Nat) : Dev :=
  { d with arch := { d.arch with due := FMap.set [] d.arch.due k (FMap.get [] d.arch.due k ++ [⟨b, words, failed⟩]) } }

/-- The words of every port for the frame of a boundary: those due there, else the words of the frame before (R21). -/
def Dev.takeDue (d : Dev) (b : Nat) : Dev × FMap DueFrame :=
  d.arch.due.foldl (fun (a : Dev × FMap DueFrame) e =>
    let left := e.2.filter (fun f => decide (b < f.at_))
    let d1 := { a.1 with arch := { a.1.arch with due := FMap.set [] a.1.arch.due e.1 left } }
    match e.2.find? (fun f => f.at_ == b) with
    | some f => ({ d1 with arch := { d1.arch with held := FMap.set [] d1.arch.held e.1 f.words } }, FMap.insert a.2 e.1 f)
    | none => (d1, a.2)) (d, [])

/-- A source word with its kind, and whether it was held or substituted (R304, R305). -/
structure SrcWord where
  word : Nat
  kind : WordKind
  held : Bool
  sub  : Bool
  deriving DecidableEq, Repr

def SrcWord.idle : SrcWord := ⟨0x155, .idle, false, false⟩

/-- The last mirrored word of a stream under GAP_MODE HOLD (R403). -/
def Dev.holdWord (d : Dev) (k : Nat) : Option SrcWord :=
  if d.pair.holds.contains k then
    match FMap.get (0, 9) d.pair.mirror k with
    | (_, 9) => none
    | (w, kind) => some ⟨w, match kind with | 0 => .data | 1 => .idle | _ => .ais, false, true⟩
  else none

/-- The word of a line source for this frame (R21, R258, R304). -/
def Dev.lineWord (d : Dev) (now : FMap DueFrame) (a : Nat) : SrcWord :=
  let n := addrPort a
  if !d.enabled n then SrcWord.idle
  else
    let (s, i) := d.srcStnSlot a
    let k := d.dueKey n s
    let f := now.find? (fun e => e.1 == k)
    let ws := match f with | some e => e.2.words | none => FMap.get [] d.arch.held k
    let t := d.srcTrib a
    let bad := match t, f with
      | some (t, _), some e => e.2.failed.contains t || (d.tribFailed t && e.2.words == [])
      | some (t, _), none => d.tribFailed t
      | none, _ => false
    if bad then
      match t.bind (fun x => d.holdWord (2 * x.1 + (!x.2).toNat)) with
      | some w => w
      | none => if d.on PORT.AIS_TRUNK_EN n then ⟨0x3FF, .ais, false, true⟩ else ⟨0x155, .idle, false, true⟩
    else
      match ws[i - 1]? with
      | some w => ⟨w, .data, f.isNone, false⟩
      | none => SrcWord.idle

/-- The word of a trunk source (R304, R324, R327). -/
def Dev.trunkWord (d : Dev) (a : Nat) : SrcWord :=
  let l := d.sourceLane (addrLane a)
  let sub : SrcWord := if d.on TRUNK.AIS_SRC_EN l then ⟨0x3FF, .ais, false, true⟩ else ⟨0x155, .idle, false, true⟩
  if d.on TRUNK.FAILED l || !d.trunkOn l then sub
  else
    match (d.trx l).used with
    | some f => ⟨f.words.getD (384 + addrSlot a) 0x155, .data, false, false⟩
    | none => sub

def Dev.srcWord (d : Dev) (now : FMap DueFrame) (a : Nat) : SrcWord := if isTrunk a then d.trunkWord a else d.lineWord now a

/-- The signalling word of a source (R307). -/
def Dev.srcSig (d : Dev) (a : Nat) : Nat :=
  if isTrunk a then FMap.get 0 (d.trx (d.sourceLane (addrLane a))).tsig (addrSlot a)
  else match d.srcTrib a with
    | some (t, true) => if d.enabled (addrPort a) then d.rd TRIB.SIG_RX t else 0
    | _ => 0

/-! ### Checks (R304, R312) -/

/-- The pleat index and direction of a MODE 5 entry: true for line to trunk (R311). -/
def Dev.pleatOf (d : Dev) (c : Conn) : Option (Nat × Bool) :=
  let trib := if !isTrunk c.srcA && isTrunk c.dst then d.srcTrib c.srcA
    else if isTrunk c.srcA && !isTrunk c.dst then d.dstTrib (addrPort c.dst) (addrQ c.dst) else none
  match trib with
  | some (t, true) => if d.on TRIB.PLEAT t then some (d.rd TRIB.PLEAT_IDX t, !isTrunk c.srcA) else none
  | _ => none

/-- Whether a mode reads SRC_A as a slot address (R304). -/
def Conn.readsA (c : Conn) : Bool := c.mode == 0 || c.mode == 1 || c.mode == 5 || c.mode == 6 || (c.mode == 4 && c.srcB.testBit 4)

/-- The first row of R304 that applies to an entry among those of lower index, by its CAUSE; none where the entry is sound. -/
def Dev.connCause (d : Dev) (before : List Conn) (c : Conn) : Option Nat :=
  if 8 ≤ c.mode then some 2
  else if !d.dstValid c.dst then some 0
  else if before.any (fun o => o.dst == c.dst) then some 5
  else if c.mode == 5 && (match d.pleatOf c with | none => true | some p => before.any (fun o => o.mode == 5 && d.pleatOf o == some p)) then some 3
  else if c.mode = 6 ∧ before.any (fun o => o.mode == 6 && o.srcB % 4096 == c.srcB % 4096) then some 4
  else if (c.readsA && !d.srcValid c.srcA) || (c.mode == 1 && !d.srcValid c.srcB) then some 1
  else none

/-- A faulty entry counted, once per commit of the entry and activation of its page (R304, R330). -/
def Dev.connBad (d : Dev) (c : Conn) (cause : Nat) : Dev :=
  if FMap.get false d.mangle.judged c.index then d
  else
    let d1 := d.modMangle (fun m => { m with judged := FMap.set false m.judged c.index true })
    let d2 := if cause = 5 then d1.inc MANGLE.DUP_DST else d1.inc MANGLE.CM_BAD
    let d3 := if d2.on MANGLE.BAD_VALID then d2
      else (((d2.wr MANGLE.BAD_VALID 0 0 1).wr MANGLE.BAD_CAUSE 0 0 cause).wr MANGLE.BAD_PAGE 0 0 d2.activePage).wr MANGLE.BAD_INDEX 0 0 c.index
    d3.raise .mangle 0 (if cause = 5 then 3 else 2)

/-! ### PRBS (R309) -/

/-- Bits of the sequence x^15 + x^14 + 1 from a register. -/
def prbsNext : Nat → Nat → List Bool × Nat
  | 0, g => ([], g)
  | k + 1, g =>
    let b := g.testBit 14 != g.testBit 13
    let (r, g1) := prbsNext k (g * 2 % 32768 + b.toNat)
    (b :: r, g1)

/-- The wrong bits of a received byte against the 15 bits before each, and the bits seen after it. -/
def prbsErrors (hist : Nat) (bits : List Bool) : Nat × Nat :=
  bits.foldl (fun a b => (a.1 + ((a.2.testBit 14 != a.2.testBit 13) != b).toNat, a.2 * 2 % 32768 + b.toNat)) (0, hist)

/-- A checker judges a source word (R309). -/
def Dev.prbsCheck (d : Dev) (c : Nat) (w : SrcWord) : Dev :=
  let x := FMap.get PrbsSt.reset d.mangle.checks c
  let (e0, hist) := prbsErrors x.hist (wordBits 8 w.word)
  let e := if w.kind = .data then e0 else 8
  let sync := d.on MANGLE.SYNC 0 c
  let good := if e = 0 then min 16 (x.good + 1) else 0
  let last := if sync then (decide (e ≠ 0) :: x.last).take 8 else []
  let lose := sync && decide (4 ≤ (last.filter id).length)
  let d1 := if sync then d.inc MANGLE.BIT_ERR 0 c e else d
  let d2 := d1.modMangle (fun m => { m with checks := FMap.set PrbsSt.reset m.checks c ⟨hist, if lose then 0 else good, if lose then [] else last⟩ })
  if lose then ((d2.wr MANGLE.SYNC 0 c 0).inc MANGLE.SYNC_LOSS 0 c).raise .mangle 0 5
  else if !sync && good == 16 then d2.wr MANGLE.SYNC 0 c 1
  else d2

/-! ### The walk (R303 to R318) -/

/-- What a walk carries: the received words, the system frame number, the generator word, and the words of the walk before. -/
structure Walk where
  now  : FMap DueFrame
  j    : Nat
  prbs : Nat
  prev : FMap DestWord
  deriving DecidableEq, Repr

/-- The word of one entry for its destination (R303). -/
def Dev.connWord (d : Dev) (w : Walk) (c : Conn) (cause : Option Nat) : Dev × DestWord :=
  let of := fun (a : Nat) => let x := d.srcWord w.now a; DestWord.mk x.word x.kind (d.srcSig a)
  match c.mode with
  | 0 => (d, if cause.isSome then DestWord.idle else of c.srcA)
  | 1 =>
    let a := if d.selected c then c.srcB else c.srcA
    let b := if d.selected c then c.srcA else c.srcB
    (d, if d.srcValid a then of a else if d.srcValid b then of b else DestWord.idle)
  | 2 => (d, FMap.get DestWord.idle d.mangle.held c.dst)
  | 4 => (d, ⟨w.prbs, .data, 0⟩)
  | 5 =>
    if cause.isSome || !d.profileS then (d, DestWord.idle)
    else
      match d.pleatOf c with
      | some (p, true) =>
        let x := d.pleat p
        (d, match x.words[w.j % 16]? with | some v => ⟨v, .pleat, 0⟩ | none => DestWord.idle)
      | some (p, false) =>
        let wide := match d.pleatTrib p with | some t => d.on TRIB.WIDE t | none => true
        (d, if (d.desync p).active && !(d.desync p).start && !wide then ⟨p, .desync, 0⟩ else DestWord.idle)
      | none => (d, DestWord.idle)
  | 6 =>
    if cause == some 4 then (d, DestWord.idle)
    else if cause.isSome || !d.hamperOnline then (d.dlyEnter (c.srcB % 4096), DestWord.idle)
    else
      let x := of c.srcA
      let kind := fun (k : WordKind) => match k with | .data => 0 | .idle => 1 | .ais => 2 | .pleat | .desync => 0
      let (v, k, sig, d1) := (d.dlyEnter (c.srcB % 4096)).dlyStep (c.srcB % 4096) w.j x.word (kind x.kind) x.sig
      (d1, ⟨v, match k with | 0 => .data | 1 => .idle | _ => .ais, sig⟩)
  | 7 =>
    (d, match d.play (c.srcA % 256) with
      | some p => if d.hamperOnline then d.playWord p else DestWord.idle
      | none => DestWord.idle)
  | _ => (d, DestWord.idle)

/-- A play that takes a destination (R377). -/
def Dev.overPlay (d : Dev) (dst : Nat) (x : DestWord) : DestWord :=
  match d.playOn dst with
  | some p => if p.fill && x.kind != .idle then x else if d.hamperOnline then d.playWord p else DestWord.idle
  | none => x

/-- The signalling word a trunk destination carries: taken at the walk of trunk frame 0, kept through the multiframe (R307). -/
def Walk.sigOf (w : Walk) (dst : Nat) (x : DestWord) : DestWord :=
  if isTrunk dst ∧ w.j % 16 ≠ 0 then { x with sig := (FMap.get DestWord.idle w.prev dst).sig } else x

/-- The word that a destination carried in the frame before, for MODE 2; of a desynchronizer the last word read (R303). -/
def Dev.carried (d : Dev) (x : DestWord) : DestWord :=
  match x.kind with
  | .desync => ⟨(d.desync x.word).last, .pleat, x.sig⟩
  | _ => x

/-- One entry of the page in the walk. `acc` holds the entries of lower index. -/
def Dev.walkEntry (w : Walk) (acc : Dev × List Conn × FMap DestWord) (c : Conn) : Dev × List Conn × FMap DestWord :=
  let (d, before, out) := acc
  let cause := d.connCause before c
  let d1 := match cause with | some k => d.connBad c k | none => d
  let ignored := cause == some 2 || cause == some 0 || cause == some 5
  if ignored then (d1, before ++ [c], out)
  else
    let v := d1.cmemWord d1.activePage c.index + 1
    let fresh := FMap.get 0 d1.mangle.entryAt c.dst != v
    let d2 := if c.mode = 2 ∧ fresh then
        d1.modMangle (fun m => { m with held := FMap.set DestWord.idle m.held c.dst (d1.carried (FMap.get DestWord.idle w.prev c.dst)) }) else d1
    let d3 :=
      if c.mode = 4 ∧ c.srcB.testBit 4 ∧ d2.srcValid c.srcA ∧ !before.any (fun o => o.mode == 4 && o.srcB.testBit 4 && o.srcB % 16 == c.srcB % 16) then
        (d2.wr MANGLE.USED 0 (c.srcB % 16) 1).prbsCheck (c.srcB % 16) (d2.srcWord w.now c.srcA)
      else d2
    let (d4, x) := d3.connWord w c cause
    (d4, before ++ [c], FMap.set DestWord.idle out c.dst (w.sigOf c.dst (d4.overPlay c.dst x)))

/-- The destinations that plays take though no entry gives them a word: none names them, or only entries of a reserved MODE come first
(R303, R304). -/
def Dev.playDests (d : Dev) (named : List Conn) : List Nat :=
  (d.hamper.plays.filterMap (fun e => match e.2 with
    | some p => p.dst.bind (fun a =>
        if d.dstValid a && !(named.find? (fun c => c.dst == a)).any (fun c => decide (c.mode < 8)) then some a else none)
    | none => none)).eraseDups

/-- The record tap of a walk: every stream, and those that may start with the period to come (R363). -/
def Dev.recTaps (d : Dev) (w : Walk) : Dev :=
  let keys := (d.streamKeys ++ (if w.j = d.hamper.nextPer * 16 then (List.range 32768).filter d.recWanted else [])).eraseDups
  keys.foldl (fun (d : Dev) k =>
    let t := k / 2
    let n := d.rd TRIB.PORT_N t
    let slot := d.rd TRIB.RX_SLOT t + k % 2
    let q := if d.shared n then 1 + d.rd TRIB.STN_N t * d.rd PORT.BURST_SLOTS n + (slot - 1) else slot
    let x := d.lineWord w.now (n * 1024 + q)
    d.recTap k w.j x.word (match x.kind with | .idle => 1 | .ais => 2 | _ => 0) x.held x.sub (d.enabled n && d.tribFailed t)) d

/-- The trunk frame that each lane's slip buffer assigns to a boundary; the frame before where none is (R283, R285). Its slots feed
the desynchronizers of pleated connections (R288). -/
def Dev.takeTrunk (d : Dev) (b : Nat) (l : Nat) : Dev :=
  let x := d.trx l
  let got := x.queue.find? (fun f => f.time == b)
  let used := match got with | some f => some f | none => if (d.slip (512 + l)).b.isNone then none else x.used
  let d1 := d.setTrx l { x with queue := x.queue.filter (fun f => decide (b < f.time)), used := used }
  match got with
  | some f => if d1.profileS then (d1.lanePleats l).foldl (fun (d : Dev) p => d.desyncWord p.1 f.fn (f.words.getD (384 + p.2) 0x155)) d1 else d1
  | none => d1

/-- The system frame number of a boundary: 16 × MF_NUM plus the frame in its multiframe (R270, R362). -/
def Dev.frameNum (d : Dev) (b : Nat) : Nat :=
  if b < d.sys.nextMf then 16 * d.sys.mfNum + (15 - (d.sys.nextMf - b - 1) / frameTicks) else 16 * (d.sys.mfNum + 1) + (b - d.sys.nextMf) / frameTicks

/-- Destinations not written by their deadline keep the word of the frame before (R318). -/
def Dev.walkLate (d : Dev) (prev out : FMap DestWord) (late : List Nat) : Dev × FMap DestWord :=
  if late = [] then (d, out)
  else
    ((((d.inc MANGLE.WALK_LATE 0 0 late.length).raise .mangle 0 1).fault srcMangle),
     late.foldl (fun m a => FMap.set DestWord.idle m a (FMap.get DestWord.idle prev a)) out)

/-- The signalling that the walk gives a tributary is committed by FOLD; the walk keeps the line destinations of the frames that have
not started (R317). -/
def Dev.keepLine (d : Dev) (b : Nat) (out : FMap DestWord) : Dev :=
  let start := b + d.rd DEV.T2L_DELAY * frameTicks
  d.modMangle (fun m => { m with line := (m.line.filter (fun e => decide (b ≤ e.1 + mfTicks))) ++ [(start, out.filter (fun e => !isTrunk e.1))] })

/-- The walk for the system frame of boundary `b` (R303 to R318). -/
def Dev.walk (d : Dev) (b ticks : Nat) (late : List Nat) : Dev :=
  let j := d.frameNum b
  let d1 := (List.range 8).foldl (fun (d : Dev) l => d.takeTrunk b l) d
  let (d2, now) := d1.takeDue b
  let d3 := (List.range 4).foldl (fun (d : Dev) p => d.evalPair p) d2
  let d4 := d3.groups.foldl (fun (d : Dev) n => d.evalGroup n) d3.dropGroups
  let d5 := d4.evalEntries
  let (bits, gen) := prbsNext 8 d5.mangle.gen
  let w : Walk := ⟨now, j, 0x200 + bitsVal bits, d5.mangle.dest⟩
  let d6 := (List.range 16).foldl (fun (d : Dev) c => d.wr MANGLE.USED 0 c 0) (d5.modMangle (fun m => { m with gen := gen }))
  let (d7, conns, out) := (d6.pageEntries d6.activePage).foldl (Dev.walkEntry w) (d6, [], [])
  let out1 := (d7.playDests conns).foldl (fun m a => FMap.set DestWord.idle m a (w.sigOf a (d7.overPlay a DestWord.idle))) out
  let (d8, out2) := d7.walkLate w.prev out1 late
  let seen := conns.foldl (fun (m : FMap Nat) c => if (FMap.get 0 m c.dst) = 0 then FMap.set 0 m c.dst (d8.cmemWord d8.activePage c.index + 1) else m) []
  let used := ((d8.heeded [] conns).filter (fun c => c.mode == 6)).map (fun c => c.srcB % 4096)
  let d9 := (d8.recTaps w).showQuery.modMangle (fun m => { m with dest := out2, entryAt := seen })
  let d10 := (d9.modHamper (fun h => { h with dlyUsed := used })).playsStep
  let d11 := { d10 with pair := { d10.pair with holds := d10.pair.holds.filter (fun k => d10.tribFailed (k / 2)) } }
  ((d11.keepLine b out2).wr MANGLE.WALK_LAST 0 0 (min ticks 65535)).wr MANGLE.WALK_MAX 0 0 (max (d11.rd MANGLE.WALK_MAX) (min ticks 65535))

/-- The first walk after a transition to active begins (R400, step 5): GAP_FRAMES, and a CMD_SWITCHOVER of this unit completes with the new
EPOCH (R404). -/
def Dev.takeWalk (d : Dev) (b : Nat) : Dev :=
  match d.pair.take with
  | none => d
  | some t =>
    let d1 := (d.modPair (fun (x : PairSt) => { x with take := none })).wr PAIR.GAP_FRAMES 0 0 (min 65535 (ceilDiv (b - t) frameTicks))
    match d1.pair.switch with
    | some (some tag, .asked) => (d1.modPair (fun (x : PairSt) => { x with switch := none })).complete tag .ok [d1.rd PAIR.EPOCH]
    | _ => d1

/-- MANGLE_WALK_START (R317): 3,277 ticks before a boundary. `ticks` is the length of the walk; `late` lists destinations that the
order of WALK_PIN = 1 leaves unwritten by their deadline (R318). Outside RUN only a swap point falls there (R316). -/
def execMangleWalkStart (ticks : Nat) (late : List (Fin 1048576)) (s : State) : Host.Outcome State Fault Refusal :=
  stay s (whenDev (fun d => d.mode != .reset && d.mode != .boot && decide (d.mangle.nextWalk ≤ d.timebase + 3277))
    (fun d =>
      let b := d.mangle.nextWalk
      let d1 := (d.swapPoint b).modMangle (fun m => { m with nextWalk := b + frameTicks })
      if d1.mode = .run then
        ((d1.takeWalk b).playsDue b).walk b ticks (if d1.on DEV.WALK_PIN then (late.map (fun a => a.val)).filter (fun a => d1.dstValid a) else [])
      else d1))

/-! ### Trunk transmit (R319 to R324) -/

/-- Whether PRESS sends on a lane (R323). -/
def Dev.pressOn (d : Dev) (l : Nat) : Bool :=
  d.trunkOn l && d.mode != .reset && d.mode != .boot && (d.lint.run.bind (fun x => x.items.head?)) != some 200

/-- UNIT_ROLE (R320, R323). -/
def Dev.unitRole (d : Dev) : Nat :=
  (match d.mode with | .run => 1 | .standby => 2 | _ => 0) + (if d.paired then 4 + 8 * d.rd DEV.PAIR_ROLE else 0)

/-- The payload word of a trunk slot in frame `f` (R306, R323). -/
def Dev.payload (d : Dev) (l f t : Nat) : Nat :=
  if d.mode = .run then
    let x := FMap.get DestWord.idle d.mangle.dest (2 ^ 19 + l * 65536 + t)
    match x.kind with
    | .data => x.word % 1024 / 512 * 512 + (x.sig.testBit (15 - f)).toNat * 256 + x.word % 256
    | _ => x.word
  else 0x155

/-- The justification words of a frame: those of the line-to-trunk entries that end on the lane (R287, R311); 0 in Profile L. -/
def Dev.jcWords (d : Dev) (l f : Nat) : List Nat :=
  let ps : List (Nat × Nat) := if d.profileS && d.mode == .run then
      (d.pageEntries d.activePage).filterMap (fun c =>
        if c.mode = 5 ∧ isTrunk c.dst ∧ addrLane c.dst = l then
          match d.pleatOf c with
          | some (p, true) => if p / 256 = f then some (p % 256, (d.pleat p).code) else none
          | _ => none
        else none)
    else []
  (List.range 256).map (fun i => match ps.find? (fun x => x.1 == i) with | some x => x.2 | none => 0)

/-- Word 3 of frame `f` of lane `l` (R320). -/
def Dev.word3 (d : Dev) (l f : Nat) : Nat :=
  let x := FMap.get TrunkTx.reset d.mangle.tx l
  let byte := fun (v i : Nat) => v / 2 ^ (8 * (3 - i)) % 256
  if f = 0 then x.crcPrev
  else if f = 1 then d.rd TRUNK.TX_TLABEL l
  else if f = 2 then d.unitRole
  else if f ≤ 6 then (if d.paired then byte (d.rd PAIR.EPOCH) (f - 3) else 0)
  else if f ≤ 10 then 0
  else if f = 11 then (d.rdTrace TRUNK.TX_TRACE l).getD x.trace 0 + (if x.trace = 0 then 512 else 0)
  else if f = 12 then (d.on TRUNK.FAILED l && d.on TRUNK.TRDI_EN l).toNat * 512 + (d.trx l).rei.toNat * 256
  else 0

/-- The words 3 onward of a frame, before scrambling. Lane 2p + 1 of a pair copies lane 2p but for word 3 of f0, f1 and f11
(R324). -/
def Dev.trunkBody (d : Dev) (l f : Nat) : List Nat :=
  let src := if l % 2 = 1 ∧ d.trunkPaired l then l - 1 else l
  let w3 := if f = 0 ∨ f = 1 ∨ f = 11 then d.word3 l f else d.word3 src f
  w3 :: List.replicate 124 0 ++ d.jcWords src f ++ (List.range (d.trunkSlots l)).map (fun t => d.payload src f t)

/-- The trunk frame of a lane in frame `f` of the multiframe: its 10-bit words and the lane's transmit state after it (R319 to R323). -/
def Dev.trunkFrame (d : Dev) (l f : Nat) : List Nat × TrunkTx :=
  let x := FMap.get TrunkTx.reset d.mangle.tx l
  if d.mode = .safe then ([0x2CE, 0x1B5] ++ List.replicate (d.trunkWords l - 2) 0x3FF, x)
  else
    let body := d.trunkBody l f
    let bits := body.flatMap (wordBits 10)
    let (sc, lf) := scramble bits (if f = 0 then lfsrSeed else x.lfsr)
    let crc := crc10 bits (if f = 0 then 0x3FF else x.crc)
    ([0x2CE, 0x1B5, 512 + f * 16 + (15 - f)] ++ bitsWords 10 body.length sc,
     { lfsr := lf, crc := crc, crcPrev := if f = 15 then crc else x.crcPrev, trace := if f = 11 then (x.trace + 1) % 16 else x.trace })

/-- TRUNK_FRAME_SEND (R323): PRESS sends the frame of a boundary on every enabled lane. -/
def Dev.pressBoundary (d : Dev) (f : Nat) : Dev :=
  (List.range 8).foldl (fun (d : Dev) l =>
    if !d.pressOn l then d.wr TRUNK.TX_ROLE l 0 0
    else
      let (ws, x) := d.trunkFrame l f
      let out := if d.on TRUNK.TX_INV l then ws.map (fun w => 1023 - w % 1024) else ws
      let d1 := ((d.emit (.trunk l out)).modMangle (fun m => { m with tx := FMap.set TrunkTx.reset m.tx l x })).wr TRUNK.TX_ROLE l 0 d.unitRole
      if d1.on TRUNK.LOOPBACK l then d1.trunkReceive l ws else d1) d

/-! ### Slip buffers (R283 to R285) -/

/-- Whether a port's port-frames pass SLIP: SELF timing in Profile L (R283). -/
def Dev.slipping (d : Dev) (n : Nat) : Bool := d.timingMode n == 1 && !d.profileS

/-- The oldest port-frame of a port that LABEL has finished and SLIP has not placed. -/
def Dev.slipNext (d : Dev) (n : Nat) : Option PortFrame :=
  (FMap.get [] d.arch.frames (2 * n)).find? (fun f => f.stage == 5 && !f.placed)

/-- A port-frame enters a port's slip buffer: it takes its boundary, or is discarded (R283 to R285). Its stamp lies 1.5 frames before
the nominal boundary that it carries. -/
def Dev.portSlip (d : Dev) (n : Nat) (f : PortFrame) : Dev :=
  let (b, fill, act) := slipStep d.sys.sysPhase (d.slip n).b f.stamp
  let d1 := (d.setSlip n { d.slip n with b := some b }).wr PORT.SLIP_FILL n 0 (min 1023 (max fill 0).toNat)
  let fs := FMap.get [] d1.arch.frames (2 * n)
  let set := fun (d : Dev) (fs : List PortFrame) => { d with arch := { d.arch with frames := FMap.set [] d.arch.frames (2 * n) fs } }
  let place := fs.map (fun (g : PortFrame) => if g.num = f.num then { g with ref := b, placed := true } else g)
  match act with
  | .normal => set d1 place
  | .repeated => (((set d1 place).inc PORT.SLIPS n).inc PORT.SLIP_REPEAT n).labelSlip n 0
  | .dropped => (((set d1 (fs.filter (fun (g : PortFrame) => g.num != f.num))).inc PORT.SLIPS n).inc PORT.SLIP_DROP n).labelSlip n 0

/-- SLIP_BUFFER_FRAME (R283): a frame enters the slip buffer of a trunk lane or of a SELF port. -/
def execSlipBufferFrame (buffer : SlipRef) (s : State) : Host.Outcome State Fault Refusal :=
  stay s (fun d =>
    match buffer with
    | .trunk l => d.trunkSlip l
    | .port n => if d.slipping n then (match d.slipNext n with | some f => d.portSlip n f | none => d) else d)

end Sys2Proof.Machine
end

