-- ==== Sys2Proof/Machine/NeedleIsa.lean ====
section
/-! DEFINITION. The instruction words of the Needle engines: the four formats, the opcodes, their decoder and an encoder (R416 to
R419). -/

namespace Sys2Proof.Machine

/-- The functions of opcode 0x00, in the order of their codes (R418). -/
inductive AluFn where
  | add | adc | sub | sbc | and | or | xor | not | shl | shr | asr | rol | mul | mulh | min | max | cmp | tst | mov | brev10
  | popc | clz | gray | ungray | parity
  deriving DecidableEq, Repr

/-- The function code (R418). -/
def AluFn.code : AluFn → Nat
  | .add => 0 | .adc => 1 | .sub => 2 | .sbc => 3 | .and => 4 | .or => 5 | .xor => 6 | .not => 7 | .shl => 8 | .shr => 9
  | .asr => 10 | .rol => 11 | .mul => 12 | .mulh => 13 | .min => 14 | .max => 15 | .cmp => 16 | .tst => 17 | .mov => 18
  | .brev10 => 19 | .popc => 20 | .clz => 21 | .gray => 22 | .ungray => 23 | .parity => 24

/-- The function of a code; the other codes are illegal (R417). -/
def AluFn.ofCode : Nat → Option AluFn
  | 0 => some .add | 1 => some .adc | 2 => some .sub | 3 => some .sbc | 4 => some .and | 5 => some .or | 6 => some .xor | 7 => some .not
  | 8 => some .shl | 9 => some .shr | 10 => some .asr | 11 => some .rol | 12 => some .mul | 13 => some .mulh | 14 => some .min
  | 15 => some .max | 16 => some .cmp | 17 => some .tst | 18 => some .mov | 19 => some .brev10 | 20 => some .popc | 21 => some .clz
  | 22 => some .gray | 23 => some .ungray | 24 => some .parity | _ => none

/-- The immediate instructions that compute (R417). -/
inductive ImmOp where
  | addi | subi | andi | ori | xori | cmpi | shli | shri | asri | movi | lui | tsti
  deriving DecidableEq, Repr

/-- The opcode (R417). -/
def ImmOp.code : ImmOp → Nat
  | .addi => 0x08 | .subi => 0x09 | .andi => 0x0A | .ori => 0x0B | .xori => 0x0C | .cmpi => 0x0D | .shli => 0x0E | .shri => 0x0F
  | .asri => 0x10 | .movi => 0x11 | .lui => 0x12 | .tsti => 0x13

/-- The memory instructions (R417). -/
inductive MemOp where
  | ld | st | xch
  deriving DecidableEq, Repr

def MemOp.code : MemOp → Nat
  | .ld => 0x18 | .st => 0x19 | .xch => 0x1A

/-- The conditions of R419. -/
inductive Cond where
  | always | zero | nonzero | carry | nocarry | neg | nonneg | higher | nothigher | greater | notgreater
  deriving DecidableEq, Repr

/-- The condition code (R419). -/
def Cond.code : Cond → Nat
  | .always => 0 | .zero => 2 | .nonzero => 3 | .carry => 4 | .nocarry => 5 | .neg => 6 | .nonneg => 7 | .higher => 8
  | .nothigher => 9 | .greater => 10 | .notgreater => 11

/-- The condition of a code; 1 and 12 to 15 are illegal (R417). -/
def Cond.ofCode : Nat → Option Cond
  | 0 => some .always | 2 => some .zero | 3 => some .nonzero | 4 => some .carry | 5 => some .nocarry | 6 => some .neg
  | 7 => some .nonneg | 8 => some .higher | 9 => some .nothigher | 10 => some .greater | 11 => some .notgreater | _ => none

/-- An engine instruction (R416, R417). -/
inductive NInstr where
  | alu (fn : AluFn) (d a b : Fin 16)
  | jr (a : Fin 16)
  | jalr (a : Fin 16)
  | imm (op : ImmOp) (d a : Fin 16) (imm : Fin 1024)
  | mem (op : MemOp) (d base : Fin 16) (off : Fin 1024)
  | b (cond : Cond) (target : Fin 4096)
  | call (cond : Cond) (target : Fin 4096)
  | wait (imm : Fin 1024)
  | brem (d : Fin 16)
  | brk
  deriving DecidableEq, Repr

/-- A register field of a word: 4 bits from bit `i`. -/
def regAt (w i : Nat) : Fin 16 := ⟨w / 2 ^ i % 16, Nat.mod_lt _ (by decide)⟩
/-- The immediate or offset of a word. -/
def immAt (w : Nat) : Fin 1024 := ⟨w % 1024, Nat.mod_lt _ (by decide)⟩
/-- The target of a branch: bits [11:0]. -/
def targetAt (w : Nat) : Fin 4096 := ⟨w % 4096, Nat.mod_lt _ (by decide)⟩

/-- The instruction of a 24-bit word; none is illegal (R416, R417). Fields that a format gives no meaning are not looked at. -/
def ndecode (w : Nat) : Option NInstr :=
  let imm := fun (op : ImmOp) => some (NInstr.imm op (regAt w 14) (regAt w 10) (immAt w))
  let mem := fun (op : MemOp) => some (NInstr.mem op (regAt w 14) (regAt w 10) (immAt w))
  match w / 2 ^ 18 % 64 with
  | 0x00 => (AluFn.ofCode (w % 64)).map (fun f => .alu f (regAt w 14) (regAt w 10) (regAt w 6))
  | 0x01 => if w % 64 = 0 then some (.jr (regAt w 10)) else if w % 64 = 1 then some (.jalr (regAt w 10)) else none
  | 0x08 => imm .addi
  | 0x09 => imm .subi
  | 0x0A => imm .andi
  | 0x0B => imm .ori
  | 0x0C => imm .xori
  | 0x0D => imm .cmpi
  | 0x0E => imm .shli
  | 0x0F => imm .shri
  | 0x10 => imm .asri
  | 0x11 => imm .movi
  | 0x12 => imm .lui
  | 0x13 => imm .tsti
  | 0x18 => mem .ld
  | 0x19 => mem .st
  | 0x1A => mem .xch
  | 0x20 => (Cond.ofCode (w / 2 ^ 14 % 16)).map (fun c => .b c (targetAt w))
  | 0x21 => (Cond.ofCode (w / 2 ^ 14 % 16)).map (fun c => .call c (targetAt w))
  | 0x30 => some (.wait (immAt w))
  | 0x31 => some (.brem (regAt w 14))
  | 0x3E => some .brk
  | _ => none

/-- A word of the immediate, memory and register formats by its fields. -/
def nword (op d a low : Nat) : Nat := op * 2 ^ 18 + d * 2 ^ 14 + a * 2 ^ 10 + low

/-- The word of an instruction, fields without meaning 0 (R416, R417). -/
def nencode : NInstr → Nat
  | .alu f d a b => nword 0x00 d a (b.val * 64 + f.code)
  | .jr a => nword 0x01 0 a 0
  | .jalr a => nword 0x01 0 a 1
  | .imm op d a i => nword op.code d a i
  | .mem op d a o => nword op.code d a o
  | .b c t => nword 0x20 c.code 0 t
  | .call c t => nword 0x21 c.code 0 t
  | .wait i => nword 0x30 0 0 i
  | .brem d => nword 0x31 d 0 0
  | .brk => nword 0x3E 0 0 0

/-! ### Results and flags (R418, R419) -/

/-- The words of an engine have 20 bits. -/
def w20 : Nat := 2 ^ 20

/-- The flags. -/
structure NFlags where
  z : Bool
  c : Bool
  n : Bool
  deriving DecidableEq, Repr

/-- FLAGS as a register: [2] N, [1] C, [0] Z (R439). -/
def NFlags.word (f : NFlags) : Nat := f.n.toNat * 4 + f.c.toNat * 2 + f.z.toNat
def NFlags.of (v : Nat) : NFlags := ⟨v.testBit 0, v.testBit 1, v.testBit 2⟩

/-- A result with the flags it sets; none writes no register. -/
abbrev NResult := Option Nat × NFlags

/-- Z and N from a result, C as given. -/
def setZN (v : Nat) (c : Bool) : NFlags := ⟨v == 0, c, v.testBit 19⟩

/-- a + b + carry: C is the carry out of bit 19 (R419). -/
def nadd (a b cin : Nat) : NResult :=
  let r := a + b + cin
  (some (r % w20), setZN (r % w20) (decide (w20 ≤ r)))

/-- a − b − borrow: C is 1 when no borrow occurs (R419). -/
def nsub (a b bin : Nat) : NResult :=
  let r := (a + 2 * w20 - b - bin) % w20
  (some r, setZN r (decide (b + bin ≤ a)))

/-- CMP: C when a ≥ b unsigned, N when a < b signed, Z when equal (R419). -/
def ncmp (a b : Nat) : NResult := (none, ⟨a == b, decide (b ≤ a), decide (signedOf 20 a < signedOf 20 b)⟩)

/-- A logical result: Z and N from it, C unchanged (R419). -/
def nlogic (f : NFlags) (v : Nat) : NResult := (some v, setZN v f.c)

/-- Shifts by `k`: C is the last bit shifted out, unchanged by a shift of 0; by 20 or more they give 0, or copies of bit 19 (R417,
R419). -/
def nshl (f : NFlags) (a k : Nat) : NResult :=
  let v := if 20 ≤ k then 0 else a * 2 ^ k % w20
  (some v, setZN v (if k = 0 then f.c else decide (k ≤ 20) && a.testBit (20 - k)))
def nshr (f : NFlags) (a k : Nat) : NResult :=
  let v := if 20 ≤ k then 0 else a / 2 ^ k
  (some v, setZN v (if k = 0 then f.c else decide (k ≤ 20) && a.testBit (k - 1)))
def nasr (f : NFlags) (a k : Nat) : NResult :=
  let x := codeOf 20 (Int.fdiv (signedOf 20 a) ((2 ^ (min k 20) : Nat) : Int))
  (some x, setZN x (if k = 0 then f.c else a.testBit (min (k - 1) 19)))
/-- A rotation left by b[4:0] modulo 20 (R418). -/
def nrol (f : NFlags) (a b : Nat) : NResult :=
  let k := b % 32 % 20
  let v := (a * 2 ^ k + a / 2 ^ (20 - k)) % w20
  (some v, setZN v (if k = 0 then f.c else v.testBit 0))

/-- The number of 1 bits among the low 20. -/
def popc20 (a : Nat) : Nat := ((List.range 20).filter a.testBit).length
/-- The number of leading zeros of a 20-bit word. -/
def clz20 (a : Nat) : Nat := ((List.range 20).map (fun i => 19 - i)).takeWhile (fun i => !a.testBit i) |>.length
/-- Bits [9:0] reversed. -/
def brev10 (a : Nat) : Nat := (List.range 10).foldl (fun v i => 2 * v + (a.testBit i).toNat) 0
/-- The inverse Gray code of a 20-bit word. -/
def ungray20 (a : Nat) : Nat := (List.range 20).foldl (fun x i => x ^^^ (a / 2 ^ i)) 0

/-- The functions of opcode 0x00 (R418). A shift goes by the whole of b; ADC adds C; SBC subtracts the borrow, the inverse of C. -/
def alu (fn : AluFn) (f : NFlags) (a b : Nat) : NResult :=
  match fn with
  | .add => nadd a b 0
  | .adc => nadd a b f.c.toNat
  | .sub => nsub a b 0
  | .sbc => nsub a b (!f.c).toNat
  | .and => nlogic f (a &&& b)
  | .or => nlogic f (a ||| b)
  | .xor => nlogic f (a ^^^ b)
  | .not => nlogic f (w20 - 1 - a % w20)
  | .shl => nshl f a b
  | .shr => nshr f a b
  | .asr => nasr f a b
  | .rol => nrol f a b
  | .mul => nlogic f (a * b % w20)
  | .mulh => nlogic f (a * b / w20 % w20)
  | .min => nlogic f (if signedOf 20 b < signedOf 20 a then b else a)
  | .max => nlogic f (if signedOf 20 a < signedOf 20 b then b else a)
  | .cmp => ncmp a b
  | .tst => (none, setZN (a &&& b) f.c)
  | .mov => nlogic f a
  | .brev10 => nlogic f (brev10 a)
  | .popc => nlogic f (popc20 a)
  | .clz => nlogic f (clz20 a)
  | .gray => nlogic f (a ^^^ (a / 2))
  | .ungray => nlogic f (ungray20 a)
  | .parity => nlogic f (popc20 a % 2)

/-- sext(): a 10-bit value extended by its bit 9 to 20 bits (R417). -/
def sext10 (i : Nat) : Nat := codeOf 20 (signedOf 10 i)

/-- The immediate instructions (R417). -/
def immOp (op : ImmOp) (f : NFlags) (a i : Nat) : NResult :=
  match op with
  | .addi => nadd a (sext10 i) 0
  | .subi => nsub a (sext10 i) 0
  | .andi => nlogic f (a &&& i)
  | .ori => nlogic f (a ||| i)
  | .xori => nlogic f (a ^^^ i)
  | .cmpi => ncmp a (sext10 i)
  | .shli => nshl f a (i % 32)
  | .shri => nshr f a (i % 32)
  | .asri => nasr f a (i % 32)
  | .movi => nlogic f i
  | .lui => nlogic f (i * 1024 % w20)
  | .tsti => (none, setZN (a &&& i) f.c)

/-- Whether a condition holds (R419). -/
def Cond.holds (c : Cond) (f : NFlags) : Bool :=
  match c with
  | .always => true
  | .zero => f.z
  | .nonzero => !f.z
  | .carry => f.c
  | .nocarry => !f.c
  | .neg => f.n
  | .nonneg => !f.n
  | .higher => f.c && !f.z
  | .nothigher => !f.c || f.z
  | .greater => !f.n && !f.z
  | .notgreater => f.n || f.z

end Sys2Proof.Machine
end

