-- ==== Sys2Proof/Machine/Service.lean ====
section
/-! DEFINITION. The bus matrix, the baskets and rings, and the CHK units (R429, R441 to R464). -/

namespace Sys2Proof.Machine

/-! ### The bus matrix (R441 to R445) -/

/-- The priority of master `m` at target `t` (R446). -/
def Dev.mtxPrio (d : Dev) (m t : Nat) : Nat :=
  d.rd (match t with
    | 0 => MTX.PRIO_T0 | 1 => MTX.PRIO_T1 | 2 => MTX.PRIO_T2 | 3 => MTX.PRIO_T3 | 4 => MTX.PRIO_T4 | 5 => MTX.PRIO_T5
    | 6 => MTX.PRIO_T6 | 7 => MTX.PRIO_T7 | _ => MTX.PRIO_T8) 0 m

def Dev.modMtx (d : Dev) (f : MtxSt → MtxSt) : Dev := { d with service := { d.service with mtx := f d.service.mtx } }

/-- OUTSTANDING and OUT_M (R446): the dropped transactions of a reset master keep their places of the 1,024 only (R445). -/
def Dev.mtxCount (d : Dev) : Dev :=
  let out := d.service.mtx.out
  (List.range 18).foldl
    (fun d m => d.wr MTX.OUT_M 0 m (out.filter (fun x => x.master == m && !x.dropped)).length)
    (d.wr MTX.OUTSTANDING 0 0 out.length)

/-- Whether the limits of R443 leave a request at its master port. -/
def MtxSt.limited (x : MtxSt) (r : MtxReq) : Bool :=
  decide (64 ≤ (x.out.filter (fun o => o.master == r.master && !o.dropped)).length) || decide (1024 ≤ x.out.length)

/-- Whether an earlier request of the same master and ordering ID to another target holds a request back (R444). `before` are
the requests that wait and were made earlier. -/
def MtxSt.orderHeld (x : MtxSt) (before : List MtxReq) (r : MtxReq) : Bool :=
  x.out.any (fun o => o.master == r.master && o.id == r.id && o.target != r.target && !o.dropped) ||
  before.any (fun o => o.master == r.master && o.id == r.id && o.target != r.target)

/-- Whether an earlier request of the same master, ordering ID and target still waits: the target keeps those in order. -/
def sameHeld (before : List MtxReq) (r : MtxReq) : Bool :=
  before.any (fun o => o.master == r.master && o.id == r.id && o.target == r.target)

/-- Whether the target's reserve holds a request back (R444). -/
def MtxSt.reserveHeld (x : MtxSt) (r : MtxReq) : Bool :=
  decide (Config.targetEntries r.target ≤ (x.out.filter (fun o => o.target == r.target)).length) &&
  x.out.any (fun o => o.master == r.master && o.target == r.target && !o.dropped)

/-- The waiting requests with the holds of R444 counted, once each; the requests that may be granted now. -/
def Dev.mtxHolds : List MtxReq → List MtxReq → Dev → Dev × List MtxReq × List MtxReq
  | _, [], d => (d, [], [])
  | before, r :: rest, d =>
    let x := d.service.mtx
    let lim := x.limited r
    let o := !lim && x.orderHeld before r
    let v := !lim && x.reserveHeld r
    let d1 := if o && !r.order then d.inc MTX.HOLD_ORDER else d
    let d2 := if v && !r.reserve then d1.inc MTX.HOLD_RESERVE else d1
    let r' := { r with order := r.order || o, reserve := r.reserve || v }
    let (d3, w, ok) := Dev.mtxHolds (before ++ [r]) rest d2
    (d3, r' :: w, if lim || o || v || sameHeld before r then ok else r' :: ok)

/-- The first master after the last winner, in round robin. -/
def roundRobin (last : Nat) (ms : List Nat) : Option Nat :=
  (List.range 18).findSome? (fun k => let m := (last + k) % 18; if ms.contains m then some m else none)

/-- The winner among the requests for a target (R442): aged requests first, in round robin by master number; else the highest
priority, in round robin after its last winner. -/
def Dev.mtxWinner (d : Dev) (t : Nat) (ok : List MtxReq) : Option (MtxReq × Nat) :=
  let rs := ok.filter (fun r => r.target == t)
  let aged := rs.filter (fun r => d.passed r.since (d.rd MTX.AGE_LIMIT))
  let best := (rs.map (fun r => d.mtxPrio r.master t)).foldl max 0
  let (set, key) := if aged.isEmpty then (rs.filter (fun r => d.mtxPrio r.master t == best), 17 * t + best) else (aged, 17 * t + 16)
  match roundRobin (FMap.get 0 d.service.mtx.last key) (set.map (fun r => r.master)) with
  | some m => (set.find? (fun r => r.master == m)).map (fun r => (r, key))
  | none => none

/-- A request granted: it holds the path from its master to the target until its last beat (R443, log entry 25). -/
def Dev.mtxGrant (d : Dev) (r : MtxReq) (key : Nat) : Dev :=
  d.modMtx (fun x =>
    { waiting := x.waiting.erase r
      out := x.out ++ [⟨r.master, r.target, r.id, d.timebase + Config.burstTicks r.beats, false⟩]
      last := FMap.set 0 x.last key (r.master + 1) })

/-- Arbitration at one target whose path is free, at most `fuel` grants. -/
def Dev.mtxServe (d : Dev) (t : Nat) : Dev :=
  if d.service.mtx.out.any (fun o => o.target == t && decide (d.timebase < o.ends)) then d
  else
    let (d1, w, ok) := Dev.mtxHolds [] d.service.mtx.waiting d
    let d2 := d1.modMtx (fun x => { x with waiting := w })
    match d2.mtxWinner t ok with
    | some (r, key) => d2.mtxGrant r key
    | none => d2

/-- Each target arbitrates separately (R442). -/
def Dev.mtxArbitrate (d : Dev) : Dev := ((List.range 9).foldl Dev.mtxServe d).mtxCount

/-- MATRIX_ABORT (R445): counted, recorded and raised. -/
def Dev.matrixAbortAt (d : Dev) (m t : Nat) : Dev :=
  let d1 := d.inc MTX.ABORTS
  let d2 := if d1.on MTX.AB_VALID then d1 else ((d1.wr MTX.AB_VALID 0 0 1).wr MTX.AB_MASTER 0 0 m).wr MTX.AB_TARGET 0 0 t
  (d2.raise .mtx 0 0).fault srcMtx (m * 256 + t)

/-- The reset of the block behind a master (R445): its bursts end at once, its responses and waiting requests are dropped. -/
def Dev.matrixAbort (d : Dev) (m : Nat) : Dev :=
  let held := d.service.mtx.out.filter (fun o => o.master == m && !o.dropped && decide (d.timebase < o.ends))
  let d1 := d.modMtx (fun x => { x with
    waiting := x.waiting.filter (fun r => r.master != m)
    out := x.out.map (fun (o : MtxOut) => if o.master = m then { o with dropped := true, ends := min o.ends d.timebase } else o) })
  let d2 := match held with
    | [] => d1.matrixAbortAt m 15
    | _ => held.foldl (fun (e : Dev) (o : MtxOut) => e.matrixAbortAt m o.target) d1
  d2.mtxArbitrate

/-- MATRIX_REQUEST (R442 to R444): a burst of 1 to 64 beats is made by a master. -/
def execMatrixRequest (master : Fin 18) (target : Fin 9) (id : Fin 16) (beats : Fin 64) (s : State) :
    Host.Outcome State Fault Refusal :=
  stay s (fun d => (d.modMtx (fun x => { x with
    waiting := x.waiting ++ [⟨master, target, id, beats.val + 1, d.timebase, false, false⟩] })).mtxArbitrate)

/-- MATRIX_RESPONSE (R443): the oldest transaction of a master at a target with an ordering ID, its burst over, completes. -/
def execMatrixResponse (master : Fin 18) (target : Fin 9) (id : Fin 16) (s : State) : Host.Outcome State Fault Refusal :=
  stay s (fun d =>
    match d.service.mtx.out.find?
      (fun (o : MtxOut) => decide (o.master = master.val ∧ o.target = target.val ∧ o.id = id.val ∧ o.ends ≤ d.timebase)) with
    | some o => (d.modMtx (fun x => { x with out := x.out.erase o })).mtxArbitrate
    | none => d)

/-! ### DCC transport (R229, R429) -/

/-- The messages queued for a station of a port, without those of this period's doorbells. -/
def TxSt.queued (x : TxSt) (s : Nat) : List DccMsg := ((x.queue.find? (fun e => e.1 == s)).map Prod.snd).getD []

/-- Whether the queue of a station of a port is full: 4 messages, the doorbells of the period counted (R429). -/
def Dev.dccFull (d : Dev) (n s : Nat) : Bool :=
  let x := d.port n
  decide (4 ≤ (x.tx.queued s).length + (x.bells.filter (fun b => b.1 == s)).length)

/-- A message joined to the queue of its station. -/
def TxSt.enqueue (x : TxSt) (s : Nat) (m : DccMsg) : TxSt :=
  { x with queue := (x.queue.filter (fun e => e.1 != s)) ++ [(s, x.queued s ++ [m])] }

def Dev.dccQueue (d : Dev) (n s : Nat) (m : DccMsg) : Dev := d.modPort n (fun (x : PortSt) => { x with tx := x.tx.enqueue s m })

/-- The station byte of a downstream message: 0 on a point-to-point port (R227). -/
def Dev.dccStn (d : Dev) (n s : Nat) : Nat := if d.shared n then s else 0

/-- A pushed DCC_TX item: queued for its station, or dropped and counted (R450). A port in service counts as UP (log entry
27). -/
def Dev.dccTxItem (d : Dev) (ws : List Nat) : Dev :=
  let type := ws.headD 0 / 2 ^ 20 % 256
  let n := ws.getD 1 0 % 512
  let s := d.dccStn n (ws.getD 1 0 / 2 ^ 16 % 16)
  let bytes := (ws.drop 2).flatMap (leBytes 4)
  if type < 128 || !d.inService n || (d.shared n && !d.stnActive n s) || d.dccFull n s then
    (d.inc HOSTQ.DCC_TX_DROP).raise .hostq 0 2
  else d.dccQueue n s ⟨[type, s * 16, bytes.headD 0] ++ (bytes.drop 1).take (bytes.headD 0), false⟩

/-! ### Baskets (R447 to R450, R455) -/

def Dev.basket (d : Dev) (i : Nat) : Basket := FMap.get Basket.empty d.host.baskets i

/-- A basket set, and its CREDIT, the free slots. -/
def Dev.setBasket (d : Dev) (i : Nat) (b : Basket) : Dev :=
  ({ d with host := { d.host with baskets := FMap.set Basket.empty d.host.baskets i b } }).wr HOSTQ.IN_CREDIT 0 i
    (basketSlots i - b.items.length)

/-- A mailbox item from the host (R430, R450): its hook, or dropped where its check value fails. -/
def Dev.mbxItem (d : Dev) (c : Nat) (ws : List Nat) : Dev :=
  let h := ws.headD 0
  let type := h / 2 ^ 20 % 256
  let e := type % 8
  let bad := type.testBit 7 && decide (2 ≤ ws.length) && crc32Words ws.dropLast != ws.getLastD 0
  let d0 := d.setBasket (2 + c) { d.basket (2 + c) with items := (d.basket (2 + c)).items.erase ws }
  if bad then (d0.inc HOSTQ.MBX_CHK_ERR).raise .hostq 0 5
  else
    let q := (d.engine (8 * c + e)).queue.length
    let d1 := d.hook (8 * c + e) ⟨4, none, e, type, h / 2 ^ 28 * 4096 + h % 4096, ws, []⟩
    if (d1.engine (8 * c + e)).queue.length = q then
      d1.setBasket (2 + c) { d1.basket (2 + c) with items := (d1.basket (2 + c)).items.erase ws }
    else d1

/-- An item pushed into an inbound basket. CMD items wait to be taken; DCC_TX items go to DCC transport at once; MBX_IN items
raise their hook. -/
def Dev.pushItem (d : Dev) (i : Nat) (ws : List Nat) : Dev :=
  let b := d.basket i
  let d1 := d.setBasket i { b with open? := none, slot := (b.slot + 1) % 256, items := if i = 1 then b.items else b.items ++ [ws] }
  if i = 0 then d1 else if i = 1 then d1.dccTxItem ws else d1.mbxItem (i - 2) ws

/-- The words an item has by its header (R448). -/
def itemLen (h : Nat) : Nat := h / 2 ^ 28 + 1

/-- An item opened, or pushed where its header is its only word. An item still open ends unpushed (R450). -/
def Dev.openItem (d : Dev) (i h : Nat) : Dev :=
  let d1 := if (d.basket i).open?.isSome then (d.inc HOSTQ.IN_ITEM_ABORT 0 i).raise .hostq 0 3 else d
  if itemLen h = 1 then d1.pushItem i [h] else d1.setBasket i { d1.basket i with open? := some [h] }

/-- A word added to the open item, which is pushed with its last word. -/
def Dev.addWord (d : Dev) (i v : Nat) (ws : List Nat) : Dev :=
  let ws' := ws ++ [v]
  if ws'.length = itemLen (ws.headD 0) then d.pushItem i ws' else d.setBasket i { d.basket i with open? := some ws' }

/-- A word discarded (R450, R455). -/
def Dev.flushDiscard (d : Dev) (i : Nat) : Dev := (d.inc HOSTQ.IN_FLUSH_DISCARD 0 i).raise .hostq 0 4

/-- A write to the CMD slot window (R450). -/
def Dev.slotWrite (d : Dev) (word v : Nat) : Dev :=
  let b := d.basket 0
  if word = 16 * b.slot then d.openItem 0 v
  else
    match b.open? with
    | none => d.flushDiscard 0
    | some ws =>
      if word = 16 * b.slot + ws.length then d.addWord 0 v ws
      else (((d.setBasket 0 { b with open? := none }).inc HOSTQ.IN_ITEM_ABORT 0 0).raise .hostq 0 3).flushDiscard 0

/-- A write to PUSH_DATA (R450); ignored for CMD. -/
def Dev.pushData (d : Dev) (i v : Nat) : Dev :=
  if i = 0 then d
  else
    match (d.basket i).open? with
    | none => d.flushDiscard i
    | some ws => d.addWord i v ws

/-- A write to PUSH_HEAD (R450); ignored for CMD. -/
def Dev.pushHead (d : Dev) (i h : Nat) : Dev := if i = 0 then d else d.openItem i h

/-- The words of an inbound basket's item after a word is added; complete items need a credit (R449). -/
def Dev.creditMisuse (d : Dev) (i : Nat) (completes : Bool) : Option Misuse :=
  if completes && decide (basketSlots i ≤ (d.basket i).items.length) then some .basketCredit else none

/-- Whether a word of the slot window completes an item. -/
def Dev.slotCompletes (d : Dev) (word v : Nat) : Bool :=
  let b := d.basket 0
  if word = 16 * b.slot then itemLen v == 1
  else match b.open? with
    | some ws => word == 16 * b.slot + ws.length && ws.length + 1 == itemLen (ws.headD 0)
    | none => false

/-- Whether a word of PUSH_DATA completes an item. -/
def Dev.dataCompletes (d : Dev) (i : Nat) : Bool :=
  match (d.basket i).open? with
  | some ws => ws.length + 1 == itemLen (ws.headD 0)
  | none => false

/-- The next GEN of an inbound basket or ring. -/
def nextGen (g : Nat) : Nat := (g + 1) % 256

/-- An inbound basket flushed (R455): held items and the open item go, with the mailbox hooks of items not taken. -/
def Dev.flushBasket (d : Dev) (i : Nat) : Dev :=
  let d1 := (d.setBasket i Basket.empty).wr HOSTQ.IN_GEN 0 i (nextGen (d.rd HOSTQ.IN_GEN 0 i))
  if i < 2 then d1
  else
    (List.range 8).foldl
      (fun d k => d.modEngine (8 * (i - 2) + k) (fun (x : EngineSt) => { x with queue := x.queue.filter (fun ev => ev.k != 4) })) d1

/-! ### Rings (R451 to R455) -/

/-- The item sequence number of a ring returns to 0 (R448). -/
def Dev.seqReset (d : Dev) (r : Nat) : Dev :=
  if r = 1 then { d with host := { d.host with evtSeq := 0 } }
  else if r = 2 then { d with host := { d.host with dccSeq := 0 } }
  else d

/-- PI, CI and the item sequence number at 0, a new GEN (R453, R455). -/
def Dev.ringReset (d : Dev) (r : Nat) : Dev :=
  (((d.wr HOSTQ.RING_PI 0 r 0).wr HOSTQ.RING_CI 0 r 0).wr HOSTQ.RING_GEN 0 r (nextGen (d.rd HOSTQ.RING_GEN 0 r))).seqReset r

/-- Completions that wait are written as the CPL ring gives credits (R452). -/
def Dev.drainCpl (d : Dev) (r : Nat) : Dev := if r = 0 then (Dev.cplDrain d.host.cplWait d).countInflight else d

/-- A ring's control word written: SIZE_LOG2 while ENABLE is 0, ENABLE, FLUSH (R453, R455, R456). Setting ENABLE resets the
counts. -/
def Dev.ringCtrl (d : Dev) (r v : Nat) : Dev :=
  let was := d.on HOSTQ.RING_ENABLE 0 r
  let d1 := d.writeFields (0x6000 + 0x208 + 32 * r) .hostq 0 (0x208 + 32 * r) v
  let d2 := if !was && d1.on HOSTQ.RING_ENABLE 0 r then d1.ringReset r else d1
  let d3 := if v.testBit 31 then d2.ringReset r else d2
  d3.drainCpl r

/-- A ring's CI word written: a value that would pass PI is ignored (R451). -/
def Dev.ringCi (d : Dev) (r v : Nat) : Dev :=
  let ci := v / 65536 % 65536
  let old := d.rd HOSTQ.RING_CI 0 r
  if (ci + 65536 - old) % 65536 ≤ (d.rd HOSTQ.RING_PI 0 r + 65536 - old) % 65536 then (d.wr HOSTQ.RING_CI 0 r ci).drainCpl r else d

/-! ### Meanings: baskets and rings -/

/-- CMD_SLOT_WRITE (R450). -/
def execCmdSlotWrite (word : Fin 4096) (value : Word) (s : State) : Host.Outcome State Fault Refusal :=
  if s.dev.writable .hostq then
    unlessMisuse (s.dev.creditMisuse 0 (s.dev.slotCompletes word value.toNat)) (stay s (fun d => d.slotWrite word value.toNat))
  else stay s id

/-- The misuse of an item's header word: a reserved bit written 1 (R11, R448). -/
def headMisuse (w : Nat) : Option Misuse := if w / 2 ^ 12 % 256 = 0 then none else some .reservedWrite

/-- PUSH_HEAD_WRITE (R450). -/
def execPushHeadWrite (basket : Fin 14) (value : Word) (s : State) : Host.Outcome State Fault Refusal :=
  if s.dev.writable .hostq && basket.val != 0 then
    unlessMisuse (headMisuse value.toNat)
      (unlessMisuse (s.dev.creditMisuse basket (itemLen value.toNat == 1)) (stay s (fun d => d.pushHead basket value.toNat)))
  else stay s id

/-- PUSH_DATA_WRITE (R450). -/
def execPushDataWrite (basket : Fin 14) (value : Word) (s : State) : Host.Outcome State Fault Refusal :=
  if s.dev.writable .hostq && basket.val != 0 then
    unlessMisuse (s.dev.creditMisuse basket (s.dev.dataCompletes basket)) (stay s (fun d => d.pushData basket value.toNat))
  else stay s id

/-- BASKET_FLUSH_WRITE (R455): the control word of an inbound basket with FLUSH, or of a ring: baskets 0 to 13 are inbound,
14 + r is ring r. -/
def execBasketFlushWrite (basket : Fin 29) (value : Word) (s : State) : Host.Outcome State Fault Refusal :=
  let v := value.toNat
  let off := if basket.val < 14 then 0x100 + 16 * basket.val else 0x208 + 32 * (basket.val - 14)
  unlessMisuse (s.dev.wordMisuse .hostq 0 off v)
    (stay s (whenDev (fun d => d.writable .hostq)
      (fun d => if basket.val < 14 then (if v.testBit 31 then d.flushBasket basket else d) else d.ringCtrl (basket.val - 14) v)))

/-- RING_CI_WRITE (R451). -/
def execRingCiWrite (ring : Fin 15) (value : Word) (s : State) : Host.Outcome State Fault Refusal :=
  stay s (whenDev (fun d => d.writable .hostq) (fun d => d.ringCi ring value.toNat))

/-- RING_ENABLE_WRITE (R453). -/
def execRingEnableWrite (ring : Fin 15) (value : Word) (s : State) : Host.Outcome State Fault Refusal :=
  unlessMisuse (s.dev.wordMisuse .hostq 0 (0x208 + 32 * ring.val) value.toNat)
    (stay s (whenDev (fun d => d.writable .hostq) (fun d => d.ringCtrl ring value.toNat)))

/-! ### CHK units (R457 to R462) -/

def Dev.chkUnit (d : Dev) (u : Nat) : ChkUnit := FMap.get ChkUnit.reset d.service.chk u

def Dev.setChk (d : Dev) (u : Nat) (x : ChkUnit) : Dev :=
  { d with service := { d.service with chk := FMap.set ChkUnit.reset d.service.chk u x } }

/-- A pair of 32-bit words as one value. -/
def Dev.pair64 (d : Dev) (lo hi : Field) (u : Nat) : Nat := d.rd lo 0 u + 2 ^ 32 * d.rd hi 0 u

def Dev.setPair (d : Dev) (lo hi : Field) (u v : Nat) : Dev := (d.wr lo 0 u v).wr hi 0 u (v / 2 ^ 32)

/-- The pair fields of R459. -/
def chkPair (p : Nat) : Field × Field :=
  match p with
  | 0 => (CHK.U_POLY_LO, CHK.U_POLY_HI) | 1 => (CHK.U_INIT_LO, CHK.U_INIT_HI) | 2 => (CHK.U_XOROUT_LO, CHK.U_XOROUT_HI)
  | 3 => (CHK.U_RUNNING_LO, CHK.U_RUNNING_HI) | _ => (CHK.U_CHECK_LO, CHK.U_CHECK_HI)

/-- STATUS brought up to date (R460): BUSY while the queue holds entries, VALID when RESULT covers every entry received, MATCH
when VALID and RESULT equals CHECK modulo 2^WIDTH. -/
def Dev.chkStatus (d : Dev) (u : Nat) : Dev :=
  let x := d.chkUnit u
  let busy := !x.queue.isEmpty
  let w := d.rd CHK.U_WIDTH 0 u
  let res := d.rd CHK.U_RESULT_LO 0 u + 2 ^ 32 * x.hi
  let eq := res % 2 ^ w == d.pair64 CHK.U_CHECK_LO CHK.U_CHECK_HI u % 2 ^ w
  ((d.flag CHK.U_BUSY 0 u busy).flag CHK.U_VALID 0 u !busy).flag CHK.U_MATCH 0 u (!busy && eq)

/-- An entry received (R458); a write that the matrix holds stands behind the 4 (log entry 140). -/
def Dev.chkPut (d : Dev) (u : Nat) (e : ChkEntry) : Dev :=
  (d.setChk u { d.chkUnit u with queue := (d.chkUnit u).queue ++ [e] }).chkStatus u

/-- RESULT recomputed (R457, R460). -/
def Dev.chkResult (d : Dev) (u : Nat) : Dev :=
  let w := d.rd CHK.U_WIDTH 0 u
  let r := d.pair64 CHK.U_RUNNING_LO CHK.U_RUNNING_HI u % 2 ^ w
  let x := d.pair64 CHK.U_XOROUT_LO CHK.U_XOROUT_HI u % 2 ^ w
  let v := (if d.on CHK.U_REFOUT 0 u then bitRev w r else r) ^^^ x
  ((d.wr CHK.U_RESULT_LO 0 u v).setChk u { d.chkUnit u with hi := v / 2 ^ 32 }).wr CHK.U_RESULT_SEQ 0 u
    ((d.rd CHK.U_RESULT_SEQ 0 u + 1) % 256)

/-- The input bits of a DATA write, in order (R458). -/
def chkBits (bits be : Nat) (refin : Bool) (v : Nat) : List Bool :=
  if bits = 0 then
    let byte := fun (k : Nat) =>
      if be.testBit k then
        (if refin then (List.range 8).map (fun i => v.testBit (8 * k + i)) else (List.range 8).map (fun i => v.testBit (8 * k + 7 - i)))
      else []
    (if refin then [0, 1, 2, 3] else [3, 2, 1, 0]).flatMap byte
  else if refin then (List.range bits).map v.testBit
  else (List.range bits).map (fun i => v.testBit (bits - 1 - i))

/-- One entry processed (R458 to R460). -/
def Dev.chkEntry (d : Dev) (u : Nat) : ChkEntry → Dev
  | .cfg start refout refin bits be width =>
    let d1 := ((((d.flag CHK.U_REFOUT 0 u refout).flag CHK.U_REFIN 0 u refin).wr CHK.U_BITS 0 u bits).wr CHK.U_BE 0 u be).wr
      CHK.U_WIDTH 0 u width
    if start then
      (d1.setPair CHK.U_RUNNING_LO CHK.U_RUNNING_HI u (d1.pair64 CHK.U_INIT_LO CHK.U_INIT_HI u % 2 ^ width)).chkResult u
    else d1
  | .data v =>
    let w := d.rd CHK.U_WIDTH 0 u
    let r := crcRun w (d.pair64 CHK.U_POLY_LO CHK.U_POLY_HI u % 2 ^ w)
      (chkBits (d.rd CHK.U_BITS 0 u) (d.rd CHK.U_BE 0 u) (d.on CHK.U_REFIN 0 u) v)
      (d.pair64 CHK.U_RUNNING_LO CHK.U_RUNNING_HI u % 2 ^ w)
    (d.setPair CHK.U_RUNNING_LO CHK.U_RUNNING_HI u r).chkResult u
  | .pair p lo hi =>
    let d1 := (d.wr (chkPair p).1 0 u lo).wr (chkPair p).2 0 u hi
    if p = 3 then d1.chkResult u else d1

/-- A write to CFG (R458); a value out of range is handled at the write (R52). -/
def Dev.chkCfg (d : Dev) (u v : Nat) : Dev :=
  let bits := d.ranged CHK.U_BITS 0 u (v / 2 ^ 24 % 64)
  let width := d.ranged CHK.U_WIDTH 0 u (v % 128)
  let d1 := if bits.2 || width.2 then d.busErr DEV.RANGE (0x7000 + 0x118 + 0x80 * u) else d
  d1.chkPut u (.cfg (v.testBit 31) (v.testBit 9) (v.testBit 8) bits.1 (v / 2 ^ 16 % 16) width.1)

/-- A LO word staged, and a HI word that commits both halves (R459). -/
def Dev.chkLo (d : Dev) (u p v : Nat) : Dev := d.setChk u { d.chkUnit u with staged := FMap.set 0 (d.chkUnit u).staged p v }
def Dev.chkHi (d : Dev) (u p v : Nat) : Dev := d.chkPut u (.pair p (FMap.get 0 (d.chkUnit u).staged p) v)

/-- STATUS as one word (R464). -/
def Dev.chkStatusWord (d : Dev) (u : Nat) : Nat :=
  d.rd CHK.U_BUSY 0 u * 2 ^ 31 + d.rd CHK.U_VALID 0 u * 2 ^ 30 + d.rd CHK.U_MATCH 0 u * 2 ^ 29 + d.rd CHK.U_RESULT_SEQ 0 u

/-- A read of RESULT_LO latches RESULT_HI and copies STATUS into LSTATUS (R460). -/
def Dev.chkLatch (d : Dev) (u : Nat) : Dev := (d.wr CHK.U_RESULT_HI 0 u (d.chkUnit u).hi).wr CHK.U_LSTATUS 0 u (d.chkStatusWord u)

/-- A unit event: bit 0 ALIVE_GAP, bit 1 ALIVE_REPEAT of the unit (R464). -/
def Dev.chkEvent (d : Dev) (u b : Nat) : Dev :=
  Dev.leavesRise d [1168 + u] (d.wr CHK.UNIT_EVT_STATUS 0 0 (orBit (d.rd CHK.UNIT_EVT_STATUS) (2 * u + b)))

/-- A check of a counter value (R462). -/
def Dev.chkAlive (d : Dev) (u v : Nat) : Dev :=
  let put := fun (d : Dev) => (d.wr CHK.U_EXPECTED 0 u ((v + 1) % 16)).wr CHK.U_LAST 0 u v
  let show' := fun (d : Dev) (g r : Bool) => (d.flag CHK.U_GAP 0 u g).flag CHK.U_REPEAT 0 u r
  if d.on CHK.U_FIRST 0 u then show' ((put d).wr CHK.U_FIRST 0 u 0) false false
  else if v = d.rd CHK.U_LAST 0 u then (show' d false true).chkEvent u 1
  else if v = d.rd CHK.U_EXPECTED 0 u then show' (put d) false false
  else (show' (put d) true false).chkEvent u 0

/-- The master whose computation RUNNING holds, after a write by master `m`: START and a write of RUNNING make it that master's, and so does
the first DATA (R461). -/
def Dev.chkUse (d : Dev) (u m o v : Nat) : Dev :=
  let x := d.chkUnit u
  if (o = 0x18 ∧ v.testBit 31) ∨ o = 0x24 ∨ (o = 0x1C ∧ x.user.isNone) then d.setChk u { x with user := some m } else d

/-- DATA onto another master's RUNNING, which this one has neither started nor restored, is misuse (R77, R461). -/
def Dev.chkMisuse (d : Dev) (u m o : Nat) : Option Misuse :=
  if o = 0x1C ∧ (d.chkUnit u).user.isSome ∧ (d.chkUnit u).user ≠ some m then some .chkShare else none

/-- A write of a word of a unit's block, by its offset in the block (R458, R459, R462, R464). -/
def Dev.chkWrite (d : Dev) (u o v : Nat) : Dev :=
  match o with
  | 0x00 => d.chkLo u 0 v
  | 0x04 => d.chkHi u 0 v
  | 0x08 => d.chkLo u 1 v
  | 0x0C => d.chkHi u 1 v
  | 0x10 => d.chkLo u 2 v
  | 0x14 => d.chkHi u 2 v
  | 0x18 => d.chkCfg u v
  | 0x1C => d.chkPut u (.data v)
  | 0x20 => d.chkLo u 3 v
  | 0x24 => d.chkHi u 3 v
  | 0x38 => d.chkLo u 4 v
  | 0x3C => d.chkHi u 4 v
  | 0x44 => d.chkAlive u (v % 16)
  | _ => d.writeFields (0x7100 + 0x80 * u + o) .chk 0 (0x100 + 0x80 * u + o) v

/-- CHK_CFG_WRITE (R458). -/
def execChkCfgWrite (unit : Fin 16) (value : Word) (s : State) : Host.Outcome State Fault Refusal :=
  unlessMisuse (s.dev.wordMisuse .chk 0 (0x118 + 0x80 * unit.val) value.toNat)
    (stay s (whenDev (fun d => d.writable .chk) (fun d => (d.chkUse unit 0 0x18 value.toNat).chkCfg unit value.toNat)))

/-- CHK_DATA_WRITE (R458, R461). -/
def execChkDataWrite (unit : Fin 16) (value : Word) (s : State) : Host.Outcome State Fault Refusal :=
  unlessMisuse (if s.dev.writable .chk then s.dev.chkMisuse unit 0 0x1C else none)
    (stay s (whenDev (fun d => d.writable .chk) (fun d => (d.chkUse unit 0 0x1C 0).chkPut unit (.data value.toNat))))

/-- CHK_HI_WRITE (R459): pair 0 POLY, 1 INIT, 2 XOROUT, 3 RUNNING, 4 CHECK. -/
def execChkHiWrite (unit : Fin 16) (pair : Fin 5) (value : Word) (s : State) : Host.Outcome State Fault Refusal :=
  stay s (whenDev (fun d => d.writable .chk)
    (fun d => (if pair.val = 3 then d.chkUse unit 0 0x24 0 else d).chkHi unit pair value.toNat))

/-- CHK_ENTRY_DONE (R460): the oldest entry is processed. -/
def execChkEntryDone (unit : Fin 16) (s : State) : Host.Outcome State Fault Refusal :=
  stay s (fun d =>
    match (d.chkUnit unit).queue with
    | [] => d
    | e :: r => ((d.setChk unit { d.chkUnit unit with queue := r }).chkEntry unit e).chkStatus unit)

/-- CHK_RESULT_LO_READ (R460): the read latches, and answers RESULT_LO. -/
def execChkResultLoRead (unit : Fin 16) (s : State) : Host.Outcome State Fault Refusal :=
  stay s (whenDev (fun d => !d.host.resetLow) (fun d =>
    (d.chkLatch unit).emit (.readData ((List.range 4).map (fun i => d.rd CHK.U_RESULT_LO 0 unit / 2 ^ (8 * i) % 256)))))

/-- CHK_ALIVE_SEEN_WRITE (R462). -/
def execChkAliveSeenWrite (unit : Fin 16) (value : Word) (s : State) : Host.Outcome State Fault Refusal :=
  unlessMisuse (s.dev.wordMisuse .chk 0 (0x144 + 0x80 * unit.val) value.toNat)
    (stay s (whenDev (fun d => d.writable .chk) (fun d => d.chkAlive unit (value.toNat % 16))))

end Sys2Proof.Machine
end

