-- ==== Sys2Proof/Machine/Signal.lean ====
section
/-! DEFINITION. The signal path of a port over its state: RINSE's samples into SPIN's or WRING's buffer, the symbols that SPIN and WRING take
from it, the samples that the transmitter sends, and what is saved at multiframe boundaries (R30, R84, R85, R91, R119 to R123, R131, R172 to
R178, R200). -/

namespace Sys2Proof.Machine

/-! ### The time axis of a port (log entry 117) -/

/-- Chips or PAM symbols in 160 ticks: the chip rate or the baud rate in 1.024 MHz (R109, R169). -/
def Dev.axis (d : Dev) (n : Nat) : Nat := if d.isPam n then 2 ^ d.rd PORT.PAM_BAUD n else d.portUnits n

/-- A TIMEBASE instant, in 1/65,536 tick, as a place in 1/64 chip or symbol. -/
def Dev.placeOf (d : Dev) (n : Nat) (t : Int) : Int := Int.fdiv (t * 2 * d.axis n) (5 * 65536)
def Dev.placeAt (d : Dev) (n t : Nat) : Int := d.placeOf n ((t : Int) * 65536)

/-- The TIMEBASE value of a place, rounded up. -/
def Dev.ticksOf (d : Dev) (n : Nat) (p : Int) : Nat := (-Int.fdiv (-(p * 5)) (2 * max 1 (d.axis n))).toNat

/-- The port-frame that the line frame from TIMEBASE `t` on makes: the first whose last sample lies at its end (log entry 117). -/
def Dev.frameFrom (d : Dev) (n t : Nat) : Nat :=
  match (d.lane n 0).find? (fun f => f.stage == 0 && decide (t + frameTicks / 2 ≤ f.stamp)) with
  | some f => f.num
  | none => (d.port n).rxNext

/-- A clock ratio within ±200 ppm, in 1/65,536 of 1/16 ppm (R122, R176). -/
def clampEps (e : Int) : Int := if e < -(3200 * 65536) then -(3200 * 65536) else min e (3200 * 65536)

/-! ### RINSE into SPIN and WRING (R91, R121, R174) -/

/-- The step of the near-end canceller: 2^−6 while beacons are sent and the far end is silent, 2^−12 otherwise; none while frozen (R121). The far
end counts as silent while no frame in a row was judged high (DEDUCED, log entry 119). -/
def Dev.necShift (d : Dev) (n : Nat) : Option Nat :=
  let x := d.port n
  if d.on PORT.NEC_FREEZE n then none
  else some (if (match x.offer with | some o => o.beacon && o.accepted.isNone | none => false) && x.losHigh == 0 then 32 else 38)

/-- The step of the echo canceller: 2^−8 in TRAIN_EC from 2 ms on, 2^−14 otherwise; none while frozen (R174). -/
def Dev.ecShift (d : Dev) (n : Nat) : Option Nat :=
  if d.on PORT.EC_FREEZE n then none
  else some (if d.rd PORT.ACT_STATE n = 3 ∧ d.passed (d.port n).pam.phaseAt (msTicks 2) then 25 else 31)

/-- Samples at 2 per chip into SPIN's buffer, less the near-end replica, and twice their power: that of the real signal (R121). -/
def Dev.spinFeed (d : Dev) (n : Nat) (p : Int) (zs : List Cx) : Dev × (Nat × Nat) :=
  let x := (d.port n).spin
  let (es, nec) := necRun (d.necShift n) x.tx x.nec p zs
  let pow := (2 * sumOf (es.map Cx.pow), es.length)
  (d.modPort n (fun (y : PortSt) => { y with spin := { x with
    buf := x.buf.put 32 p es, nec := nec, pow := (x.pow.1 + pow.1, x.pow.2 + pow.2) } }), pow)

/-- Samples at 4 × baud into WRING's buffer, less the echo, and their power (R174). -/
def Dev.wringFeed (d : Dev) (n : Nat) (p : Int) (vs : List Int) : Dev × (Nat × Nat) :=
  let x := (d.port n).wring
  let (es, ec) := ecRun (d.ecShift n) (if d.prog = 0 then 128 else 192) x x.eq.ec p vs
  let sq := fun (l : List Int) => sumOf (l.map (fun v => v.natAbs ^ 2))
  (d.modPort n (fun (y : PortSt) => { y with wring := { x with
    buf := x.buf.put 16 p (es.map (fun v => ⟨v, 0⟩))
    eq := { x.eq with ec := ec }
    echo := (x.echo.1 + sq vs, x.echo.2 + sq es) } }), (sq es, es.length))

/-- RINSE's steps 4 and 5 over a port-frame's samples after DC removal, the first of which has number `first` (R91). -/
def Dev.rinseOut (d : Dev) (n first : Nat) (ys : List Int) : Dev × (Nat × Nat) :=
  let x := d.rinse n
  let p0 := d.placeOf n (d.lemcRelease (portLink n))
  if d.isPam n then
    let k := d.linkField (portLink n) JLANE.FS_SEL - d.rd PORT.PAM_BAUD n
    let (zs, m, hs) := decimStages k first x.hist (ys.map (fun v => ⟨v, 0⟩))
    (d.setRinse n { x with hist := hs }).wringFeed n (p0 + 16 * m - 240 * (2 ^ k - 1) / 2 ^ k) (zs.map Cx.re)
  else
    let (zs, m, hs) := decimStages 1 first x.hist (mixDown first ys)
    (d.setRinse n { x with hist := hs }).spinFeed n (p0 + 32 * m - 240) zs

/-! ### Symbols of a chirp port (R119, R122, R123, R198, R199) -/

/-- The start of the frame to demodulate next where samples before a place are not there: whole frames are passed over. -/
def skipTo (start : Int) (at_ : Int) (span : Int) : Int × Nat :=
  if at_ ≤ start then (start, 0)
  else let k := (-Int.fdiv (start - at_) (max 1 span)).toNat; (start + k * span, k)

/-- The fractional offset of the decided peak of each layer (R122). -/
def layerFracs (ls : List LayerRx) : List (Nat × Int) := ls.map (fun y => (y.l, Config.peakFrac (peakThree y.pows)))

/-- The sums of N − 1 times Ps and Pn over a layer's symbol, added per layer (R123). -/
def addSnr (acc : List (Nat × Nat)) (ls : List LayerRx) : List (Nat × Nat) :=
  (List.range (max acc.length ls.length)).map (fun l =>
    let a := acc.getD l (0, 0)
    match ls.find? (fun y => y.l == l) with
    | some y => (a.1 + (y.pows.length * maxOf y.pows - sumOf y.pows), a.2 + (sumOf y.pows - maxOf y.pows))
    | none => a)

/-- SOFT_SCALE as the next frame takes it (R198). -/
def Dev.latchScale (d : Dev) (n : Nat) : Dev := d.modPort n (fun (x : PortSt) => { x with scale := d.rd PORT.SOFT_SCALE n })

/-- A data symbol of a continuous chirp port that ends at or before a place: demodulated layer by layer, its soft bits formed, and the loop of
R122 updated. -/
def Dev.dataSymbol (d : Dev) (n : Nat) (until' : Int) : Dev :=
  let g := d.chirpGeom n
  let x := (d.port n).spin
  match x.next with
  | none => d
  | some p0 =>
    let (p, k) := skipTo p0 (x.buf.at_ * 65536) (spanAt (g.syms * 2 ^ g.sf) x.eps)
    let d0 := if k = 0 then d else d.modPort n (fun (y : PortSt) =>
      { y with symbols := [], symFrame := d.frameFrom n (d.ticksOf n (Int.fdiv p 65536)), spin := { y.spin with next := some p } })
    let e := Int.fdiv p 65536 + 64 * 2 ^ g.sf
    if until' < e || !x.buf.covers 32 e then d0
    else
      let d1 := if (d0.port n).symbols.length % max 1 g.syms = 0 then d0.latchScale n else d0
      let ls := demod g.sf g.depth (x.buf.chips p x.eps (2 ^ g.sf))
      let fr := layerFracs ls
      let soft := (List.range g.depth).flatMap (fun l => match ls.find? (fun y => y.l == l) with
        | some y => chirpSoft g.sf (d1.port n).scale (x.pn.getD l 0) y.pows
        | none => [])
      d1.modPort n (fun (y : PortSt) => { y with
        symbols := y.symbols ++ [soft]
        spin := { y.spin with
          next := some (p + spanAt (2 ^ g.sf) x.eps + Config.chirpPhase fr)
          eps := clampEps (x.eps + Config.chirpFreq fr)
          acc := addSnr y.spin.acc ls
          cnt := y.spin.cnt + 1 } })

/-- The SNR of sums of (N − 1) Ps and (N − 1) Pn: `num` times the first over N times the second (R123). -/
def snrOf (num sf : Nat) (a : Nat × Nat) (free : Nat) : Int := dbQuarter (num * a.1) (2 ^ sf * a.2) free

/-- The SNR estimates of a multiframe shown, and Pn kept for the next one; without a decided symbol the values stay (R123, R199). -/
def Dev.showSnr (d : Dev) (n : Nat) : Dev :=
  let g := d.chirpGeom n
  let x := (d.port n).spin
  let all : Nat × Nat := x.acc.foldl (fun (s a : Nat × Nat) => (s.1 + a.1, s.2 + a.2)) (0, 0)
  let d1 := if x.cnt = 0 then d
    else (x.acc.zipIdx).foldl (fun (d : Dev) (a : (Nat × Nat) × Nat) => d.wr PORT.LAYER_SNR n a.2 (codeOf 8 (limitAbs 127 (snrOf 1 g.sf a.1 (d.free + a.2)))))
      (d.wr PORT.SNR_EST n 0 (codeOf 10 (snrOf g.depth g.sf all d.free)))
  ({ d1 with free := d1.free + 1 + x.acc.length }).modPort n (fun (y : PortSt) => { y with spin := { y.spin with
    pn := if x.cnt = 0 then x.pn else x.acc.map (fun (a : Nat × Nat) => a.2 / ((2 ^ g.sf - 1) * x.cnt))
    acc := []
    cnt := 0 } })

/-! ### Symbols of a PAM port (R175 to R178, R200) -/

/-- What WRING runs on: training in TRAIN_EQ and TRAIN_FULL, decisions from MARKER on (R175; MARKER is DEDUCED, log entry 119). -/
def Dev.wringPar (d : Dev) (n : Nat) : WringPar :=
  let a := d.rd PORT.ACT_STATE n
  let m := d.pamBits n
  { bits := m, train := if a = 4 then 1 else if a = 5 then 2 else 0, shift := if a = 4 ∨ a = 5 then 35 else 39, adapt := decide (4 ≤ a),
    ffeOff := d.on PORT.FFE_FREEZE n, dfeOff := d.on PORT.DFE_FREEZE n, thresh := (List.range (2 ^ m - 1)).map (fun i => d.rdS PORT.THRESH n i) }

/-- The symbol periods that WRING's buffer holds, with the soft bits of each (R200). -/
def WringSt.run (c : WringPar) (scale : Nat) : Nat → WringSt → WringSt × List (List Int)
  | 0, x => (x, [])
  | k + 1, x =>
    match x.eq.next with
    | none => (x, [])
    | some p =>
      if x.buf.covers 16 (Int.fdiv p 65536 + 64) then
        let (y, x1) := x.symbol c p
        let (x2, ss) := WringSt.run c scale k x1
        (x2, pamSoft c.bits scale x.p y :: ss)
      else (x, [])

/-- WRING processes what RINSE has brought. Before TRAIN_EQ only its echo canceller runs. -/
def Dev.wringAdvance (d : Dev) (n : Nat) : Dev :=
  let x := (d.port n).wring
  let syms := (d.pamGeom n).syms
  if d.rd PORT.ACT_STATE n < 4 then
    d.modPort n (fun (y : PortSt) => { y with symbols := [], wring := { x with buf := Stream.empty, eq := { x.eq with next := none } } })
  else
    let (p, k) := match x.eq.next with
      | some p0 => skipTo p0 (x.buf.at_ * 65536) (spanAt syms x.eq.eps)
      | none => (x.buf.at_ * 65536, 0)
    let d0 := if k = 0 then d else d.modPort n (fun (y : PortSt) => { y with symbols := [], symFrame := d.frameFrom n (d.ticksOf n (Int.fdiv p 65536)) })
    let (x1, ss) := WringSt.run (d.wringPar n) (d.port n).scale x.buf.xs.length { x with eq := { x.eq with next := some p } }
    let keep := fun (l : List (List Int)) => if d.rd PORT.ACT_STATE n < 7 then l.drop (l.length - 4096) else l
    (d0.modPort n (fun (y : PortSt) => { y with
      symbols := keep (y.symbols ++ ss)
      wring := { x1 with buf := x1.buf.from_ 16 (Int.fdiv (x1.eq.next.getD 0) 65536 - 256) } })).latchScale n

/-- The mean power of the ideal levels (R178). -/
def idealPower (m : Nat) : Nat := sumOf ((List.range (2 ^ m)).map (fun k => (pamLevel m k).natAbs ^ 2)) / 2 ^ m

/-- WRING's values of a multiframe shown, P and the means per level kept for the next one (R177, R178, R200). -/
def Dev.showPam (d : Dev) (n : Nat) : Dev :=
  let x := (d.port n).wring
  let d1 := if x.err.2 = 0 then d else d.wr PORT.PAM_SNR n 0 (codeOf 10 (dbQuarter (idealPower (d.pamBits n) * x.err.2) x.err.1 d.free))
  let erle := dbQuarter x.echo.1 x.echo.2 d.free
  (({ d1 with free := d1.free + 1 }).wr PORT.EC_ERLE n 0 (min 255 erle.toNat)).modPort n (fun (y : PortSt) => { y with wring := { x with
    p := if x.err.2 = 0 then x.p else max 2 (2 * x.err.1 / x.err.2)
    means := x.thr
    thr := []
    err := (0, 0)
    echo := (0, 0) } })

/-! ### What a multiframe boundary saves, and a lane reset restores (R30, R121, R176) -/

/-- The start of the next line frame: the symbols of the present one that are still to come are passed over. -/
def frameStart (next : Option Int) (eps : Int) (len done syms : Nat) : Option Int :=
  next.map (fun p => p + spanAt (len * ((syms - done % max 1 syms) % max 1 syms)) eps)

/-- The state of a port's canceller, equalizers and timing saved. -/
def Dev.saveSignal (d : Dev) (n : Nat) : Dev :=
  let c := d.chirpGeom n
  d.modPort n (fun (x : PortSt) =>
    let k := x.symbols.length
    if d.isPam n then
      { x with wring := { x.wring with saved := { x.wring.eq with next := frameStart x.wring.eq.next x.wring.eq.eps 1 k (d.pamGeom n).syms } } }
    else
      { x with spin := { x.spin with saved := ⟨x.spin.eps, frameStart x.spin.next x.spin.eps (2 ^ c.sf) k c.syms, x.spin.nec⟩ } })

/-! ### The transmitter (R84, R85, R112, R131, R172) -/

/-- Whether a port's transmitter is muted for another reason than a late frame: an invalid configuration, or calibration of its thresholds
(R85, R94, R117). -/
def Dev.txMuted (d : Dev) (n : Nat) : Bool := d.cfgBad n || FMap.get 0 d.starch.window n != 0

/-- The samples of a line frame sent, as transmit words; those of a converter that is not present are discarded (R85). -/
def Dev.emitSamples (d : Dev) (n : Nat) (mute : Bool) (vs : List Int) : Dev :=
  if d.converter n then d.emit (.line n (vs.map (fun v => txWord true mute (quantise v)))) else d

/-- Complex chips from TIMEBASE `t` on sent: interpolated by 4, mixed up and quantised (R131). A muted frame sends nothing on the line. -/
def Dev.sendChips (d : Dev) (n t : Nat) (mute : Bool) (us : List Cx) : Dev :=
  let x := d.port n
  let us1 := if mute then us.map (fun _ => Cx.zero) else us
  let (s1, h1) := interp2 (x.shape.hist.headD []) us1
  let (s2, h2) := interp2 ((x.shape.hist.drop 1).headD []) s1
  let p := d.placeAt n t
  ((d.modPort n (fun (y : PortSt) => { y with
    spin := { y.spin with tx := (y.spin.tx.put 32 p s1).from_ 32 (p - 32 * 24 * s1.length) }
    shape := { y.shape with hist := [h1, h2], count := y.shape.count + s2.length } })).emitSamples n mute (upMix x.shape.count s2))

/-- PAM symbols from TIMEBASE `t` on sent, as levels of which 65,536 is the outer one: scaled by PAM_TX_AMP, shaped, interpolated to Fs and
quantised (R172). -/
def Dev.sendLevels (d : Dev) (n t : Nat) (mute : Bool) (ls : List Int) : Dev :=
  let x := d.port n
  let ls1 := if mute then ls.map (fun _ => 0) else ls
  let (s4, sh) := srrcRun x.shape.srrc (ls1.map (fun v => v * d.rd PORT.PAM_TX_AMP n))
  let k := d.linkField (portLink n) JLANE.FS_SEL - d.rd PORT.PAM_BAUD n
  let p := d.placeAt n t
  let (out, hs) := interpStages k x.shape.hist (s4.map (fun v => ⟨v, 0⟩))
  (d.modPort n (fun (y : PortSt) => { y with
    wring := { y.wring with tx := (y.wring.tx.put 64 p (ls1.map (fun v => ⟨v, 0⟩))).from_ 64 (p - 64 * 24 * ls1.length) }
    shape := { y.shape with hist := hs, srrc := sh, count := y.shape.count + out.length } })).emitSamples n mute (out.map Cx.re)

/-- The level of index k as the transmitter takes it: the outer level is 65,536 (R172). -/
def outerLevel (m k : Nat) : Int := Int.fdiv ((2 * (k : Int) - ((2 ^ m : Nat) - 1)) * 65536) ((2 ^ m : Nat) - 1)

/-- Line symbols sent: the shifts of every layer of the chirp symbols, or PAM level indices. -/
def Dev.sendSymbols (d : Dev) (n t : Nat) (mute : Bool) (ss : List Nat) : Dev :=
  let g := d.geom n
  if d.isPam n then d.sendLevels n t mute (ss.map (outerLevel (d.pamBits n)))
  else
    d.sendChips n t mute ((List.range g.syms).flatMap (fun j => symbolChips g.sf (d.rd PORT.TX_AMP n) ((ss.drop (j * g.depth)).take g.depth)))

/-- The chips of a frame from TIMEBASE `t` on that hold the part of a preamble which ends at TIMEBASE `e`, and quiet elsewhere (R124, R128,
R149). -/
def Dev.preambleSlice (d : Dev) (n t e : Nat) : List Cx :=
  let sf := (d.chirpGeom n).sf
  let pre := preambleChips sf (d.rd PORT.TX_AMP n) (d.rd PORT.PORT_WORD n)
  let off : Int := 10 * 2 ^ sf - Int.fdiv (((e : Int) - t) * d.portUnits n) 160
  (List.range (128 * d.portUnits n)).map (fun (j : Nat) => let i := off + j; if i < 0 then Cx.zero else pre.getD i.toNat Cx.zero)

end Sys2Proof.Machine
end

