-- ==== Sys2Proof/Machine/Startup.lean ====
section
/-! DEFINITION. Starting and stopping ports, chirp offers, PAM activation, AUTO fallback (R30, R31, R117, R128, R132, R179 to
R188). -/

namespace Sys2Proof.Machine

/-- CFG_INVALID brought up to date: present while the port is not DISABLED and CFG_VALID = 0, or while the line code in use or the timing
mode cannot run (R117, R135, R183, R279; log entry 67). -/
def Dev.judgeCfg (d : Dev) (n : Nat) : Dev := d.cond .port n 16 (d.enabled n && (!d.cfgValid n || d.cfgBad n))

/-- The port-frames up to number `last` fed to the decoder in order; an absent one as erasures (R204). -/
def Dev.darnFeed (d : Dev) (n last : Nat) : Dev :=
  let g := d.geom n
  let tb := d.traceback
  ((d.lane n 0).filter (fun f => decide ((d.port n).darn.next ≤ f.num ∧ f.num ≤ last))).foldl
    (fun (d : Dev) f =>
      let zeros := (f.soft.filter (fun v => v == 0)).length
      let d1 := if f.absent then d.inc PORT.ABSENT_FRAMES n else d
      d1.modPort n (fun (x : PortSt) =>
        let y := x.darn.feed n tb f.num f.absent (depuncture g.cr g.info 0 (if f.absent then [] else f.soft))
        { x with darn := if f.absent then y else { y with eras := y.eras + zeros } })) d

/-- HEM hunts anew over a new stream: what LABEL had collected ends without a result, and no loss of alignment is counted (DEDUCED, log entry
122). -/
def Dev.alignRestart (d : Dev) (n : Nat) : Dev :=
  let h := (d.stn n 0).hem
  let d1 := d.labelEnds n 0 true
  let d2 := if h.aligned then d1.inc PORT.CRC_NONE_MF n else d1
  d2.modStn n 0 (fun (x : StnRx) => { x with hem := { x.hem.lose with prev := none } })

/-- The stream that DARN decodes ends, and the next begins with the line frame from TIMEBASE `t` on: the frames before it are decoded and their
remaining bits released by a traceback from the best state (R201); the counts of R209 go on. The symbols of a frame in progress are gone, and
HEM hunts anew. -/
def Dev.rxRestart (d : Dev) (n t : Nat) : Dev :=
  let k := d.frameFrom n t
  let d1 := if k = 0 then d else d.darnFeed n (k - 1)
  (d1.modPort n (fun (x : PortSt) =>
    let y := x.darn.release n 0
    { x with symbols := [], symFrame := k, darn := { y with dec := none, cold := false, soft := [], enc := 0, next := k } })).alignRestart n

/-- A port's demodulators and transmitter start from nothing, as at its start and where its line code changes; the counts of R209 go on. -/
def Dev.signalReset (d : Dev) (n : Nat) : Dev :=
  let d1 := d.setRinse n { d.rinse n with hist := [] }
  (d1.modPort n (fun (x : PortSt) =>
    { x with spin := SpinSt.reset, wring := WringSt.reset, shape := ShapeSt.reset, scale := d.rd PORT.SOFT_SCALE n, symbols := [], symFrame := x.rxNext,
             corrUp := CorrRun.empty, corrDown := CorrRun.empty, det := none, preAt := none
             darn := { DarnSt.reset with next := x.rxNext, bits := x.darn.bits, errs := x.darn.errs, eras := x.darn.eras } })).alignRestart n

/-- FOLD starts at a downstream multiframe boundary: frame 0, slot 1, the encoder at state 0. -/
def Dev.txStartAt (d : Dev) (n t : Nat) : Dev :=
  d.modPort n (fun (x : PortSt) =>
    { x with tx := { x.tx with start := some t, next := t, frac := 0, mfStart := 0, count := 0, enc := 0, crc := 1023, crcPrev := none, slot := 1 } })

/-- FOLD stops, and what it has built is not sent: the transmitter sends beacons, activation signals or muted samples (R132). -/
def Dev.txStop (d : Dev) (n : Nat) : Dev :=
  (d.setLane n 1 []).modPort n (fun (x : PortSt) => { x with tx := { x.tx with start := none } })

/-- RX_FRAME_PHASE: an upstream frame boundary at TIMEBASE `t` (R134). -/
def Dev.rxBoundary (d : Dev) (n t : Nat) : Dev :=
  d.wr PORT.RX_FRAME_PHASE n 0 ((t + frameTicks - d.sys.sysPhase % frameTicks) % frameTicks)

/-! ### Chirp offers (R128, R184) -/

/-- A chirp offer starts (R128); none does while a fallback is due (R186) or the configuration is invalid (R117). -/
def Dev.offerStart (d : Dev) (n : Nat) : Dev :=
  if (d.port n).due || d.cfgBad n then (d.modPort n (fun (x : PortSt) => { x with offer := none })).wr PORT.ACQ_STATE n 0 0
  else
    (((d.txStop n).modPort n (fun (x : PortSt) => { x with offer := some ⟨d.timebase, false, none⟩, det := none })).inc PORT.OFFERS n).wr
      PORT.ACQ_STATE n 0 1

/-- A failed offer: counted and raised; unanswered ones count toward fallback, answered ones return the count to 0; the next
offer starts at once (R128, R184). -/
def Dev.offerFail (d : Dev) (n : Nat) (answered : Bool) : Dev :=
  let d1 := (d.inc PORT.OFFER_FAIL n).raise .port n 18
  let d2 :=
    if !d1.auto n then d1
    else if answered then d1.wr PORT.NO_ANSWER n 0 0
    else
      let e := d1.inc PORT.NO_ANSWER n
      if e.rd PORT.NO_ANSWER n = 3 then e.fallbackCause n else e
  d2.offerStart n

/-- Whether an offer runs: a chirp port in ACTIVATING. -/
def Dev.offering (d : Dev) (n : Nat) : Bool := d.portMode n == .activating && d.rd PORT.LC_ACTIVE n == 1 && (d.port n).offer.isSome

/-- ACT_WAIT in ticks. -/
def Dev.actWait (d : Dev) (n : Nat) : Nat := msTicks (10 * d.rd PORT.ACT_WAIT n)

/-- The system frame boundary at or before TIMEBASE `t`. -/
def Dev.frameAt (d : Dev) (t : Nat) : Nat := nextAt d.sys.sysPhase frameTicks (t + 1) - frameTicks

/-- The system frame in which a preamble that ends on the boundary `t` starts. -/
def Dev.preambleFrom (d : Dev) (n t : Nat) : Nat := d.frameAt (t - 10 * d.symTicks n)

/-- The first downstream multiframe boundary on which a whole preamble can still end: the one being sent, or one whose first frame has not begun
(DESIGN CHOICE, log entry 122). -/
def Dev.preambleEnd (d : Dev) (n : Nat) : Nat :=
  let t := d.dsAfter n d.timebase
  if (d.port n).preAt = some t ∨ d.timebase ≤ d.preambleFrom n t then t else t + mfTicks

/-- An upstream preamble accepted, whose symbol 10 ends at a place, with its frequency offset in 1/64 bin: counted; outside service it sets the
frame boundary and the starting values of ε and the timing phase; in an offer within ACT_WAIT it is the station's answer, after which frames
follow from the boundary of the last preamble (R126 to R128). -/
def Dev.preambleAccepted (d : Dev) (n : Nat) (end_ f : Int) : Dev :=
  let d1 := d.inc PORT.PRE_DET n
  if d1.inService n then d1
  else
    let t := d1.ticksOf n end_
    let d2 := ((d1.rxBoundary n t).rxRestart n t).modPort n (fun (x : PortSt) => { x with spin := { x.spin with
      next := some (end_ * 65536)
      eps := clampEps (Int.fdiv (f * 16000000 * 65536) (64 * 2 ^ (d.chirpGeom n).sf)) } })
    match (d2.port n).offer with
    | some o =>
      if d2.offering n && o.accepted.isNone && decide (d2.timebase ≤ o.since + d2.actWait n) then
        ((d2.modPort n (fun (x : PortSt) => { x with offer := some { o with accepted := some d2.timebase } })).txStartAt n (d2.preambleEnd n)).wr
          PORT.ACQ_STATE n 0 2
      else d2
    | none => d2

/-! ### PAM activation (R179 to R181) -/

/-- The present phase of a PAM port. -/
def Dev.act (d : Dev) (n : Nat) : Nat := d.rd PORT.ACT_STATE n

/-- An attempt starts with QUIET at a downstream multiframe boundary `t`, and is counted (R179, R180). -/
def Dev.pamAttempt (d : Dev) (n t : Nat) : Dev :=
  ((((d.setPort n .activating).txStop n).inc PORT.PAM_ACT n).wr PORT.ACT_STATE n 0 1).modPort n
    (fun (x : PortSt) => { x with pam := { quietAt := t, phaseAt := t, marker := none, low := 0, warmAt := none } })

/-- A phase entered at TIMEBASE `t`; the run of low frames goes on through the phases of R180, and the local copy of the training sequence is
synchronised anew. -/
def Dev.pamPhase (d : Dev) (n phase t : Nat) : Dev :=
  (d.wr PORT.ACT_STATE n 0 phase).modPort n (fun (x : PortSt) => { x with
    pam := { x.pam with phaseAt := t, low := if phase ≤ 4 then 0 else x.pam.low }
    wring := { x.wring with prbs := none, seen := [] } })

/-- The nominal value of slicer threshold i (R177). -/
def threshNominal (m i : Nat) : Int := (2 * (i : Int) - ((2 ^ m : Nat) - 2 : Int)) * (if m = 2 then 128 else 64)

/-- The thresholds at the start of TRAIN_FULL: nominal plus OFS_TRIM (R177). -/
def Dev.threshStart (d : Dev) (n : Nat) : Dev :=
  let m := d.pamBits n
  (List.range 7).foldl
    (fun d i => d.wr PORT.THRESH n i (if i < 2 ^ m - 1 then codeOf 10 (threshNominal m i + d.rdS PORT.OFS_TRIM n i) else 0)) d

/-- The length of a timed phase in ticks (R179). -/
def phaseTicks (phase : Nat) : Option Nat :=
  match phase with | 1 => some (msTicks 16) | 3 => some (msTicks 100) | 4 => some (msTicks 200) | 5 => some (msTicks 100) | _ => none

/-- A timed phase ends and the next begins; MARKER ends on the first downstream multiframe boundary at or after the end of
TRAIN_FULL, and DATA is sent from there (R179). -/
def Dev.pamNext (d : Dev) (n len : Nat) : Dev :=
  let t := (d.port n).pam.phaseAt + len
  let p := d.act n
  if p = 4 then (d.pamPhase n 5 t).threshStart n
  else if p = 5 then
    let m := nextAt (d.dsPhase n) mfTicks t
    ((d.pamPhase n 6 t).modPort n (fun (x : PortSt) => { x with pam := { x.pam with marker := some m } })).txStartAt n m
  else d.pamPhase n (p + 1) t

/-- An AUTO port returns to chirp (R187). -/
def Dev.returnToChirp (d : Dev) (n : Nat) : Dev :=
  (((((d.wr PORT.LC_ACTIVE n 0 1).raise .port n 23).wr PORT.PAM_FAILS n 0 0).signalReset n).judgeCfg n).offerStart n

/-- A PAM attempt fails: counted, and under AUTO counted toward the return to chirp; the next attempt starts at the next
downstream multiframe boundary (R180, R187). -/
def Dev.pamFail (d : Dev) (n : Nat) : Dev :=
  let d1 := (((d.inc PORT.PAM_ACT_FAIL n).raise .port n 24).wr PORT.ACT_STATE n 0 0).txStop n
  if !d1.auto n then d1
  else
    let d2 := d1.inc PORT.PAM_FAILS n
    if d2.rd PORT.PAM_FAILS n = 3 ∧ !(d2.port n).upSeen then d2.returnToChirp n else d2

/-- Whether an attempt runs: a PAM port in ACTIVATING, in one of the phases of R179. -/
def Dev.attempting (d : Dev) (n : Nat) : Bool :=
  d.portMode n == .activating && d.isPam n && decide (1 ≤ d.act n ∧ d.act n ≤ 7)

/-- A frame of the detector's energy in TRAIN_EQ to DATA: 16 low frames in a row fail the attempt (R180). -/
def Dev.pamEnergy (d : Dev) (n : Nat) (low high : Bool) : Dev :=
  if !d.attempting n || d.act n < 4 then d
  else
    let k := if low then (d.port n).pam.low + 1 else if high then 0 else (d.port n).pam.low
    let d1 := d.modPort n (fun (x : PortSt) => { x with pam := { x.pam with low := min 16 k } })
    if 16 ≤ k then d1.pamFail n else d1

/-! ### Start and stop (R30, R31, R117, R183) -/

/-- The line code a port starts under: 2 is PAM (R136, R182, R183). -/
def Dev.startCode (d : Dev) (n : Nat) : Nat :=
  if d.shared n then 1
  else
    match d.rd PORT.LC_POLICY n with
    | 1 => 1
    | 2 => 2
    | _ => if !d.cfgValid n && d.on PORT.CABLE_PAM n && d.pamValid n then 2 else 1

/-- The port's own state as it starts; what outlives a stop is kept. -/
def PortSt.started (x : PortSt) (now : Nat) : PortSt :=
  { PortSt.reset with
    dsLast := now
    takenAt := now
    rxNext := x.rxNext
    secNow := x.secNow
    secOld := x.secOld
    symFrame := x.rxNext
    darn := { DarnSt.reset with next := x.rxNext }
    tx := { TxSt.reset with alive := x.tx.alive } }

/-- A shared port's downstream starts with a sync frame that ends on the next downstream multiframe boundary (R149); one whose sync frame has
begun already is passed over (DESIGN CHOICE, log entry 122). -/
def Dev.sharedStart (d : Dev) (n : Nat) : Dev :=
  if d.cfgBad n then d
  else
    let t := d.dsAfter n d.timebase
    d.txStartAt n (if d.timebase + frameTicks ≤ t then t else t + mfTicks)

/-- CMD_PORT_START accepted: the port enters ACTIVATING, is placed, and its line code starts (R30, R33, R183, R253, R423). -/
def Dev.portStart (d : Dev) (n : Nat) : Dev :=
  let d1 := (((d.placeLane n).placeEngine n).setPort n .activating).placeBanks n
  let dc := d1.rdS PORT.DC_TRIM n * 65536
  let d2 := ((d1.setPortSt n { (d1.port n).started d1.timebase with
    scale := d1.rd PORT.SOFT_SCALE n
    mfSeen := d1.mfEnded d1.timebase }).setRinse n { d1.rinse n with
    dc := dc
    hist := [] }).wr PORT.NDL_PEAK n 0 0
  let d3 := (List.range 16).foldl (fun d s => d.setStn n s StnRx.reset) d2
  let d4 := { d3 with
      arch := { d3.arch with replace := true, afterReset := FMap.set false d3.arch.afterReset n false
                             portMiss := FMap.set [] d3.arch.portMiss n [] }
      sys := { d3.sys with phi := FMap.set none d3.sys.phi n none }
      needle := { d3.needle with scratch := d3.needle.scratch.filter (fun e => e.1 / 128 != n) } }
  let lc : Nat := d4.startCode n
  let d5 := (((((d4.wr PORT.LC_ACTIVE n 0 lc).wr PORT.NO_ANSWER n 0 0).wr PORT.PAM_FAILS n 0 0).wr
    PORT.ACT_STATE n 0 0).wr PORT.ACQ_STATE n 0 0).formWindows n
  let d6 := (d5.slipRestart n).judgeCfg n
  let d7 : Dev := if lc == 1 then (if d6.shared n then d6.sharedStart n else d6.offerStart n) else d6
  (d7.wr DEV.LOAD_UNITS 0 0 d7.loadUnits).judgeFailure n

/-- The queued events of a port removed from every engine without a count. -/
def Dev.dropHooks (d : Dev) (n : Nat) : Dev :=
  d.needle.engines.foldl
    (fun d e => d.modEngine e.1 (fun (x : EngineSt) =>
      { x with queue := x.queue.filter (fun v => v.port != some n)
               waiting := match x.waiting with | some (v, k) => if v.port = some n then none else some (v, k) | none => none })) d

/-- Every defect of a port and of its stations and tributaries cleared without an event (R247). -/
def Dev.clearDefects (d : Dev) (n : Nat) : Dev :=
  let d1 := (List.range 16).foldl (fun d s => (List.range 10).foldl (fun d b => d.wr (stnField b) n s 0) d) d
  let d2 := (d1.tribs n).foldl (fun d t => (d.wr TRIB.T_PLM t 0 0).wr TRIB.T_UNEQ t 0 0) d1
  (d2.wr (HDR.LEVEL .port) n 0 0).faultCond (srcPort n) false

/-- A port stops: DISABLED, its defects cleared, its offers, frames, stagings and queued events gone (R30, R186, R247, R428). -/
def Dev.portStop (d : Dev) (n : Nat) : Dev :=
  if !d.enabled n then d
  else
    let d1 := d.modPort n (fun (x : PortSt) =>
      { x with corrUp := CorrRun.empty, corrDown := CorrRun.empty, det := none, preAt := none, offer := none, symbols := [], pam := PamSt.reset
               due := false, lofTimes := [], shared := SharedSt.reset, staged := [], bells := []
               tx := { x.tx with start := none, queue := [], block := List.replicate 6 0, rest := [] } })
    let d2 := ((d1.dropHooks n).setPort n .disabled).clearDefects n
    let d3 := { d2 with arch := { d2.arch with
        frames := FMap.set [] (FMap.set [] d2.arch.frames (2 * n) []) (2 * n + 1) []
        moves := d2.arch.moves.filter (fun m => m.port != n)
        engPlan := FMap.set none d2.arch.engPlan n none
        engFrom := FMap.set none d2.arch.engFrom n none
        copyDue := FMap.set 0 (FMap.set 0 d2.arch.copyDue (2 * n) 0) (2 * n + 1) 0
        afterReset := FMap.set false d2.arch.afterReset n false
        replace := true } }
    let d4 := ((((d3.wr PORT.LC_ACTIVE n 0 0).wr PORT.ACQ_STATE n 0 0).wr PORT.ACT_STATE n 0 0).wr PORT.TX_RDI n 0 0).wr PORT.FORCE_HUNT n 0 0
    let d5 := (List.range 16).foldl (fun d s => (d.setStn n s StnRx.reset).wr STN.STN_STATE (stnKey n s) 0 0) d4
    let d6 := ((d5.wr PORT.ACTIVE_MASK n 0 0).slipRestart n).judgeFailure n
    (d6.wr DEV.LOAD_UNITS 0 0 d6.loadUnits).settleMoves

/-- Every port stopped, as when the device leaves RUN (R28, R30). -/
def Dev.stopAll (d : Dev) : Dev := d.enabledPorts.foldl (fun d n => d.portStop n) d

/-- The ports that are not being moved stopped: what CMD_STATE(READY) does at once (R28). -/
def Dev.stopStill (d : Dev) : Dev := (d.enabledPorts.filter (fun n => !d.inMove n)).foldl (fun d n => d.portStop n) d

/-- The stops that waited for a move take effect at the next frame after it (R36). -/
def Dev.lateStops (d : Dev) : Dev :=
  (d.host.inflight.filter (fun c => c.started && c.code == 3)).foldl
    (fun d c => let n := c.args.getD 0 0
      if d.inMove n then d else (d.portStop n).complete c.tag .ok) d

/-- CMD_PORT_START (R31): BUSY for a port that is not DISABLED or without a Needle image, and
where the load would exceed the programme's ceiling, which sets LOAD_REFUSED. A port pinned to a lane whose 64 contexts are taken waits
for an unpinned port to make room (R13; log entry 116). -/
def Dev.startPort (d : Dev) (tag n : Nat) : Dev :=
  if d.enabled n || !d.needle.loaded then d.complete tag .busy
  else if !withinCeiling (d.loadUnits + d.portUnits n) d.prog then ((d.wr DEV.LOAD_REFUSED 0 0 1).raise .dev 0 10).complete tag .busy
  else
    let l := d.laneOf n
    if d.on PORT.LANE_PIN n ∧ 64 ≤ (d.lanePorts l).length then
      (if 64 ≤ (d.planPorts [] l).length then d.evict l d.sys.nextMf else d)
    else (d.portStart n).complete tag .ok

/-- Whether the pins of a port that would start exceed capacity with those of the enabled ports (R36). -/
def Dev.startOverPins (d : Dev) (n : Nat) : Bool :=
  !d.enabled n && d.pinsOver false (n :: d.enabledPorts) [n] ((d.tribs n).filter (fun t => d.on TRIB.EQUIPPED t && d.on TRIB.BANK_PIN t))

/-- The starts that waited for a context of their lane, at the next frame (R13). -/
def Dev.lateStarts (d : Dev) : Dev :=
  (d.host.inflight.filter (fun c => c.started && c.code == 2)).foldl (fun d c => d.startPort c.tag (c.args.getD 0 0)) d

/-! ### Meanings -/

/-- CMD_PORT_START (R31). Pins of the port that exceed capacity are misuse (R36). -/
def execCmdPortStart (tag : Fin 4096) (s : State) : Host.Outcome State Fault Refusal :=
  unlessMisuse
    (match argMisuse s 2 tag (fun a => decide (511 < a.getD 0 0)), s.dev.ready 2 tag with
      | some m, _ => some m
      | none, some c => if s.dev.startOverPins (c.args.getD 0 0) then some .pinCapacity else none
      | none, none => none)
    (stay s (fun d => d.startCmd 2 tag (fun c d => d.startPort tag (c.args.getD 0 0))))

/-- CMD_PORT_STOP (R30): a DISABLED port gives OK with no effect; a port being moved stops at the next frame after the
move (R36). -/
def execCmdPortStop (tag : Fin 4096) (s : State) : Host.Outcome State Fault Refusal :=
  unlessMisuse (argMisuse s 3 tag (fun a => decide (511 < a.getD 0 0)))
    (stay s (fun d => d.startCmd 3 tag (fun c d =>
      let n := c.args.getD 0 0
      if d.inMove n then d else (d.portStop n).complete tag .ok)))

/-- OFFER_ACT_WAIT_EXPIRE (R128): an acceptance on the last tick of ACT_WAIT still counts. -/
def execOfferActWaitExpire (port : Fin 512) (s : State) : Host.Outcome State Fault Refusal :=
  stay s (whenDev
    (fun d => d.offering port && match (d.port port).offer with
      | some o => o.accepted.isNone && decide (o.since + d.actWait port < d.timebase)
      | none => false)
    (fun d => d.offerFail port false))

/-- OFFER_UP_TIMEOUT (R128). -/
def execOfferUpTimeout (port : Fin 512) (s : State) : Host.Outcome State Fault Refusal :=
  stay s (whenDev
    (fun d => d.offering port && match (d.port port).offer with
      | some o => (match o.accepted with | some t => d.passed t (msTicks 64) | none => false)
      | none => false)
    (fun d => d.offerFail port true))

/-- PAM_PHASE_END (R179). -/
def execPamPhaseEnd (port : Fin 512) (s : State) : Host.Outcome State Fault Refusal :=
  stay s (fun d =>
    match phaseTicks (d.act port) with
    | some len => if d.attempting port && d.passed (d.port port).pam.phaseAt len then d.pamNext port len else d
    | none => d)

/-- STATION_TONE_DETECTED (R179): detected for 10 ms without a break, within 300 ms of the start of TONE. -/
def execStationToneDetected (port : Fin 512) (s : State) : Host.Outcome State Fault Refusal :=
  stay s (whenDev
    (fun d => d.attempting port && d.act port == 2 && decide (d.timebase ≤ (d.port port).pam.phaseAt + msTicks 300))
    (fun d => d.pamPhase port 3 d.timebase))

/-- PAM_TONE_TIMEOUT (R180). -/
def execPamToneTimeout (port : Fin 512) (s : State) : Host.Outcome State Fault Refusal :=
  stay s (whenDev (fun d => d.attempting port && d.act port == 2 && d.passed (d.port port).pam.phaseAt (msTicks 300))
    (fun d => d.pamFail port))

/-- The pattern of the marker: +outer, −outer in turn, over the last 16 decisions, newest first (R179). -/
def markerHits (levels : List Int) : Nat :=
  (((levels.take 16).zipIdx).filter (fun x => decide (0 < x.1) == (x.2 % 2 == 1))).length

/-- STATION_MARKER_ACCEPTED (R179): 14 of the 16 decisions that end `back` symbols before the newest have the pattern's sign, and the marker's
end falls 1,000 to 1,200 µs after the end of the downstream marker. It sets the frame boundary, and the symbols behind it are the first of
frame 0. -/
def execStationMarkerAccepted (port : Fin 512) (back : Nat) (s : State) : Host.Outcome State Fault Refusal :=
  stay s (fun d =>
    let x := d.port port
    let end_ := Int.fdiv (x.wring.eq.next.getD 0 - spanAt back x.wring.eq.eps) 65536
    let t := d.ticksOf port end_
    if d.attempting port && d.act port == 6 && x.wring.eq.next.isSome && decide (back + 16 ≤ x.wring.past.length ∧ back ≤ x.symbols.length) &&
        decide (14 ≤ markerHits (x.wring.past.drop back)) && (match x.pam.marker with
          | some m => decide (m + usTicks 1000 ≤ t ∧ t ≤ m + usTicks 1200)
          | none => false) then
      let ss := x.symbols.drop (x.symbols.length - back)
      (((d.pamPhase port 7 d.timebase).rxBoundary port t).rxRestart port t).modPort port (fun (y : PortSt) => { y with symbols := ss })
    else d)

/-- MARKER_WINDOW_EXPIRE (R180). -/
def execMarkerWindowExpire (port : Fin 512) (s : State) : Host.Outcome State Fault Refusal :=
  stay s (whenDev
    (fun d => d.attempting port && d.act port == 6 && match (d.port port).pam.marker with
      | some m => decide (m + usTicks 1200 < d.timebase)
      | none => false)
    (fun d => d.pamFail port))

/-- PAM_UP_TIMEOUT (R180). -/
def execPamUpTimeout (port : Fin 512) (s : State) : Host.Outcome State Fault Refusal :=
  stay s (whenDev (fun d => d.attempting port && d.passed (d.port port).pam.quietAt (msTicks 1500)) (fun d => d.pamFail port))

/-- WARM_TIMEOUT (R181): not UP 32 ms after WARM started; a full attempt starts at the next downstream multiframe boundary. -/
def execWarmTimeout (port : Fin 512) (s : State) : Host.Outcome State Fault Refusal :=
  stay s (whenDev
    (fun d => d.portMode port == .activating && d.isPam port && d.act port == 8 && match (d.port port).pam.warmAt with
      | some t => d.passed t (msTicks 32)
      | none => false)
    (fun d => d.modPort port (fun (x : PortSt) => { x with pam := { x.pam with warmAt := none } })))

end Sys2Proof.Machine
end

