-- ==== Sys2Proof/Machine/Spin.lean ====
section
/-! DEFINITION. SPIN on a continuous chirp port: the correlator, the classification of a preamble, and the data symbols (R119, R125 to R127). -/

namespace Sys2Proof.Machine

/-! ### The correlator (R125 to R127) -/

/-- The distance of two peak bins modulo 2^SF. -/
def binDist (sf a b : Nat) : Nat :=
  let x := (a + 2 ^ sf - b % 2 ^ sf) % 2 ^ sf
  min x (2 ^ sf - x)

/-- A value modulo `m`, in −m/2 to m/2 − 1. -/
def centred (m v : Int) : Int := Int.emod (v + Int.fdiv m 2) m - Int.fdiv m 2

/-- Whether a symbol is a correct preamble symbol of a direction: its ratio at the threshold or above, its peak within ±1 bin of the last one of
its direction (R125); the first of its direction in a run has none before it. -/
def peakOk (sf thresh : Nat) (x : Peak) (prev : Option Peak) : Bool :=
  decide (thresh ≤ x.ratio) && match prev with | some p => decide (binDist sf x.bin p.bin ≤ 1) | none => true

/-- A run extended by a symbol of the direction `up`: it continues the run that ended in the other direction. A peak elsewhere than its
predecessor's starts a new run, whose first symbol is the last one of the other direction. -/
def CorrRun.extend (x : CorrRun) (sf thresh : Nat) (up : Bool) (y : Peak) : CorrRun :=
  if y.ratio < thresh then CorrRun.empty
  else
    let put := fun (k : Nat) (pows : List Nat) (other : Option Peak) =>
      if up then (⟨k, some y, other, (y.pow :: pows).take 4⟩ : CorrRun) else ⟨k, other, some y, (y.pow :: pows).take 4⟩
    let other := if up then x.down else x.up
    if peakOk sf thresh y (if up then x.up else x.down) then put (min 4 (x.run + 1)) x.pows other
    else put 2 (x.pows.take 1) other

/-- A detection from a run of 4 whose last symbol starts at a place: f = (ku + kd) / 2 and τ = (kd − ku) / 2 modulo N / 2, refined by
interpolation, with f the smaller in magnitude (R126; DEDUCED, log entry 117). -/
def CorrRun.detect (x : CorrRun) (sf : Nat) (endsUp : Bool) (p : Int) : Detect :=
  let at_ := fun (y : Option Peak) => match y with | some z => 64 * (z.bin : Int) + z.frac | none => 0
  let n : Int := 2 ^ sf
  let f := centred (32 * n) (Int.fdiv (at_ x.up + at_ x.down) 2)
  let tau := centred (64 * n) (at_ x.down - f)
  { bin := (Int.emod (Int.fdiv (f + 32) 64) n).toNat, f := f, next := p + tau + 64 * n, nextUp := !endsUp, sym9 := none, since := 0 }

/-- What a symbol makes of a detection (R126): it goes on, it ends uncounted, or the port word was received. -/
inductive DetRes where
  | goes (d : Detect) | ends | word (w : Nat)
  deriving DecidableEq, Repr

/-- A symbol after a detection classified (R126). -/
def Detect.step (x : Detect) (sf thresh : Nat) (up down : Peak) : DetRes :=
  let shiftOf := fun (p : Nat) => (p + 2 ^ sf - x.bin % 2 ^ sf) % 2 ^ sf
  let on := { x with since := x.since + 1, next := x.next + 64 * 2 ^ sf }
  match x.sym9 with
  | some u => .word (u * 2 ^ sf + ungray sf (shiftOf up.bin))
  | none =>
    if x.nextUp then
      if 2 ≤ binDist sf up.bin x.bin then .goes { on with sym9 := some (ungray sf (shiftOf up.bin)) }
      else if 8 ≤ x.since + 1 then .ends
      else .goes { on with nextUp := false }
    else if down.ratio < thresh ∨ 1 < binDist sf down.bin x.bin ∨ 8 ≤ x.since + 1 then .ends
    else .goes { on with nextUp := true }

/-- PW_REJECT: counted, the word recorded, the event (R126). -/
def Dev.pwReject (d : Dev) (n w : Nat) : Dev := ((d.inc PORT.PW_REJECT n).wr PORT.PW_LAST n 0 w).raise .port n 17

/-- The bits of PORT_WORD in use (R124). -/
def Dev.portWord (d : Dev) (n : Nat) : Nat := d.rd PORT.PORT_WORD n % 2 ^ (2 * (d.chirpGeom n).sf)

/-- The length of a symbol in 1/64 chip. -/
def Dev.symPlaces (d : Dev) (n : Nat) : Int := 64 * 2 ^ (d.chirpGeom n).sf

/-- Whether one of the four symbols that end with the one at a place overlaps the port's own preamble, extended by 32 chips (R127). -/
def Dev.overlaps (d : Dev) (n : Nat) (p : Int) : Bool :=
  match (d.port n).preAt with
  | none => false
  | some t =>
    let e := d.placeAt n t
    let len := d.symPlaces n
    decide (p - 3 * len < e + 32 * 64 ∧ e - 10 * len - 32 * 64 < p + len)

/-- The peak of a layer's dechirped symbol. -/
def peakIn (sf l : Nat) (xs : List Cx) : Peak :=
  let ps := binPows (bins sf l xs)
  { bin := peakOf ps, frac := Config.peakFrac (peakThree ps), pow := maxOf ps, ratio := peakRatio ps }

/-- The symbol interval from a place on, dechirped with both references of the preamble. -/
def Dev.corrSymbol (d : Dev) (n : Nat) (p : Int) : ChirpSym :=
  let sf := (d.chirpGeom n).sf
  let xs := (d.port n).spin.buf.chips (p * 65536) 0 (2 ^ sf)
  { up := peakIn sf 0 xs, down := peakIn sf 1 xs, start := p, overlap := d.overlaps n p }

/-- The correlator's runs over a symbol interval, and the run of 4 that stands, with whether it ends with an up-sweep. -/
def Dev.correlate (d : Dev) (n : Nat) (m : ChirpSym) : Dev × Option (CorrRun × Bool) :=
  let x := d.port n
  let sf := (d.chirpGeom n).sf
  let th := d.detThresh n
  let u := x.corrDown.extend sf th true m.up
  let v := x.corrUp.extend sf th false m.down
  (d.setPortSt n { x with corrUp := u, corrDown := v }, if u.run = 4 then some (u, true) else if v.run = 4 then some (v, false) else none)

/-- The start of the correlator's next interval. -/
def Dev.corrAt (d : Dev) (n : Nat) : Int :=
  let x := (d.port n).spin
  match x.corr with | some p => max p x.buf.at_ | none => x.buf.at_

def Dev.setCorr (d : Dev) (n : Nat) (p : Int) : Dev := d.modPort n (fun (x : PortSt) => { x with spin := { x.spin with corr := some p } })

/-- Whether the correlator's next interval has been received. -/
def Dev.corrReady (d : Dev) (n : Nat) : Bool := (d.port n).spin.buf.covers 32 (d.corrAt n + d.symPlaces n)

/-- The samples that no later symbol needs let go. -/
def Dev.spinTrim (d : Dev) (n : Nat) (p : Int) : Dev :=
  d.modPort n (fun (x : PortSt) => { x with spin := { x.spin with buf := x.spin.buf.from_ 32 (p - 512) } })

/-- A correlator detection falls into the quiet window of a deferred port's retry pass (R470). -/
def Dev.touchWindow (d : Dev) (n : Nat) : Dev :=
  { d with starch := { d.starch with touched := FMap.set false d.starch.touched n true } }

/-- A correlator interval of a continuous port: the preamble being classified or looked for. A detection sets the correlator's timing. -/
def Dev.chirpInterval (d : Dev) (n : Nat) : Dev :=
  let sf := (d.chirpGeom n).sf
  let len := d.symPlaces n
  let m := d.corrSymbol n (d.corrAt n)
  let (d1, hit) := d.correlate n m
  let d2 := d1.setCorr n (m.start + len)
  let setDet := fun (d : Dev) (y : Option Detect) => d.modPort n (fun (x : PortSt) => { x with det := y })
  match (d2.port n).det with
  | none =>
    match hit with
    | some (r, up) =>
      if m.overlap then d2
      else
        let y := r.detect sf up m.start
        (((setDet d2 (some y)).setCorr n y.next).touchWindow n).modPort n (fun (x : PortSt) => { x with corrUp := CorrRun.empty, corrDown := CorrRun.empty })
    | none => d2
  | some y =>
    match y.step sf (d2.detThresh n) m.up m.down with
    | .goes z => setDet d2 (some z)
    | .ends => setDet d2 none
    | .word w =>
      let d3 := setDet d2 none
      if w = d3.portWord n then d3.preambleAccepted n (m.start + len) y.f else d3.pwReject n w

/-- A symbol interval of a continuous chirp port: the correlator's, then the data symbols that end within it (R119, R125, R126). -/
def Dev.chirpSymbol (d : Dev) (n : Nat) : Dev :=
  if !d.corrReady n then d
  else
    let e := d.corrAt n + d.symPlaces n
    let d1 := ((d.chirpInterval n).dataSymbol n e).dataSymbol n e
    let x := (d1.port n).spin
    d1.spinTrim n (match x.next with | some p => min (d1.corrAt n) (Int.fdiv p 65536) | none => d1.corrAt n)

end Sys2Proof.Machine
end

