-- ==== Sys2Proof/Machine/Shared.lean ====
section
/-! DEFINITION. Shared ports: burst reception, windows, joins, grant maps, stations and collisions (R136 to R168, R199). -/

namespace Sys2Proof.Machine

/-! ### Stations and the grant map (R145 to R148, R154) -/

def Dev.modShared (d : Dev) (n : Nat) (f : SharedSt → SharedSt) : Dev :=
  d.modPort n (fun (x : PortSt) => { x with shared := f x.shared })

def Dev.shr (d : Dev) (n : Nat) : SharedSt := (d.port n).shared

/-- STN_STATE: 0 ABSENT, 1 JOINING, 2 ACTIVE, 3 LOST (R167). -/
def Dev.stnState (d : Dev) (n s : Nat) : Nat := d.rd STN.STN_STATE (stnKey n s)

/-- STN_STATE and ACTIVE_MASK set. -/
def Dev.setStnState (d : Dev) (n s v : Nat) : Dev :=
  let d1 := d.wr STN.STN_STATE (stnKey n s) 0 v
  let mask := d1.rd PORT.ACTIVE_MASK n
  d1.wr PORT.ACTIVE_MASK n 0 (if v = 2 then orBit mask s else mask - (mask &&& 2 ^ s))

/-- The map the scheduler would send now (R148). -/
def Dev.wantMap (d : Dev) (n : Nat) : GrantMap :=
  let ren := (d.shr n).renumber
  let moved := match ren with | some (_, _, k) => decide (1 ≤ k) | none => false
  let entry := fun (w : Nat) =>
    if d.rd PORT.WINDOWS n ≤ w then 15
    else
      match (List.range 16).find? (fun s => d.stnState n s != 0 && d.rd STN.S_WINDOW (stnKey n s) == w) with
      | some s => if s = 15 && moved then (match ren with | some (x, _, _) => x | none => 15) else s
      | none =>
        match ren with
        | some (x, ow, 0) => if w = ow then x else 15
        | _ => 15
  { entries := (List.range 16).map entry, full := d.stnState n 15 != 0 && !moved }

/-- GRANT_LO, GRANT_HI, FULL and MAP_PENDING shown. -/
def Dev.showMap (d : Dev) (n : Nat) : Dev :=
  let m := (d.shr n).map
  let word := fun (lo : Nat) => (List.range 8).foldl (fun v i => v + m.entries.getD (lo + i) 15 * 2 ^ (4 * i)) 0
  (((d.wr PORT.GRANT_LO n 0 (word 0)).wr PORT.GRANT_HI n 0 (word 8)).flag PORT.FULL n 0 m.full).flag PORT.MAP_PENDING n 0
    ((d.shr n).sent != m)

/-- A message of R158 to a station: type, station in bits [7:4], body. -/
def vendorMsg (type s : Nat) (body : List Nat) (again : Bool) : DccMsg :=
  ⟨[type, s * 16, body.length] ++ body, again⟩

/-- A message queued unless the station's queue is full (R429). -/
def Dev.sendVendor (d : Dev) (n s : Nat) (m : DccMsg) : Dev := if d.dccFull n s then d else d.dccQueue n s m

/-- A station's number and window freed: its defects cleared without an event; with FULL, station 15 is renumbered into its
place (R148, R154, R256). -/
def Dev.stnFree (d : Dev) (n s : Nat) : Dev :=
  let w := d.rd STN.S_WINDOW (stnKey n s)
  let d1 := (List.range 10).foldl (fun d b => d.wr (stnField b) n s 0) d
  let d2 := ((d1.stnTribs n s).foldl (fun d t => (d.wr TRIB.T_PLM t 0 0).wr TRIB.T_UNEQ t 0 0) d1).setStn n s StnRx.reset
  let was := d2.stnActive n s
  let d3 := d2.setStnState n s 0
  let d4 :=
    if s = 15 then d3.modShared n (fun (x : SharedSt) => { x with renumber := none })
    else if d3.stnState n 15 != 0 && (d3.shr n).renumber.isNone then
      (d3.modShared n (fun (x : SharedSt) => { x with renumber := some (s, w, 0) })).sendVendor n 15
        (vendorMsg 0x22 15 [15 * 16 + s] false)
    else d3
  let d5 := d4.judgeShared n
  (if was && (d5.activeStns n).isEmpty then d5.portDown n else d5).judgeFailure n

/-- The context of station 15 moved to the number it was given (R148). -/
def Dev.renumberApply (d : Dev) (n : Nat) : Dev :=
  match (d.shr n).renumber with
  | some (x, _, 2) =>
    let from' := stnKey n 15
    let to' := stnKey n x
    let d1 := (fieldsStn).foldl
      (fun d f => if f.access = .rw then d
        else (List.range f.count).foldl (fun d i => (d.wr f to' i (d.rd f from' i)).restore f from' i) d) d
    let st := d1.stnState n x
    let d2 := ((d1.setStn n x (d1.stn n 15)).setStn n 15 StnRx.reset)
    let d3 := (List.range 10).foldl (fun d b => (d.flag (stnField b) n x (d.hasDefect n 15 b)).flag (stnField b) n 15 false) d2
    ((((d3.setStnState n 15 0).setStnState n x st).modShared n (fun (y : SharedSt) => { y with renumber := none })).judgeShared n).judgeFailure n
  | _ => d

/-- FOLD begins a map group: a new map is sent (R147). -/
def Dev.groupBoundary (d : Dev) (n : Nat) : Dev :=
  let d1 := d.modShared n (fun (x : SharedSt) =>
    { x with last := x.sent
             renumber := match x.renumber with | some (a, b, k) => some (a, b, min 2 (k + 1)) | none => none })
  d1.modShared n (fun (x : SharedSt) => { x with sent := d1.wantMap n })

/-- A downstream multiframe boundary `t` of a shared port: the group advances, maps are applied, cycles start (R140,
R145 to R149). FOLD has taken the map of the group ahead of its boundary. -/
def Dev.sharedBoundary (d : Dev) (n t : Nat) (first : Bool) : Dev :=
  let g := if first then 0 else ((d.shr n).group + 1) % 8
  let d2 := d.modShared n (fun (x : SharedSt) => { x with group := g })
  let starts := d2.burstCycle n == 16 || g % 2 == 0
  let d3 :=
    if g = 2 then (d2.modShared n (fun (x : SharedSt) => { x with prevMap := x.map, map := x.last })).renumberApply n
    else if starts then d2.modShared n (fun (x : SharedSt) => { x with prevMap := x.map })
    else d2
  let d4 :=
    if starts then
      d3.modShared n (fun (x : SharedSt) =>
        { x with prevAt := x.cycleAt, cycleAt := some t
                 got := x.got.filter (fun e => match x.cycleAt with | some c => decide (c ≤ e.1) | none => false) })
    else d3
  d4.showMap n

/-! ### Windows (R140, R146, R150) -/

/-- What a window is in the map in effect. -/
inductive WindowKind where
  | granted (s : Nat) | contention | idle
  deriving DecidableEq, Repr

/-- The kind of a window; one granted to a station without a context is idle (R146). A LOST station keeps its window (R154). -/
def Dev.windowKind (d : Dev) (n : Nat) (m : GrantMap) (w : Nat) : WindowKind :=
  let e := m.entries.getD w 15
  if e = 15 ∧ !m.full then .contention
  else if d.stnState n e = 0 then .idle
  else .granted e

/-- A symbol time in 1/4 chip. -/
def Dev.symQuarters (d : Dev) (n : Nat) : Int := ((4 * 2 ^ (d.chirpGeom n).sf : Nat) : Int)

/-- The start of a window after the start of its cycle in 1/4 chip. -/
def Dev.windowStart (d : Dev) (n w : Nat) : Int := ((w * d.windowSyms n : Nat) : Int) * d.symQuarters n

/-- MAX_RTT in whole 1/4 chips (R109, R166): an offset in 1/4 chip is above MAX_RTT exactly when it is above this. -/
def Dev.rttQuarters (d : Dev) (n : Nat) : Int := ((4 * d.rd PORT.MAX_RTT n * 1024 * d.portUnits n / 1000 : Nat) : Int)

/-- Whether symbol 1 at a position lies in the acceptance range of a window (R150). -/
def Dev.inWindowRange (d : Dev) (n w : Nat) (k : WindowKind) (pos : Int) : Bool :=
  let t := d.symQuarters n
  let x := pos - d.windowStart n w
  match k with
  | .granted _ => decide (-t ≤ x ∧ x ≤ ((d.windowSyms n : Int) - (d.burstSyms n : Int) + 1) * t)
  | .contention => decide (0 ≤ x ∧ x ≤ d.rttQuarters n + t)
  | .idle => false

/-- The window that takes a burst, by the map of its cycle. -/
def Dev.takesBurst (d : Dev) (n : Nat) (r : Reception) : Option (Nat × WindowKind) :=
  let m := if (d.shr n).cycleAt = some r.cycle then (d.shr n).map else (d.shr n).prevMap
  ((List.range (d.rd PORT.WINDOWS n)).map (fun w => (w, d.windowKind n m w))).find? (fun x => d.inWindowRange n x.1 x.2 r.pos)

/-- The window of a reception, for COLL_LAST: the one that takes symbol 1, else the one it falls into. -/
def Dev.windowAt (d : Dev) (n : Nat) (r : Reception) : Nat :=
  match r.window with
  | some w => w
  | none => match d.takesBurst n r with
    | some (w, _) => w
    | none => min 15 ((max r.pos 0).toNat / max 1 (d.windowSyms n * 4 * 2 ^ (d.chirpGeom n).sf))

/-- A place as a position after the start of its cycle, in 1/4 chip: the cycle is the one that began at most a symbol later (R150). -/
def Dev.cyclePos (d : Dev) (n : Nat) (p : Int) : Option (Nat × Int) :=
  let x := d.shr n
  let at_ := fun (c : Nat) => (c, Int.fdiv (p - d.placeAt n c) 16)
  match x.cycleAt, x.prevAt with
  | none, _ => none
  | some c, none => some (at_ c)
  | some c, some b => some (if d.placeAt n c - d.symPlaces n ≤ p then at_ c else at_ b)

/-! ### Contexts and collisions (R160 to R165) -/

def Dev.slot (d : Dev) (n : Nat) (fork : Bool) : Option Reception := if fork then (d.shr n).ctxB else (d.shr n).ctxA

def Dev.setSlot (d : Dev) (n : Nat) (fork : Bool) (r : Option Reception) : Dev :=
  d.modShared n (fun (x : SharedSt) => if fork then { x with ctxB := r } else { x with ctxA := r })

/-- The outcome codes of R166 with their counters. -/
def outcomeField (o : Nat) : Option Field :=
  match o with
  | 1 => some PORT.LOST_DET | 2 => some PORT.CAPTURED | 3 => some PORT.COLL_IGNORED | 4 => some PORT.FORK_BOTH
  | 5 => some PORT.FORK_ONE | 6 => some PORT.FORK_ONE | 7 => some PORT.FORK_NONE | _ => none

/-- A collision report (R165). -/
def Dev.collReport (d : Dev) (n o : Nat) (c : Collision) : Dev :=
  let d1 := match outcomeField o with | some f => d.inc f n | none => d
  let d2 := ((((d1.wr PORT.COLL_OUTCOME n 0 o).wr PORT.COLL_WINDOW n 0 c.aWindow).flag PORT.COLL_A_VALID n 0 c.aValid).wr
    PORT.COLL_A_STN n 0 c.aStn).flag PORT.COLL_B_VALID n 0 c.bValid
  (((d2.wr PORT.COLL_B_STN n 0 c.bStn).wr PORT.COLL_DELTA n 0 (codeOf 8 c.delta)).wr PORT.COLL_TIME n 0 d2.timebase).raise .port n 21

/-- Whether the metric of a reception, the mean of its last peak powers, is at least `k` quarters of a dB above another's (R160). -/
def Reception.atLeast (b a : Reception) (k : Int) : Bool := dbGe (sumOf b.pows * a.pows.length) (sumOf a.pows * b.pows.length) k

/-- B metric minus A metric in 0.25 dB, within a byte (R166). -/
def metricDelta (a b : Reception) (free : Nat) : Int :=
  limitAbs 127 (dbQuarter (sumOf b.pows * a.pows.length) (sumOf a.pows * b.pows.length) free)

/-- The record of a collision of a held reception with a candidate. -/
def Dev.collOf (d : Dev) (n : Nat) (slot : Bool) (a b : Reception) : Collision :=
  { aSlot := slot, aWindow := d.windowAt n a, aStn := a.stn, aValid := a.accepted, bStn := b.stn, bValid := b.accepted,
    delta := metricDelta a b d.free, aDone := none, bDone := none, fork := a.accepted }

/-- The outcome of a collision whose settlement is complete (R161, R163): FALSE_DROPPED once A has ended unaccepted and B's
header is known; else by which passed. -/
def Collision.outcome (c : Collision) : Option Nat :=
  match c.aDone with
  | none => none
  | some a =>
    if !c.fork then (if c.bValid || c.bDone.isSome then some 0 else none)
    else match c.bDone with
      | none => none
      | some b => some (if a then (if b then 4 else 5) else if b then 6 else 7)

/-- The collisions whose outcome is known are reported. -/
def Dev.collSettle (d : Dev) (n : Nat) : Dev :=
  let done := (d.shr n).coll.filter (fun c => c.outcome.isSome)
  let d1 := d.modShared n (fun (x : SharedSt) => { x with coll := x.coll.filter (fun c => c.outcome.isNone) })
  done.foldl (fun d c => d.collReport n (c.outcome.getD 7) c) d1

/-- Every open collision with the reception in a context updated. -/
def Dev.collUpdate (d : Dev) (n : Nat) (slot : Bool) (a b : Collision → Collision) : Dev :=
  d.modShared n (fun (x : SharedSt) =>
    { x with coll := x.coll.map (fun c =>
        if c.aSlot == slot && c.aDone.isNone then a c else if c.aSlot != slot && c.bDone.isNone then b c else c) })

/-- A tentative reception that ends unaccepted is counted (R151); a dropped one counts as missing (R161). -/
def Dev.countDropped (d : Dev) (n : Nat) (r : Reception) : Dev :=
  if r.accepted then
    d.modShared n (fun (x : SharedSt) => { x with got := x.got.filter (fun e => !(e.1 == r.cycle && some e.2.1 == r.window)) })
  else d.inc PORT.FALSE_DET n

/-- A detection as a reception; its symbol 1 is taken three symbols before the last one detected until the port word tells (R160). -/
def Dev.candOf (d : Dev) (n : Nat) (pows : List Nat) (x : Detect) : Option Reception :=
  (d.cyclePos n (x.next - 4 * d.symPlaces n)).map (fun c =>
    { pos := c.2, cycle := c.1, pows := pows, det := x, next := x.next * 65536
      eps := clampEps (Int.fdiv (x.f * 16000000 * 65536) (d.symPlaces n)), pwOk := false, heads := [], noise := (0, 0), cols := [], accepted := false
      stn := 0, len := 0, flag := false, window := none, discard := false })

/-- Whether a detection is a reception already held: its symbol timing within ±1 chip and its frequency within ±1 bin (R160). -/
def sameReception (sf : Nat) (a b : Reception) : Bool :=
  decide ((centred (64 * 2 ^ sf) (b.det.next - Int.fdiv a.next 65536)).natAbs ≤ 64) && decide ((centred (32 * 2 ^ sf) (b.det.f - a.det.f)).natAbs ≤ 64)

/-- Every open collision of a context ends for its reception: it is dropped. -/
def Dev.collDrop (d : Dev) (n : Nat) (slot : Bool) : Dev :=
  (d.collUpdate n slot (fun c => { c with aDone := some false }) (fun c => { c with bDone := some false })).collSettle n

/-- A candidate handled by the first row of R161 that applies, and whether it dropped a held tentative reception. -/
def Dev.candidateRow (d : Dev) (n : Nat) (b : Reception) : Dev × Option (Bool × Reception) :=
  let margin : Int := (d.rd PORT.CAPTURE_MARGIN n : Nat)
  let one := fun (slot : Bool) (a : Reception) =>
    let c := d.collOf n slot a b
    let capture := (((d.countDropped n a).setSlot n slot (some b)).collReport n 2 c).collDrop n slot
    let fork := (d.setSlot n (!slot) (some b)).modShared n (fun (x : SharedSt) =>
      { x with coll := x.coll ++ [c], strong := some (if b.atLeast a 0 then !slot else slot), sweeps := [] })
    if !a.accepted then
      if b.atLeast a margin then (capture, some (slot, a))
      else if d.forkMode n then (fork, none)
      else (d.modShared n (fun (x : SharedSt) => { x with waiting := x.waiting ++ [b] }), none)
    else if d.forkMode n then (fork, none)
    else if b.atLeast a margin then (capture, none)
    else (d.collReport n 3 c, none)
  match d.slot n false, d.slot n true with
  | some a, some _ => (d.collReport n 1 (d.collOf n false a b), none)
  | some a, none => one false a
  | none, some a => one true a
  | none, none => (d.setSlot n false (some b), none)

/-- Whether at least four pattern symbols of a candidate are still to come when a reception ends: none has begun since its detection by four
symbols (R162). -/
def Reception.fourToCome (b a : Reception) : Bool := decide (b.det.since = 0 ∧ Int.fdiv a.next 65536 ≤ b.det.next)

/-- The waiting candidates settled as the tentative reception held in a context ends unaccepted: one with fewer than four pattern symbols to come
is lost, another takes the context, or is judged against the reception that has captured it (R162; the last is DEDUCED, log entry 123). -/
def Dev.settleDropped (d : Dev) (n : Nat) (slot : Bool) (a : Reception) : Dev :=
  let ws := (d.shr n).waiting
  let d1 := d.modShared n (fun (x : SharedSt) => { x with waiting := [] })
  ws.foldl
    (fun d b =>
      if !b.fourToCome a then d.collReport n 1 (d.collOf n slot a b)
      else if (d.slot n slot).isSome then (d.candidateRow n b).1
      else (d.setSlot n slot (some b)).collReport n 0 (d.collOf n slot a b)) d1

/-- A candidate handled under R161; the candidates that wait for a reception it drops are settled (R162). -/
def Dev.candidate (d : Dev) (n : Nat) (b : Reception) : Dev :=
  match d.candidateRow n b with
  | (d1, some (slot, a)) => d1.settleDropped n slot a
  | (d1, none) => d1

/-- The waiting candidates judged again under the Accepted rows (R162). -/
def Dev.settleAccepted (d : Dev) (n : Nat) : Dev :=
  let ws := (d.shr n).waiting
  ws.foldl (fun d b => d.candidate n b) (d.modShared n (fun (x : SharedSt) => { x with waiting := [] }))

/-! ### Joins (R148, R156 to R158) -/

/-- JOIN_REJECT (R157). -/
def Dev.joinReject (d : Dev) (n : Nat) : Dev := (d.inc PORT.JOIN_REJECT n).raise .port n 22

/-- The lowest free station number (R148). -/
def Dev.freeStn (d : Dev) (n : Nat) : Option Nat :=
  (List.range 16).find? (fun s => d.stnState n s == 0 && match (d.shr n).renumber with | some (x, _, _) => x != s | none => true)

/-- The lowest-numbered contention window that no station holds (R148). -/
def Dev.freeWindow (d : Dev) (n : Nat) : Option Nat :=
  (List.range (d.rd PORT.WINDOWS n)).find? (fun w =>
    !(List.range 16).any (fun s => d.stnState n s != 0 && d.rd STN.S_WINDOW (stnKey n s) == w) &&
    match (d.shr n).renumber with | some (_, ow, _) => ow != w | none => true)

/-- A join request assigned: number, window, TA, JOIN_ACK twice with the same ALIVE (R148, R157, R158, R229). -/
def Dev.joinAssign (d : Dev) (n : Nat) (j : JoinReq) : Dev :=
  match d.freeStn n, d.freeWindow n with
  | some s, some w =>
    let k := stnKey n s
    let ta := (max j.offset 0).toNat
    let d1 := (d.setStn n s { StnRx.reset with joinAt := d.timebase }).setStnState n s 1
    let d2 := (((((d1.wr STN.S_WINDOW k 0 w).wr STN.TA k 0 ta).wr STN.NONCE k 0 j.nonce).inc STN.JOINS k).inc PORT.JOIN_OK n)
    let body := [j.nonce * 16 + s, w, ta / 65536 % 16, ta / 256 % 256, ta % 256]
    (d2.sendVendor n s (vendorMsg 0x20 s body false)).sendVendor n s (vendorMsg 0x20 s body true)
  | _, _ => d.joinReject n

/-- Every join request that waits is settled: above MAX_RTT rejected; two of one window with equal nonces both rejected; the
others assigned, the stronger first (R157). -/
def Dev.joinSettle (d : Dev) (n : Nat) : Dev :=
  let js := (d.shr n).joins
  let d1 := d.modShared n (fun (x : SharedSt) => { x with joins := [] })
  let far := fun (j : JoinReq) => decide (d.rttQuarters n < j.offset)
  let near := js.filter (fun j => !far j)
  let twin := fun (j : JoinReq) => decide (1 < (near.filter (fun k => k.window == j.window && k.nonce == j.nonce)).length)
  let d2 := (js.filter (fun j => far j || twin j)).foldl (fun d _ => d.joinReject n) d1
  ((near.filter (fun j => !twin j)).mergeSort (fun a b => decide (b.metric ≤ a.metric))).foldl (fun d j => d.joinAssign n j) d2

/-- The reception in a context ends; `passed` is how it was settled by its header and BCW (R151, R162, R163). The join requests are settled once
both contexts are free (DESIGN CHOICE, log entry 124). -/
def Dev.slotEnd (d : Dev) (n : Nat) (slot passed : Bool) : Dev :=
  match d.slot n slot with
  | none => d
  | some r =>
    let d0 := (d.setSlot n slot none).modShared n (fun (x : SharedSt) => { x with strong := none, sweeps := [] })
    let d1 := d0.collUpdate n slot (fun c => { c with aDone := some passed }) (fun c => { c with bDone := some passed })
    let d2 := d1.collSettle n
    let d3 := if r.accepted then d2 else (d2.inc PORT.FALSE_DET n).settleDropped n slot r
    if (d3.slot n false).isNone && (d3.slot n true).isNone then d3.joinSettle n else d3

/-! ### Symbols of a reception (R119, R142, R160, R163) -/

/-- The value of a decided sweep at a place, in 1/65,536 of 1/64 chip. -/
def Sweep.at (x : Sweep) (sf : Nat) (p : Int) : Cx :=
  let i := Int.fdiv (p - x.at_) (64 * 65536)
  if 0 ≤ i ∧ i < 2 ^ sf then (Cx.mul x.amp (chip sf x.l x.s i.toNat)).div (2 ^ 14 * 2 ^ sf) else Cx.zero

/-- The chips of a reception's next symbol; the stronger reception's decided sweeps are subtracted from the weaker's (R163). -/
def Dev.slotChips (d : Dev) (n : Nat) (slot : Bool) (r : Reception) : List Cx :=
  let sf := (d.chirpGeom n).sf
  let xs := (d.port n).spin.buf.chips r.next r.eps (2 ^ sf)
  if (d.shr n).strong = some (!slot) then
    xs.zipIdx.map (fun x => Cx.sub x.1 (Cx.sum ((d.shr n).sweeps.map (fun s => s.at sf (r.next + spanAt x.2 r.eps)))))
  else xs

/-- Whether a reception's next symbol can be demodulated: its chips have come, and where it is the weaker of two the stronger has been demodulated
over them (R163). -/
def Dev.slotReady (d : Dev) (n : Nat) (slot : Bool) (r : Reception) : Bool :=
  let e := r.next + 65536 * d.symPlaces n
  (d.port n).spin.buf.covers 32 (Int.fdiv e 65536) &&
  (if (d.shr n).strong = some (!slot) then (match d.slot n (!slot) with | some a => decide (e ≤ a.next) | none => true) else true)

/-- A reception after a symbol whose layers were decided: the loop, the metric, and, of the stronger reception, the sweeps (R122, R160, R163). -/
def Dev.slotTook (d : Dev) (n : Nat) (slot : Bool) (r : Reception) (ls : List LayerRx) : Dev :=
  let fr := layerFracs ls
  let pow := maxOf (ls.map (fun y => maxOf y.pows))
  let r1 := { r with
    next := r.next + spanAt (2 ^ (d.chirpGeom n).sf) r.eps + Config.chirpPhase fr
    eps := clampEps (r.eps + Config.chirpFreq fr)
    pows := (pow :: r.pows).take 4 }
  let d1 := d.setSlot n slot (some r1)
  if (d.shr n).strong = some slot then
    d1.modShared n (fun (x : SharedSt) => { x with sweeps :=
      (x.sweeps ++ ls.map (fun y => (⟨r.next, y.l, y.s, y.amp⟩ : Sweep))).filter (fun s => decide (r.next - 8 * 65536 * d.symPlaces n ≤ s.at_)) })
  else d1

/-- The layers of a one-layer symbol of a direction: 0 up, 1 down. -/
def oneLayer (sf l : Nat) (xs : List Cx) : LayerRx :=
  let bs := bins sf l xs
  let ps := binPows bs
  ⟨l, peakOf ps, bs.getD (peakOf ps) Cx.zero, ps⟩

/-- A symbol of the preamble or port word of the burst in a context (R126, R151). Its position counts from symbol 11 back. -/
def Dev.slotPreamble (d : Dev) (n : Nat) (slot : Bool) (r : Reception) (xs : List Cx) : Dev :=
  let sf := (d.chirpGeom n).sf
  match r.det.step sf (d.detThresh n) (peakIn sf 0 xs) (peakIn sf 1 xs) with
  | .goes z => d.slotTook n slot { r with det := z } [oneLayer sf (if r.det.nextUp || r.det.sym9.isSome then 0 else 1) xs]
  | .ends => d.slotEnd n slot false
  | .word w =>
    if w = d.portWord n then
      let d1 := d.slotTook n slot { r with pwOk := true } [oneLayer sf 0 xs]
      let end_ := Int.fdiv r.next 65536 + d.symPlaces n
      let d2 := match d1.slot n slot, d1.cyclePos n (end_ - 10 * d.symPlaces n) with
        | some x, some c => d1.setSlot n slot (some { x with cycle := c.1, pos := c.2 })
        | _, _ => d1
      (d2.inc PORT.PRE_DET n).rxBoundary n (d.ticksOf n end_)
    else (d.pwReject n w).slotEnd n slot false

/-- K of a burst by its LEN (R143). -/
def Reception.frames (r : Reception) : Nat := 16 * r.len

/-- A symbol of the burst in a context: of its preamble, header or payload (R142, R199). -/
def Dev.contextSymbol (d : Dev) (n : Nat) (slot : Bool) : Dev :=
  match d.slot n slot with
  | none => d
  | some r =>
    let g := d.chirpGeom n
    if !d.slotReady n slot r then d
    else
      let xs := d.slotChips n slot r
      if !r.pwOk then d.slotPreamble n slot r xs
      else if r.heads.length < 2 then
        let y := oneLayer g.sf 0 xs
        d.slotTook n slot { r with heads := r.heads ++ [y.s], noise := (r.noise.1 + (sumOf y.pows - maxOf y.pows), r.noise.2 + (y.pows.length - 1)) } [y]
      else if r.accepted && decide (r.cols.length < d.payloadSyms n r.frames) then
        let ls := demod g.sf g.depth xs
        let col := (List.range g.depth).map (fun l => match ls.find? (fun y => y.l == l) with | some y => y.pows | none => [])
        d.slotTook n slot { r with cols := r.cols ++ [col] } ls
      else d

/-- A waiting candidate a symbol later: the correlator goes on counting its pattern (R161). -/
def Reception.waited (b : Reception) (len e : Int) : Reception :=
  if b.det.next + len ≤ e then
    { b with det := { b.det with since := b.det.since + 1, nextUp := !b.det.nextUp, next := b.det.next + len }, next := b.next + len * 65536 }
  else b

/-- A symbol interval of the correlator of a shared port: a detection starts a reception or is a collision candidate (R139, R160). -/
def Dev.sharedSymbol (d : Dev) (n : Nat) : Dev :=
  if !d.corrReady n then d
  else
    let sf := (d.chirpGeom n).sf
    let p := d.corrAt n
    let e := p + d.symPlaces n
    let m := d.corrSymbol n p
    let (d1, hit) := d.correlate n m
    let d2 := (d1.setCorr n e).modShared n (fun (x : SharedSt) => { x with waiting := x.waiting.map (fun (b : Reception) => b.waited (d.symPlaces n) e) })
    let d3 := match hit with
      | none => d2
      | some (r, up) =>
        if m.overlap then d2
        else
          match d2.candOf n r.pows (r.detect sf up p) with
          | none => d2
          | some b =>
            let held := (d2.slot n false).toList ++ (d2.slot n true).toList ++ (d2.shr n).waiting
            if held.any (fun a => sameReception sf a b) then d2 else d2.candidate n b
    let held := (d3.slot n false).toList ++ (d3.slot n true).toList
    d3.spinTrim n (held.foldl (fun (k : Int) (r : Reception) => min k (Int.fdiv r.next 65536)) e)

/-! ### Bursts (R142 to R153) -/

/-- The six header bits of a header symbol by its peak bin (R143). -/
def headerBits (sf peak : Nat) : Nat := ungray 6 ((2 * peak + 2 ^ (sf - 6)) / 2 ^ (sf - 5) % 64)

/-- An arrival offset recorded (R150, R167). -/
def Dev.arrival (d : Dev) (n s : Nat) (off : Int) : Dev := d.wr STN.LAST_OFFSET (stnKey n s) 0 (codeOf 16 off)

/-- An accepted burst checked against its window (R150, R151). -/
def Dev.burstSettle (d : Dev) (n : Nat) (slot : Bool) (r : Reception) : Dev :=
  match d.takesBurst n r with
  | none => (d.inc PORT.RANGE_ERR n).slotEnd n slot false
  | some (w, k) =>
    let off := r.pos - d.windowStart n w
    let put := fun (d : Dev) (x : Reception) => d.setSlot n slot (some x)
    let got := fun (d : Dev) (own : Bool) => (d.collUpdate n slot (fun c => { c with aWindow := w }) id).modShared n
      (fun (x : SharedSt) => { x with got := x.got ++ [(r.cycle, w, own)] })
    match k with
    | .granted s =>
      if r.stn ≠ s then
        let d1 := got ((put d { r with window := some w, discard := true }).inc PORT.WRONG_WINDOW n) false
        if r.len = 0 then d1.slotEnd n slot true else d1
      else if r.len ≠ d.burstCycle n / 16 then ((got d false).inc PORT.HDR_ERR n).slotEnd n slot false
      else (got (put d { r with window := some w }) true).arrival n s off
    | .contention =>
      if r.len ≠ 0 ∨ !r.flag then (d.inc PORT.HDR_ERR n).slotEnd n slot false
      else
        let d1 := (put d { r with window := some w }).modShared n
          (fun (x : SharedSt) => { x with joins := x.joins ++ [⟨w, r.stn, off, sumOf r.pows⟩] })
        d1.slotEnd n slot true
    | .idle => (d.inc PORT.RANGE_ERR n).slotEnd n slot false

/-- A burst header decoded (R143, R151). SOFT_SCALE is taken for the burst (R198). -/
def Dev.burstHeader (d : Dev) (n : Nat) (slot : Bool) (r : Reception) : Dev :=
  let sf := (d.chirpGeom n).sf
  let h := headerBits sf (r.heads.getD 0 0) * 64 + headerBits sf (r.heads.getD 1 0)
  let len := h / 32 % 8
  if crc4 (h / 16) ≠ h % 16 ∨ 2 < len then (d.inc PORT.HDR_ERR n).slotEnd n slot false
  else
    let x := { r with accepted := true, stn := h / 256 % 16, len := len, flag := h.testBit 4 }
    let d1 := (d.setSlot n slot (some x)).collUpdate n slot
      (fun c => { c with aValid := true, aStn := x.stn, fork := true }) (fun c => { c with bValid := true, bStn := x.stn })
    let d2 := (d1.collSettle n).settleAccepted n
    if d2.slot n slot = some x then (d2.latchScale n).burstSettle n slot x else d2

/-- A frame of a station handed to HEM; LABEL finishes it later (R152, R153). -/
def Dev.stnFrame (d : Dev) (n s ref : Nat) (bits : Option (List Bool)) : Dev :=
  let (d1, o) := d.hemFrame n s ref (10 * (1 + d.rd PORT.BURST_SLOTS n)) bits
  let num := FMap.get 0 d1.arch.frameNum (2 * n)
  let f : PortFrame := { num := num, lane := d1.frameLane n 0 num, stn := s, ref := ref, stage := 4, reported := false, late := false,
                         copy := FMap.get 0 d1.arch.copyDue (2 * n) == num + 1, soft := [], bits := [], words := o.words.drop 2, hem := some o, absent := bits.isNone, stamp := d1.timebase, placed := false, pow := (0, 0), ends := false }
  { d1 with arch := { d1.arch with
      frames := FMap.set [] d1.arch.frames (2 * n) (FMap.get [] d1.arch.frames (2 * n) ++ [f])
      frameNum := FMap.set 0 d1.arch.frameNum (2 * n) (num + 1) } }

/-- The frames of a cycle without a good burst of a station are absent (R152, R154). -/
def Dev.stnAbsent (d : Dev) (n s cycle : Nat) : Dev :=
  ((List.range (d.burstCycle n)).foldl (fun d i => d.stnFrame n s (cycle + i * frameTicks) none) d).modStn
    n s (fun (x : StnRx) => { x with wantLost := x.wantLost + 1 })

/-- A failed or missing burst of a station (R152, R167). -/
def Dev.burstBad (d : Dev) (n s cycle : Nat) : Dev := (d.stnAbsent n s cycle).inc STN.STN_BURST_BAD (stnKey n s)

/-- TA_ADJUST or RELEASE for a good burst off by more than TA_TRIM (R159). -/
def Dev.taAdjust (d : Dev) (n s : Nat) (off : Int) : Dev :=
  let x := d.stn n s
  if off.natAbs ≤ 4 * d.rd PORT.TA_TRIM n then d.modStn n s (fun (y : StnRx) => { y with taRun := 0 })
  else if (match x.taLast with | some t => decide (d.timebase < t + 4 * mfTicks) | none => false) then d
  else if 3 ≤ x.taRun then
    (d.modStn n s (fun (y : StnRx) => { y with taRun := 0 })).sendVendor n s (vendorMsg 0x23 s [s] false)
  else
    let v := codeOf 16 (-off)
    ((d.modStn n s (fun (y : StnRx) => { y with taRun := y.taRun + 1, taLast := some d.timebase })).inc STN.TA_ADJUSTS (stnKey n s)).sendVendor
      n s (vendorMsg 0x21 s [s, v / 256, v % 256] false)

/-- A good burst of a station (R152, R154, R155, R159). -/
def Dev.burstGood (d : Dev) (n s : Nat) (r : Reception) (snr off : Int) (frames : List (List Bool)) : Dev :=
  let k := stnKey n s
  let d1 := ((d.inc PORT.BURST_OK n).inc STN.STN_BURST_OK k).wr STN.BURST_SNR k 0 (codeOf 10 snr)
  let d2 := (frames.zipIdx).foldl (fun d f => d.stnFrame n s (r.cycle + f.2 * frameTicks) (some f.1)) d1
  let d3 := d2.modStn n s (fun (x : StnRx) =>
    { x with wantLost := 0, leaving := if r.flag then some (r.cycle + d2.burstCycle n * frameTicks) else x.leaving })
  let aligned := (d3.stn n s).hem.aligned
  let d4 :=
    if (d3.stnState n s = 1 ∧ aligned) ∨ d3.stnState n s = 3 then
      (((((d3.setStnState n s 2).modLab n s (fun (l : LabelSt) => { l with anyAlive := true })).clearFreezing n s 0).judgeShared n).raise .port n 19).judgeFailure n
    else d3
  let d5 := if d4.stnState n s = 2 ∧ aligned then d4.portUp n else d4
  d5.taAdjust n s off

/-- The soft values of a burst payload in the order of its coded bits, P from its header symbols (R144, R196, R199). -/
def Dev.burstSoft (d : Dev) (n : Nat) (r : Reception) : List Int :=
  let g := d.chirpGeom n
  let p := if r.noise.2 = 0 then 0 else r.noise.1 / r.noise.2
  deinterleave 0 (g.sf * g.depth) (r.cols.map (fun ls => ls.flatMap (chirpSoft g.sf (d.port n).scale p)))

/-- The SNR of a burst's payload symbols as in R123. -/
def Dev.burstSnr (d : Dev) (n : Nat) (r : Reception) : Int :=
  let g := d.chirpGeom n
  let a : Nat × Nat := (r.cols.flatMap id).foldl
    (fun (a : Nat × Nat) ps => (a.1 + (ps.length * maxOf ps - sumOf ps), a.2 + (sumOf ps - maxOf ps))) (0, 0)
  snrOf g.depth g.sf a d.free

/-- A burst payload decoded and settled (R152, R205, R209, R210). -/
def Dev.burstPayload (d : Dev) (n : Nat) (slot : Bool) (r : Reception) : Dev :=
  let g := d.chirpGeom n
  let vs := d.burstSoft n r
  let k := r.frames
  let soft := depuncture g.cr (infoOf g.cr (d.payloadSyms n k * g.sf * g.depth)) 0 vs
  let bits := decodeBlock n soft
  let w := 10 * (2 + d.rd PORT.BURST_SLOTS n)
  let good := crc10 (bits.take (k * w)) == bitsVal ((bits.drop (k * w)).take 10)
  let (c, e, _) := recount bits soft 0
  let d1 := ({ d with free := d.free + 1 }).modPort n (fun (x : PortSt) => { x with darn := { x.darn with
    bits := x.darn.bits + c
    errs := x.darn.errs + e
    eras := x.darn.eras + (vs.filter (fun v => v == 0)).length } })
  let d2 := if good || r.discard then d1 else d1.inc PORT.BURST_CHK_ERR n
  let d3 :=
    if r.discard then d2
    else
      let off := d2.rdS STN.LAST_OFFSET (stnKey n r.stn)
      if good then d2.burstGood n r.stn r (d.burstSnr n r) off ((List.range k).map (fun i => (bits.drop (i * w)).take w))
      else (List.range (k / 16)).foldl (fun d i => d.crcResult n r.stn (r.cycle + i * mfTicks) .errored) (d2.burstBad n r.stn r.cycle)
  d3.slotEnd n slot good

/-- What the end of a granted window finds (R152): the start of its cycle, the station, and whether no burst at all was accepted in it. -/
def Dev.missedWindow (d : Dev) (n w : Nat) : Option (Nat × Nat × Bool) :=
  let x := d.shr n
  let closes := fun (c : Nat) => c + (w + 1) * d.windowSyms n * d.symTicks n
  let judge := fun (at? : Option Nat) (m : GrantMap) =>
    match at?, d.windowKind n m w with
    | some c, .granted s =>
      let es := x.got.filter (fun e => e.1 == c && e.2.1 == w)
      if closes c ≤ d.timebase && !es.any (fun e => e.2.2) then some (c, s, es.isEmpty) else none
    | _, _ => none
  if d.rd PORT.WINDOWS n ≤ w then none
  else match judge x.prevAt x.prevMap with
    | some r => some r
    | none => judge x.cycleAt x.map

/-- An ACTIVE station becomes LOST; with no station left ACTIVE the port goes DOWN (R154, R155, R249, R256). -/
def Dev.stationLost (d : Dev) (n s : Nat) : Dev :=
  let d1 := ((d.setStnState n s 3).modStn n s (fun (x : StnRx) => { x with lostAt := d.timebase })).raise .port n 20
  let d2 := (d1.setDefect n s 0 true).judgeShared n
  (if (d2.activeStns n).isEmpty then d2.portDown n else d2).judgeFailure n

/-! ### Meanings -/

/-- CHIRP_SYMBOL_RX (R119, R125 to R127, R160): SPIN takes the next symbol interval of the correlator and of a continuous stream, or the next
symbol of the burst in a context, from what RINSE has brought. The correlator of a port whose configuration is invalid makes no detection
(R117). -/
def execChirpSymbolRx (port : Fin 512) (ctx : Option Bool) (s : State) : Host.Outcome State Fault Refusal :=
  stay s (whenDev (fun d => d.enabled port && d.rd PORT.LC_ACTIVE port == 1 && !d.cfgBad port)
    (fun d =>
      match d.shared port, ctx with
      | true, none => d.sharedSymbol port
      | true, some f => d.contextSymbol port f
      | false, none => d.chirpSymbol port
      | false, some _ => d))

/-- BURST_HEADER_RX (R151): both header symbols of the reception in a context have been demodulated. -/
def execBurstHeaderRx (port : Fin 512) (fork : Bool) (s : State) : Host.Outcome State Fault Refusal :=
  stay s (fun d =>
    match d.slot port fork with
    | some r => if d.shared port && r.pwOk && !r.accepted && r.heads.length == 2 then d.burstHeader port fork r else d
    | none => d)

/-- BURST_PAYLOAD_RX (R152): every payload symbol of the reception in a context has been demodulated. -/
def execBurstPayloadRx (port : Fin 512) (fork : Bool) (s : State) : Host.Outcome State Fault Refusal :=
  stay s (fun d =>
    match d.slot port fork with
    | some r =>
      if d.shared port && r.accepted && r.len != 0 && r.cols.length == d.payloadSyms port r.frames then d.burstPayload port fork r else d
    | none => d)

/-- BURST_MISSED (R152): a granted window has ended without a burst of its station; one in which another's was accepted is not missing. -/
def execBurstMissed (port : Fin 512) (window : Fin 16) (s : State) : Host.Outcome State Fault Refusal :=
  stay s (fun d =>
    match (if d.shared port then d.missedWindow port window else none) with
    | some (c, st, none') =>
      let d1 := d.modShared port (fun (x : SharedSt) => { x with got := x.got ++ [(c, window.val, true)] })
      if none' then (d1.inc PORT.BURST_MISSED port).burstBad port st c else d1.stnAbsent port st c
    | none => d)

/-- JOIN_TIMEOUT (R154). -/
def execJoinTimeout (port : Fin 512) (stn : Fin 16) (s : State) : Host.Outcome State Fault Refusal :=
  stay s (whenDev (fun d => d.stnState port stn == 1 && d.passed (d.stn port stn).joinAt (msTicks 64))
    (fun d => (d.stnFree port stn).joinReject port))

/-- STN_LOST (R154, R155). -/
def execStnLost (port : Fin 512) (stn : Fin 16) (s : State) : Host.Outcome State Fault Refusal :=
  stay s (whenDev
    (fun d => d.stnState port stn == 2 && decide (d.rd PORT.BURST_LOS port ≤ (d.stn port stn).wantLost))
    (fun d => d.stationLost port stn))

/-- STN_DROP (R154). -/
def execStnDrop (port : Fin 512) (stn : Fin 16) (s : State) : Host.Outcome State Fault Refusal :=
  stay s (whenDev
    (fun d => d.stnState port stn == 3 && d.passed (d.stn port stn).lostAt (msTicks (100 * d.rd PORT.DROP_TIME port)))
    (fun d => (d.stnFree port stn).inc PORT.STN_DROPS port))

/-- STN_LEAVE (R154). -/
def execStnLeave (port : Fin 512) (stn : Fin 16) (s : State) : Host.Outcome State Fault Refusal :=
  stay s (whenDev
    (fun d => d.stnState port stn != 0 && match (d.stn port stn).leaving with | some t => decide (t ≤ d.timebase) | none => false)
    (fun d => d.stnFree port stn))

end Sys2Proof.Machine
end

