-- ==== Sys2Proof/Machine/Receive.lean ====
section
/-! DEFINITION. The receive stages of a lane: how each finishes a port-frame, its deadline, and abandonment (R17 to R25, R92 to R94,
R123, R175 to R178, R200 to R209, R245, R280, R294). -/

namespace Sys2Proof.Machine

/-! ### Port-frames in their lane -/

/-- Whether port-frame `num` of a direction bears a copy delay: it is the switch frame F of a move (R25). -/
def Dev.bearsCopy (d : Dev) (n dir num : Nat) : Bool := FMap.get 0 d.arch.copyDue (2 * n + dir) == num + 1

/-- A port-frame put into its lane: lane Y of a move from the switch frame on (R34). -/
def Dev.addFrame (d : Dev) (n dir : Nat) (f : PortFrame) : Dev :=
  let num := d.nextNum n dir
  let d1 := d.setLane n dir (d.lane n dir ++ [{ f with num := num, lane := d.frameLane n dir num, copy := d.bearsCopy n dir num }])
  { d1 with arch := { d1.arch with frameNum := FMap.set 0 d1.arch.frameNum (2 * n + dir) (num + 1) } }

/-- A port-frame of a boundary. -/
def PortFrame.at (ref stamp stage : Nat) : PortFrame :=
  { num := 0, lane := 0, stn := 0, ref := ref, stage := stage, reported := false, late := false, copy := false, soft := [], bits := [], words := [],
    hem := none, absent := false, stamp := stamp, placed := false, pow := (0, 0), ends := false }

/-- The line-to-trunk delay of a port in frames (R17). -/
def Dev.l2t (d : Dev) (n : Nat) : Nat := d.rd DEV.L2T_DELAY + (if d.shared n then d.burstCycle n else 0)

/-- The margin of a port-frame: a change moves the deadlines of those whose reference boundary is at or after the boundary where it applies
(R18, R40). -/
def Dev.marginOf (d : Dev) (f : PortFrame) : Nat := if f.ref < d.arch.marginAt then d.arch.marginWas else d.margin

/-- The deadline of a port-frame (R18, R19). -/
def Dev.deadline (d : Dev) (n dir : Nat) (f : PortFrame) : Nat :=
  if dir = 0 then f.ref + d.l2t n * frameTicks - d.marginOf f else f.ref - d.marginOf f

/-- A stage has finished a port-frame: the stamp, TIMEBASE, is compared with the deadline; the first late stage reports, and the
port-frame is late from then on (R20 to R22). At DARN every port-frame of a port with DARN_DELAY ≥ L2T_DELAY misses its deadline (R202). -/
def Dev.stageDone (d : Dev) (n dir stage : Nat) (f : PortFrame) : Dev :=
  let late := decide (d.deadline n dir f < d.timebase) || (stage == 3 && decide (d.rd DEV.L2T_DELAY ≤ d.darnDelay n))
  let d1 := d.modFrame n dir f.num (fun (g : PortFrame) => { g with stage := stage, late := g.late || late, reported := g.reported || late })
  if late && !f.reported then d1.deadlineMiss n f.lane dir stage false f.copy else d1

/-! ### The switch of a moving port (R34) -/

/-- The port-frames of a port that lane X still has to process before it has finished F − 1: those before `a` (receive) and `b` (transmit)
in their lane. One whose decoding waits for port-frames after F − 1 (R202) goes over with the decoder's context once it is demodulated
(DEDUCED, log entry 115). -/
def Dev.beforeF (d : Dev) (n a b : Nat) : Bool :=
  (d.lane n 0).any (fun f => decide (f.num < a) &&
    !(decide (a ≤ f.num + d.darnDelay n) && (f.stage == 1 || f.stage == 2 || f.absent))) ||
  (d.lane n 1).any (fun f => decide (f.num < b) && f.stage != 10)

/-- Whether the copy of a moving port's context can begin: its switch frame is chosen, lane X has finished F − 1, lane Y has a free context,
and no programme change runs (R13, R34, R39). -/
def Dev.canSwitch (d : Dev) (n : Nat) : Bool :=
  d.arch.moves.any (fun m => m.port == n && m.copying.isNone && decide ((d.lanePorts m.target).length < 64) &&
    (match m.f with | some (a, b) => !d.beforeF n a b | none => false))

/-- Whether the next port-frame of a direction has to wait for the copy of its port's context: lane Y starts F only after it (R34). -/
def Dev.awaitsCopy (d : Dev) (n dir : Nat) : Bool :=
  d.arch.moves.any (fun m => m.port == n && (match m.f with
    | some (a, b) => decide ((if dir = 0 then a else b) ≤ d.nextNum n dir)
    | none => false))

/-- PORT_MOVE_SWITCH (R34). -/
def execPortMoveSwitch (port : Fin 512) (s : State) : Host.Outcome State Fault Refusal :=
  stay s (whenDev (fun d => d.canSwitch port) (fun d => d.moveSwitch port))

/-! ### The reference boundary (R17, R280, R283, R294) -/

/-- An uncontrolled slip of a SELF or TRIB port in Profile S: a boundary taken twice or passed over (R294). -/
def Dev.looseSlip (d : Dev) (n ref : Nat) : Dev :=
  let slipped := match (d.slip n).b with
    | some b => ref != b + frameTicks && (d.tribs n).any (fun t => !d.on TRIB.PLEAT t)
    | none => false
  let d1 := d.setSlip n { d.slip n with b := some ref }
  if slipped then d1.inc PORT.SLIPS n else d1

/-- A LOOP port's wander store: the stamp that its phase φ yields, or φ set afresh (R280). -/
def Dev.wander (d : Dev) (n phi stamp : Nat) : Dev × Nat :=
  let e := (stamp + frameTicks - d.sys.sysPhase % frameTicks) % frameTicks
  let off : Int := ((e : Int) - (phi : Int) + 10240) % 20480 - 10240
  let kept := ((stamp : Int) - off).toNat
  if off.natAbs ≤ d.rd PORT.WANDER_LIM n then (d, kept)
  else
    let d1 := ({ d with sys := { d.sys with phi := FMap.set none d.sys.phi n (some e) } }).inc PORT.WANDER_HIT n
    let old := nextAt d.sys.sysPhase frameTicks kept
    let new := nextAt d.sys.sysPhase frameTicks stamp
    if old = new then (d1, stamp)
    else (((d1.inc PORT.SLIPS n).inc (if old < new then PORT.SLIP_REPEAT else PORT.SLIP_DROP) n).labelSlip n 0, stamp)

/-- The reference boundary of a receive port-frame by the stamp of its last sample. A frame that goes to a slip buffer carries the
boundary of an average fill until SLIP gives it one. -/
def Dev.refOf (d : Dev) (n stamp : Nat) : Dev × Nat :=
  let plain := nextAt d.sys.sysPhase frameTicks stamp
  if d.slipping n then (d, nextAt d.sys.sysPhase frameTicks (stamp + 30720))
  else if d.timingMode n ≠ 0 then (d.looseSlip n plain, plain)
  else
    match (if d.shared n then none else FMap.get none d.sys.phi n) with
    | some phi => let (d1, t) := d.wander n phi stamp; (d1, nextAt d.sys.sysPhase frameTicks t)
    | none => (d, plain)

/-- φ is fixed at a LOOP port's first frame alignment (R280). -/
def Dev.fixPhase (d : Dev) (n stamp : Nat) : Dev :=
  if d.timingMode n != 0 || d.shared n || (FMap.get none d.sys.phi n).isSome then d
  else
    { d with sys := { d.sys with phi := FMap.set none d.sys.phi n (some ((stamp + frameTicks - d.sys.sysPhase % frameTicks) % frameTicks)) } }

/-! ### RINSE, and the energy detector (R91 to R94, R103, R245) -/

/-- A receive port-frame of a last sample's stamp begins its way; a multiframe's measurements end with it or not (log entry 24). -/
def Dev.startFrame (d : Dev) (n ref stamp stage : Nat) : Dev :=
  let c := d.mfEnded ref
  let num := d.nextNum n 0
  (d.addFrame n 0 { PortFrame.at ref stamp stage with ends := decide ((d.port n).mfSeen < c) }).modPort n
    (fun (x : PortSt) => { x with rxNext := num + 1, mfSeen := max x.mfSeen c })

/-- The granted upstream windows of a shared port's present cycle and the one before: cycle start, window, start, end (R146). -/
def Dev.grantedWindows (d : Dev) (n : Nat) : List ((Nat × Nat) × Nat × Nat) :=
  let x := d.shr n
  let len := d.windowSyms n * d.symTicks n
  let of := fun (at? : Option Nat) (m : GrantMap) =>
    match at? with
    | none => []
    | some c => (List.range (d.rd PORT.WINDOWS n)).filterMap (fun w =>
        match d.windowKind n m w with | .granted _ => some ((c, w), c + w * len, c + (w + 1) * len) | _ => none)
  of x.prevAt x.prevMap ++ of x.cycleAt x.map

/-- A sum of squares and a count added per granted window. -/
def addWin (key : Nat × Nat) (p : Nat × Nat) : List ((Nat × Nat) × (Nat × Nat)) → List ((Nat × Nat) × (Nat × Nat))
  | [] => [(key, p)]
  | x :: r => if x.1 = key then (key, (x.2.1 + p.1, x.2.2 + p.2)) :: r else x :: addWin key p r

/-- The power of some samples. -/
def sqSum (zs : List (Nat × Nat)) : Nat × Nat := (sumOf (zs.map Prod.snd), zs.length)

/-- Samples, by number and square, measured for RX_LEVEL: over the multiframe, or over each granted window of a shared port (R103). -/
def Dev.levelAdd (d : Dev) (n : Nat) (zs : List (Nat × Nat)) : Dev :=
  let x := d.rinse n
  if d.shared n then
    d.setRinse n { x with wins := (d.grantedWindows n).foldl (fun ws g =>
      match zs.filter (fun z => let t := d.stampOf n z.1; decide (g.2.1 ≤ t ∧ t < g.2.2)) with
      | [] => addWin g.1 (0, 0) ws
      | ys => addWin g.1 (sqSum ys) ws) x.wins }
  else d.setRinse n { x with level := (x.level.1 + (sqSum zs).1, x.level.2 + zs.length) }

/-- The mean power of a multiframe at its end: on a shared port the highest of the granted windows that have ended by TIMEBASE `t`; where there
was none the spec measures nothing (R103). -/
def Dev.levelEnd (d : Dev) (n t : Nat) : Dev :=
  let x := d.rinse n
  if d.shared n then
    let len := d.windowSyms n * d.symTicks n
    let past := fun (w : (Nat × Nat) × (Nat × Nat)) => decide (w.1.1 + (w.1.2 + 1) * len ≤ t)
    let done := x.wins.filter past
    let d1 := d.setRinse n { x with wins := x.wins.filter (fun w => !past w) }
    if done.isEmpty then ({ d1 with free := d1.free + 1 }).showLevel n (Config.powerNone d1.free)
    else d1.showLevel n (maxOf (done.map (fun w => w.2.1 / max 1 w.2.2)))
  else (d.setRinse n { x with level := (0, 0) }).showLevel n (x.level.1 / max 1 x.level.2)

/-- What RINSE measures over a multiframe ends with a port-frame whose last sample has the stamp `t`. -/
def Dev.rinseEnd (d : Dev) (n t : Nat) : Dev := (d.levelEnd n t).rinseMfEnd n

/-- The samples of a port-frame pass RINSE: fills, over-range and alarm counts, DC removal, the level, and the demodulator's input (R91 to R93,
R103). The power of the far-end signal goes with the port-frame (R94). -/
def Dev.rinseFrame (d : Dev) (n num index stamp : Nat) (ends : Bool) (ws : List Nat) : Dev :=
  let xs := d.rinseWords n index ws
  let live := xs.filter (fun x => !x.2.2)
  let (ys, dc) := dcRun (d.rd PORT.DC_SHIFT n) (d.rinse n).dc (xs.map (fun x => sampleOf x.2.1 * 65536))
  let d1 := d.setRinse n { d.rinse n with dc := dc, fills := (d.rinse n).fills.filter (fun e => decide (index < e.1 + e.2)) }
  let d2 := d1.levelAdd n (((xs.zip ys).filter (fun z => !z.1.2.2)).map (fun z => (z.1.1, z.2.natAbs ^ 2)))
  let d3 := d2.rinseCounts n (live.filter (fun x => overRange x.2.1)).length (xs.any (fun x => x.2.2)) (live.any (fun x => x.2.1.testBit 0))
  let d4 := if ends then d3.rinseEnd n stamp else d3
  let (d5, pow) := d4.rinseOut n (index + 1 - ws.length) ys
  d5.modFrame n 0 num (fun (f : PortFrame) => { f with pow := pow })

/-- RINSE starts a port-frame's way and finishes it, once its last sample is due. -/
def Dev.rinseStage (d : Dev) (n index : Nat) (ws : List Nat) : Dev :=
  let stamp := d.stampOf n index
  if d.timebase < stamp then d
  else
    let (d1, ref) := d.refOf n stamp
    let num := d1.nextNum n 0
    let ends := decide ((d1.port n).mfSeen < d1.mfEnded ref)
    let d2 := ((d1.startFrame n ref stamp 0).rinseFrame n num index stamp ends ws).judgeService n
    match (d2.lane n 0).find? (fun f => f.num == num) with
    | some f => d2.stageDone n 0 0 f
    | none => d2

/-- Whether a shared port's frame that ends at `stamp` holds a granted upstream window (R94, R146). -/
def Dev.holdsWindow (d : Dev) (n stamp : Nat) : Bool :=
  (d.grantedWindows n).any (fun g => decide (g.2.1 < stamp ∧ stamp < g.2.2 + frameTicks))

/-- A frame of the energy detector, in 0.25 dBFS: low, high or neither; 8 low frames declare LOS, 16 high ones clear it; PAM
activation counts low frames (R94, R180, R245). -/
def Dev.losFrame (d : Dev) (n : Nat) (f : PortFrame) : Dev :=
  let energy := dbfs f.pow.1 f.pow.2
  let d0 := d.wr PORT.FRAME_ENERGY n 0 (codeOf 10 energy)
  let th := d0.rdS PORT.LOS_THRESH n
  let neither := (d0.shared n && !d0.holdsWindow n f.stamp) || FMap.get 0 d0.starch.window n != 0
  let low := !neither && decide (energy < th)
  let high := !neither && decide (th + (d0.rd PORT.LOS_HYST n : Int) ≤ energy)
  let x := d0.port n
  let a := if low then min 8 (x.losLow + 1) else if high then 0 else x.losLow
  let b := if high then min 16 (x.losHigh + 1) else if low then 0 else x.losHigh
  let d1 := d0.modPort n (fun (y : PortSt) => { y with losLow := a, losHigh := b })
  let d2 := if a = 8 ∧ low then d1.setLos n true else if b = 16 ∧ high then (if d1.shared n then d1.setLos n false else d1.clearFreezing n 0 0) else d1
  d2.pamEnergy n low high

/-! ### SPIN and WRING -/

/-- The counts of a multiframe reported (R209, R210, R255, R264). -/
def Dev.preReport (d : Dev) (n ref : Nat) : Dev :=
  let x := (d.port n).darn
  let d1 := ((((d.wr PORT.PRE_BITS_MF n 0 (min 65535 x.bits)).wr PORT.PRE_ERR_MF n 0 (min 65535 x.errs)).inc PORT.PRE_ERR_TOTAL n 0 x.errs).wr
    PORT.ERASURES_MF n 0 (min 65535 x.eras)).pmAdd n 6 x.errs ref
  (d1.preWarn n x.errs x.bits).modPort n (fun (y : PortSt) =>
    { y with darn := { y.darn with bits := 0, errs := 0, eras := 0 }, tx := { y.tx with preErr := min 255 x.errs } })

/-- A port-frame of a shared port leaves its lane after SPIN: its bursts are decoded apart, and their counts are reported with the last
frame of a multiframe (R209). -/
def Dev.sharedDone (d : Dev) (n : Nat) (f : PortFrame) : Dev :=
  (if f.ends then d.preReport n f.ref else d).dropFrame n 0 f.num

/-- The symbols of a port-frame taken from those that the demodulator has brought; those of port-frames that were abandoned go. A port-frame
before the stream has none; one whose symbols have not all come has to wait. -/
def Dev.takeSymbols (d : Dev) (n num : Nat) : Option (List (List Int) × Dev) :=
  let x := d.port n
  let k := (d.geom n).syms
  let off := (num - x.symFrame) * k
  if num < x.symFrame then some ([], d)
  else if x.symbols.length < off + k then none
  else some ((x.symbols.drop off).take k, d.modPort n (fun (y : PortSt) => { y with symbols := x.symbols.drop (off + k), symFrame := num + 1 }))

/-- What SPIN or WRING measures over a multiframe ends (R121, R123, R178). -/
def Dev.demodEnd (d : Dev) (n : Nat) : Dev :=
  if d.isPam n then d.showPam n
  else
    let x := (d.port n).spin
    ((d.wr PORT.RX_LEVEL_NEC n 0 (codeOf 10 (dbfs x.pow.1 x.pow.2))).modPort n (fun (y : PortSt) =>
      { y with spin := { y.spin with pow := (0, 0) } })).showSnr n

/-- SPIN finishes a chirp port's oldest port-frame: the soft bits of its symbols, read back through the interleaver (R195, R199). Without a
stream, and on a shared port, whose bursts are decoded apart, it passes without any. -/
def Dev.spinStage (d : Dev) (n : Nat) : Dev :=
  match (d.lane n 0).find? (fun f => f.stage == 0 && !f.absent) with
  | none => d
  | some f =>
    let g := d.chirpGeom n
    match (if (d.port n).spin.next.isSome && !d.shared n then d.takeSymbols n f.num else some ([], d)) with
    | none => d
    | some (ss, d0) =>
      let soft := if ss.isEmpty then [] else deinterleave 0 (g.sf * g.depth) ss
      let d1 := d0.modFrame n 0 f.num (fun (h : PortFrame) => { h with soft := soft })
      let x := (d1.port n).spin
      let d2 := (d1.losFrame n f).wr PORT.CLK_OFFSET n 0 (codeOf 16 (Int.fdiv x.eps 65536))
      let d4 := (if f.ends then d2.demodEnd n else d2).stageDone n 0 1 f
      if d4.shared n then d4.sharedDone n f else d4

/-- A slicer threshold moved toward its target by at most one code, by the means of the multiframe before; one beside a level without decisions
stays (R177). -/
def Dev.moveThresh (d : Dev) (n : Nat) : Dev :=
  let means := (d.port n).wring.means
  let mean := fun (i : Nat) => match means[i]? with | some (s, k) => if k = 0 then none else some (Int.fdiv s k) | none => none
  (List.range (2 ^ d.pamBits n - 1)).foldl
    (fun d i =>
      match mean i, mean (i + 1) with
      | some a, some b =>
        let target := Int.fdiv (a + b) 2 + d.rdS PORT.OFS_TRIM n i
        let now := d.rdS PORT.THRESH n i
        d.wr PORT.THRESH n i (codeOf 10 (if now < target then now + 1 else if target < now then now - 1 else now))
      | _, _ => d) d

/-- WRING finishes a PAM port's oldest port-frame: in DATA and WARM the soft bits of its slicer inputs (R177, R178, R200). -/
def Dev.wringStage (d : Dev) (n : Nat) : Dev :=
  match (d.lane n 0).find? (fun f => f.stage == 0 && !f.absent) with
  | none => d
  | some f =>
    let d0 := d.wringAdvance n
    match (if 7 ≤ d0.act n then d0.takeSymbols n f.num else some ([], d0)) with
    | none => d0
    | some (ss, d1) =>
      let d2 := d1.modFrame n 0 f.num (fun (h : PortFrame) => { h with soft := ss.flatMap id })
      let d3 := ((d2.losFrame n f).wr PORT.PAM_CLK_OFFSET n 0 (codeOf 16 (Int.fdiv (d2.port n).wring.eq.eps 65536))).moveThresh n
      (if f.ends then d3.demodEnd n else d3).stageDone n 0 2 f

/-! ### DARN (R201 to R209) -/

/-- The decoded bits of port-frame `num`, and the decoder after them; those of absent port-frames before it are dropped. -/
def DarnSt.takeFor (num info : Nat) : Nat → DarnSt → Option (List Bool × DarnSt)
  | 0, _ => none
  | fuel + 1, x =>
    match x.take info with
    | some ((k, _), bs, y) => if k = num then some (bs, y) else if k < num then DarnSt.takeFor num info fuel y else none
    | none => none

/-- DARN finishes the oldest port-frame before it: once port-frame k + DARN_DELAY is in hand and every bit of k is released (R201,
R202). An absent one passes as erasures. -/
def Dev.darnStage (d : Dev) (n : Nat) : Dev :=
  let fs := d.lane n 0
  match fs.find? (fun f => f.stage == 99 || f.stage < 3) with
  | none => d
  | some f =>
    let report := fun (d : Dev) => if f.ends then d.preReport n f.ref else d
    let skip := fun (d : Dev) => report (d.modFrame n 0 f.num (fun (g : PortFrame) => { g with absent := true, stage := 3 }))
    if f.absent then skip (d.darnFeed n f.num)
    else if f.stage = 0 then d
    else if f.num < (d.port n).darn.next ∧ !(d.port n).darn.fed.any (fun e => e.1 == f.num) then skip d
    else
      let last := f.num + d.darnDelay n
      if !fs.any (fun g => g.num == last) || fs.any (fun g => decide (g.num ≤ last) && g.stage == 0 && !g.absent) then d
      else
        let d1 := d.darnFeed n last
        match DarnSt.takeFor f.num (d.geom n).info (fs.length + 1) (d1.port n).darn with
        | none => d
        | some (bs, y) =>
          let d2 := (d1.modPort n (fun (x : PortSt) => { x with darn := y })).modFrame n 0 f.num (fun (g : PortFrame) => { g with bits := bs })
          (report d2).stageDone n 0 3 { f with bits := bs }

/-! ### HEM and LABEL -/

/-- HEM finishes the oldest port-frame that DARN has finished (R235 to R238). -/
def Dev.hemStage (d : Dev) (n : Nat) : Dev :=
  match (d.lane n 0).find? (fun f => f.stage == 3) with
  | none => d
  | some f =>
    let was := (d.stn n 0).hem.decl.isSome
    let (d1, o) := d.hemFrame n 0 f.ref ((d.geom n).info - 10) (if f.absent then none else some (f.bits.take (10 * d.rxWords n)))
    let anew := !was && (d1.stn n 0).hem.decl.isSome
    let d2 := if anew then (if d1.slipping n then d1.slipRestart n else d1.fixPhase n f.stamp) else d1
    let d3 := d2.modFrame n 0 f.num (fun (g : PortFrame) => { g with hem := some o, words := o.words.drop 2 })
    if f.absent then d3.modFrame n 0 f.num (fun (g : PortFrame) => { g with stage := 4 })
    else d3.stageDone n 0 4 { f with hem := some o, words := o.words.drop 2 }

/-- The slot words of a port-frame go on their way to the walk, with the tributaries that are failed; late ones are discarded (R17,
R21, R258). -/
def Dev.deliver (d : Dev) (n num : Nat) : Dev :=
  match (d.lane n 0).find? (fun f => f.num == num) with
  | none => d
  | some f =>
    let d1 := d.dropFrame n 0 num
    if f.late then d1
    else d1.putDue (d.dueKey n f.stn) (f.ref + d.l2t n * frameTicks) f.words ((d.stnTribs n f.stn).filter d.tribFailed)

/-- Whether a port's tributaries pass PLEAT (R286). -/
def Dev.pleating (d : Dev) (n : Nat) : Bool := d.profileS && d.timingMode n != 0

/-- LABEL finishes the oldest port-frame that HEM has finished; for it a port-frame abandoned since is absent, and the multiframe that it closes
has no result (R23, R232); the PM second of its reference boundary takes the marks of R263. -/
def Dev.labelStage (d : Dev) (n : Nat) : Dev :=
  match (d.lane n 0).find? (fun f => f.stage == 4) with
  | none => d
  | some f =>
    let o : HemOut := f.hem.getD ⟨true, none, [], none, false, none, none⟩
    let o1 := if f.absent then { o with absent := true, words := [], oh0 := none, crc := o.crc.map (fun _ => .none) } else o
    let d1 := d.labelFrame n f.stn f.ref o1
    let d2 := d1.pmMark n f.ref (fun x =>
      { x with failed := x.failed || d1.portFailed n, farEnd := x.farEnd || d1.defect n 4 })
    if f.absent then d2.dropFrame n 0 f.num
    else
      let d3 := d2.stageDone n 0 5 f
      if d3.shared n || !(d3.slipping n || d3.pleating n) then d3.deliver n f.num else d3

/-! ### SLIP and PLEAT -/

/-- SLIP finishes the oldest port-frame that it has placed (R283, R284). -/
def Dev.slipStage (d : Dev) (n : Nat) : Dev :=
  match (d.lane n 0).find? (fun f => f.stage == 5 && f.placed) with
  | none => d
  | some f => (d.stageDone n 0 6 f).deliver n f.num

/-- PLEAT finishes the oldest port-frame that LABEL has finished: its pleated tributaries' words enter their pleaters (R288). -/
def Dev.pleatStage (d : Dev) (n : Nat) : Dev :=
  match (if d.pleating n then (d.lane n 0).find? (fun f => f.stage == 5) else none) with
  | none => d
  | some f =>
    let d1 := ((d.tribs n).filter (fun t => d.pleated t && d.rd TRIB.RX_SLOT t != 0 && !d.tribFailed t)).foldl
      (fun (d : Dev) t => match f.words[d.rd TRIB.RX_SLOT t - 1]? with
        | some w => d.pleatWord (d.rd TRIB.PLEAT_IDX t) w
        | none => d) d
    (d1.stageDone n 0 7 f).deliver n f.num

/-! ### Abandonment (R23) -/

/-- The stage that a receive port-frame is in, by the last one that finished it (R43). -/
def Dev.stageIn (d : Dev) (n : Nat) (f : PortFrame) : Nat :=
  match f.stage with
  | 0 => if d.isPam n then 2 else 1
  | 1 => 3
  | 2 => 3
  | 3 => 4
  | 4 => 5
  | 5 => if d.slipping n then 6 else 7
  | _ => 0

/-- The deadline of the port-frame that follows: the next of its station in the lane, or one frame later. -/
def Dev.nextDeadline (d : Dev) (n : Nat) (f : PortFrame) : Nat :=
  match (d.lane n 0).find? (fun g => g.num > f.num && g.stn == f.stn) with
  | some g => d.deadline n 0 g
  | none => d.deadline n 0 f + frameTicks

/-- A receive port-frame is abandoned: one DEADLINE_MISS unless it has given one; later stages treat it as absent (R23). A multiframe's
measurements that were to end with it end all the same. -/
def Dev.abandon (d : Dev) (n : Nat) (f : PortFrame) : Dev :=
  let d0 := if f.ends ∧ f.stage = 99 then d.rinseEnd n f.stamp else d
  let d1' := if f.ends ∧ (f.stage = 0 ∨ f.stage = 99) then d0.demodEnd n else d0
  let d1 := if f.reported then d1' else d1'.deadlineMiss n f.lane 0 (d.stageIn n f) true f.copy
  if 5 ≤ f.stage ∧ f.stage ≠ 99 then d1.dropFrame n 0 f.num
  else if (f.stage = 0 ∨ f.stage = 99) ∧ d1.shared n then d1.sharedDone n f
  else d1.modFrame n 0 f.num (fun (g : PortFrame) => { g with absent := true, reported := true, late := true })

/-- PORT_FRAME_ABANDON (R23). `rinsing` numbers the last sample of a port-frame that RINSE has not finished. -/
def execPortFrameAbandon (port : Fin 512) (rinsing : Option Nat) (s : State) : Host.Outcome State Fault Refusal :=
  stay s (whenDev (fun d => d.enabled port)
    (fun d =>
      match rinsing with
      | some index =>
        let stamp := d.stampOf port index
        let (d1, ref) := d.refOf port stamp
        let num := d1.nextNum port 0
        if d1.deadline port 0 (PortFrame.at (ref + frameTicks) stamp 99) ≤ d1.timebase then
          let d2 := d1.startFrame port ref stamp 99
          match (d2.lane port 0).find? (fun f => f.num == num) with
          | some f => d2.abandon port f
          | none => d2
        else d
      | none =>
        match (d.lane port 0).find? (fun f => !f.absent) with
        | some f => if d.nextDeadline port f ≤ d.timebase then d.abandon port f else d
        | none => d))

end Sys2Proof.Machine
end

