-- ==== Sys2Proof/Machine/Transmit.lean ====
section
/-! DEFINITION. FOLD, the encoder and the transmitter of a port, what falls on a port's downstream multiframe boundaries, and the reset of a
port's logic (R24, R30, R84, R85, R128, R132, R147, R149, R171, R172, R179 to R187, R192 to R195, R205 to R207, R212 to R231, R234, R259, R281,
R306, R424). -/

namespace Sys2Proof.Machine

/-! ### Downstream multiframe boundaries -/

/-- The next downstream multiframe boundary of a port; a TRIB port that transmits runs at its own rate (R291, log entry 22). -/
def Dev.dsNext (d : Dev) (n : Nat) : Nat :=
  let x := d.port n
  let plain := d.dsAfter n x.dsLast
  match (if d.timingMode n = 2 then x.tx.start else none) with
  | some t =>
    if plain < t then plain
    else if x.dsLast < x.tx.mfStart then x.tx.mfStart
    else x.tx.next + (16 - x.tx.count % 16) % 16 * frameTicks
  | none => plain

/-- The bytes of a queued DCC message as sent: ALIVE and the CRC-16 set, filled up to whole blocks (R227, R229). -/
def DccMsg.sent (m : DccMsg) (alive : Nat) : List Nat :=
  let body := m.bytes.set 1 (m.bytes.getD 1 0 / 16 * 16 + alive)
  let crc := crc16 body
  let all := body ++ [crc / 256, crc % 256]
  all ++ List.replicate (6 * ceilDiv all.length 6 - all.length) 0

/-- The DCC block of the multiframe that begins: the next block of the message being sent, the first block of the next queued
message, or an idle block (R227 to R229). A message sent twice is sent in consecutive messages (R158); else the stations take turns. -/
def TxSt.nextBlock (x : TxSt) : TxSt :=
  if !x.rest.isEmpty then { x with block := x.rest.take 6, rest := x.rest.drop 6, first := false }
  else
    match x.queue.find? (fun e => !e.2.isEmpty) with
    | some (s, m :: more) =>
      let a := FMap.get 0 x.alive s
      let all := m.sent (if m.again then (a + 15) % 16 else a)
      { x with
        block := all.take 6
        rest := all.drop 6
        first := true
        alive := if m.again then x.alive else FMap.set 0 x.alive s ((a + 1) % 16)
        queue :=
          let others := x.queue.filter (fun e => e.1 != s)
          match more with
          | [] => others
          | y :: _ => if y.again then (s, more) :: others else others ++ [(s, more)] }
    | _ => { x with block := List.replicate 6 0, first := true }

/-- Whether the next DCC block is the last of a message (R229, R244). -/
def TxSt.endsMsg (x : TxSt) : Bool := x.nextBlock.rest.isEmpty && (!x.rest.isEmpty || x.queue.any (fun e => !e.2.isEmpty))

/-- The line destinations of the walk whose words a line frame carries (R19, R291). -/
def Dev.lineWords (d : Dev) (n start : Nat) : FMap DestWord :=
  if d.timingMode n = 2 then (((d.mangle.line.filter (fun e => decide (e.1 ≤ start))).getLast?).map Prod.snd).getD []
  else ((d.mangle.line.find? (fun e => e.1 == start)).map Prod.snd).getD []

/-- The address of a downstream slot (R299). -/
def lineAddr (n q : Nat) : Nat := n * 1024 + q

/-- SIG_TX of every tributary taken for the multiframe that starts at `t` (R220, R307). -/
def Dev.takeSig (d : Dev) (n t : Nat) : Dev :=
  let m := d.lineWords n t
  ((d.tribs n).filter (fun k => d.rd TRIB.TX_SLOT k != 0)).foldl
    (fun d k => d.wr TRIB.SIG_TX k 0 (FMap.get DestWord.idle m (lineAddr n (d.rd TRIB.TX_SLOT k))).sig) d

/-- FOLD takes the boundary at `t`: the staged words become the window, the doorbells of the period join their queues, SIG_TX is
taken, and the port's Needle budget starts anew; after an overrun or fault of the period staging and doorbells are discarded (R220,
R234, R424, R426). Once per boundary. -/
def Dev.mfTake (d : Dev) (n t : Nat) : Dev :=
  let x := d.port n
  if x.takenAt = t then d
  else
    let window := if x.spent then x.tx.window else (List.range 16).map (fun f => match x.staged.find? (fun e => e.1 == f) with
      | some (_, v) => v
      | none => x.tx.window.getD f 0)
    let tx := { x.tx with window := window }
    let tx1 := if x.spent then tx else x.bells.foldl (fun (y : TxSt) b => if (y.queued b.1).length < 4 then y.enqueue b.1 b.2 else y) tx
    let d1 := d.setPortSt n { x with takenAt := t, tx := tx1, staged := [], bells := [], used := 0, spent := false }
    ((d1.wr PORT.NDL_USED n 0 (min 65535 x.used)).wr PORT.NDL_PEAK n 0 (max (d1.rd PORT.NDL_PEAK n) (min 65535 x.used))).takeSig n t

/-! ### FOLD (R212 to R231, R234, R306) -/

/-- The f8 word of a shared port in group multiframe `g`: the grant map that FOLD sends in the group (R145). -/
def Dev.mapWord (d : Dev) (n g : Nat) : Nat :=
  let x := d.shr n
  let e := fun (i : Nat) => if i < d.rd PORT.WINDOWS n then x.sent.entries.getD i 15 else 15
  (if g = 0 then 512 else 0) + (if x.sent.full then 256 else 0) + e (2 * g) * 16 + e (2 * g + 1)

/-- Whether a port sends the APS words of its window: a working port, and a port that a group names (R341). -/
def Dev.inGroup (d : Dev) (n : Nat) : Bool := d.on PORT.PROT_EN n || (d.groupOf n).isSome

/-- The OH1 word of frame `i` of the multiframe number `mf` since the downstream started, before scrambling (R215). A shared port's label is 0x02
(R136); a port of no group sends 0 in f4 and f5 (R341). -/
def Dev.foldOh1 (d : Dev) (n i mf : Nat) : Nat :=
  let x := (d.port n).tx
  match i with
  | 0 => x.crcPrev.getD 0
  | 1 => if d.shared n then 2 else d.rd PORT.TX_PORT_LABEL n
  | 2 => x.slot
  | 3 => match d.dstTrib n x.slot with | some (t, _) => d.rd TRIB.TX_LABEL t | none => 0
  | 6 => let k := mf % 16; d.rd PORT.TX_TRACE n (k / 4) / 2 ^ (8 * (k % 4)) % 256 + (if k = 0 then 512 else 0)
  | 7 => if d.shared n then 0 else x.preErr + (if x.rei then 256 else 0)
  | 8 => if d.shared n then d.mapWord n (mf % 8) else x.window.getD 8 0 % 1024
  | 4 => if d.inGroup n then x.window.getD 4 0 % 1024 else 0
  | 5 => if d.inGroup n then x.window.getD 5 0 % 1024 else 0
  | 9 => d.rd PORT.SLIPS n % 256 + (if d.rd DEV.TSTATE = tsHoldover || d.rd DEV.TSTATE = tsFreerun then 512 else 0)
  | _ => x.window.getD i 0 % 1024

/-- The OH0 word of frame `i` (R213, R226, R228, R259). -/
def Dev.foldOh0 (d : Dev) (n i : Nat) : Nat :=
  if i % 2 = 0 then faw
  else
    let x := (d.port n).tx
    let bits := (x.block.flatMap (wordBits 8)).drop (6 * (i / 2))
    (mfaBit (i / 2)).toNat * 256 + (d.on PORT.TX_RDI n).toNat * 128 + x.first.toNat * 64 + bitsVal (bits.take 6)

/-- The word of downstream slot `q` in frame `i` (R216, R218, R306); the reserved bits of a signalling word are passed as they come (DESIGN CHOICE,
log entry 129). -/
def Dev.foldSlot (d : Dev) (n i : Nat) (m : FMap DestWord) (reads : FMap Nat) (q : Nat) : Nat :=
  match d.dstTrib n q with
  | none => 0x155
  | some (t, first) =>
    let x := FMap.get DestWord.idle m (lineAddr n q)
    match x.kind with
    | .ais => 0x3FF
    | .pleat => x.word
    | .desync => FMap.get 0x155 reads q
    | _ =>
      if d.timingMode n = 2 then 0x155
      else 512 + (if first && (d.rd TRIB.SIG_TX t).testBit (15 - i) then 256 else 0) + x.word % 256

/-- The words that a line frame reads from desynchronizers, by slot (R291). -/
def Dev.foldReads (d : Dev) (n : Nat) (m : FMap DestWord) : Dev × FMap Nat :=
  (List.range (d.slots n)).foldl
    (fun (a : Dev × FMap Nat) q =>
      let x := FMap.get DestWord.idle m (lineAddr n (q + 1))
      match x.kind with
      | .desync => let (v, e) := a.1.desyncRead x.word; (e, FMap.set 0x155 a.2 (q + 1) v)
      | _ => a) (d, [])

/-- The length of the next line frame in 1/65,536 tick: a TRIB port's own rate (R291). -/
def Dev.frameLen (d : Dev) (n : Nat) : Nat :=
  if d.timingMode n = 2 then (20480 * 65536 * 16000000) / ((16000000 : Int) + d.rdS PORT.TX_OFFSET n).toNat else 20480 * 65536

/-- Whether the frame of a count since the downstream started is a shared port's sync frame: the last of a map group (R149). -/
def Dev.syncFrame (d : Dev) (n count : Nat) : Bool := d.shared n && count % 128 == 127

/-- FOLD starts RDI at an odd frame while the port is failed (R259); its end has a row of its own. -/
def Dev.foldRdi (d : Dev) (n i : Nat) : Dev :=
  if i % 2 = 1 && d.on PORT.PORT_FAILED n && d.on PORT.RDI_EN n && !d.on PORT.TX_RDI n then
    (d.wr PORT.TX_RDI n 0 1).modPort n (fun (x : PortSt) => { x with tx := { x.tx with rdiAt := some x.tx.count } })
  else d

/-- FOLD builds the next frame of a port's downstream and finishes it. The frame's count stands in `stamp`; a sync frame, built but
not sent, is marked absent; `placed` says that the time to send the frame had come before it was built. -/
def Dev.foldStage (d : Dev) (n : Nat) : Dev :=
  let x := (d.port n).tx
  if x.start.isNone || decide (d.timebase + d.rd DEV.T2L_DELAY * frameTicks < x.next) then d
  else
    let i := x.count % 16
    let t := x.next
    let d0 := if i = 0 then
        let e := (if d.shared n && x.count % 128 == 0 then d.groupBoundary n else d).mfTake n t
        (if (e.port n).tx.endsMsg then e.inc PORT.DCC_TX n else e).modPort n
          (fun (y : PortSt) => { y with tx := { y.tx.nextBlock with mfStart := t } })
      else d
    let m := d0.lineWords n t
    let (dr, reads) := d0.foldReads n m
    let d1 := dr.foldRdi n i
    let words := d1.foldOh0 n i :: d1.foldOh1 n i (x.count / 16) :: (List.range (d1.slots n)).map (fun q => d1.foldSlot n i m reads (q + 1))
    let sync := d1.syncFrame n x.count
    let y := (d1.port n).tx
    let c0 := if i = 0 then 1023 else y.crc
    let c := if sync then c0 else crcFrame i words c0
    let len := y.frac + d1.frameLen n
    let d2 := d1.modPort n (fun (z : PortSt) =>
      { z with tx := { y with
          count := y.count + 1
          next := t + len / 65536
          frac := len % 65536
          crc := c
          crcPrev := if i = 15 then some c else y.crcPrev
          slot := if i = 15 then (if y.slot < d1.slots n then y.slot + 1 else 1) else y.slot } })
    let num := d2.nextNum n 1
    let d3 := d2.addFrame n 1 { PortFrame.at t x.count 8 with words := words, absent := sync, placed := decide (t < d2.sys.nextFrame) }
    match (d3.lane n 1).find? (fun f => f.num == num) with
    | some f => d3.stageDone n 1 8 f
    | none => d3

/-! ### The encoder and the transmitter -/

/-- The information bits of a frame, OH0 aside scrambled (R115, R206). -/
def frameBits (info i : Nat) (words : List Nat) : List Bool :=
  let rest := (words.drop 1).flatMap (wordBits 10)
  let fill := List.replicate (info - 10 - rest.length) false
  wordBits 10 (words.headD 0) ++ (scramble (rest ++ fill) (lfsrSkip (i * (info - 10)) lfsrSeed)).1

/-- The encoder finishes the oldest frame that FOLD has finished; it does not run over a sync frame, and starts at state 0 after one
(R191 to R193). -/
def Dev.encodeStage (d : Dev) (n : Nat) : Dev :=
  match (d.lane n 1).find? (fun f => f.stage == 8) with
  | none => d
  | some f =>
    let g := d.geom n
    let (coded, e) := encode (frameBits g.info (f.stamp % 16) f.words) g.cr 0 (d.port n).tx.enc
    let d1 := (d.modPort n (fun (x : PortSt) => { x with tx := { x.tx with enc := if f.absent then 0 else e } })).modFrame n 1 f.num
      (fun (h : PortFrame) => { h with bits := if f.absent then [] else coded })
    d1.stageDone n 1 9 { f with bits := coded }

/-- The symbols of a line frame: the shifts of every layer of a chirp symbol, or PAM level indices (R113, R171, R195). -/
def Dev.lineSymbols (d : Dev) (n : Nat) (coded : List Bool) : List Nat :=
  let g := d.geom n
  if d.isPam n then pamLevels (d.pamBits n) g.syms coded
  else (interleave false (g.sf * g.depth) g.syms coded).flatMap (columnShifts g.sf g.depth)

/-- The transmitter finishes the oldest frame that the encoder has finished. It is sent at its time; one whose time has come has been muted
(R22). -/
def Dev.sendStage (d : Dev) (n : Nat) : Dev :=
  match (d.lane n 1).find? (fun f => f.stage == 9) with
  | none => d
  | some f =>
    let d1 := d.stageDone n 1 10 f
    if f.placed then d1.dropFrame n 1 f.num else d1

/-! ### The line (R22, R84, R85, R128, R132, R149, R172, R179) -/

/-- A data frame of a port sent from its start on: muted where it is late or not finished; a sync frame is quiet and a preamble. -/
def Dev.sendFrame (d : Dev) (n : Nat) (f : PortFrame) : Dev :=
  let mute := d.txMuted n || f.late || f.stage != 10
  let d1 := if f.absent then
      (d.sendChips n f.ref mute (d.preambleSlice n f.ref (f.ref + frameTicks))).modPort n (fun (x : PortSt) => { x with preAt := some (f.ref + frameTicks) })
    else d.sendSymbols n f.ref mute (d.lineSymbols n f.bits)
  if f.stage = 10 then d1.dropFrame n 1 f.num else d1.modFrame n 1 f.num (fun (g : PortFrame) => { g with placed := true })

/-- A frame of `k` symbols of a PAM phase as levels of which 65,536 is the outer one, and the transmitter behind it (R179, log entry 119). -/
def ShapeSt.activate (x : ShapeSt) (phase bits k : Nat) : List Int × ShapeSt :=
  let y := if x.phase = phase then x else { x with phase := phase, syms := 0, prbs := 2047 }
  let outer := fun (b : Bool) => if b then (65536 : Int) else -65536
  match phase with
  | 2 => ((List.range k).map (fun j => outer ((y.syms + j) % 4 < 2)), { y with syms := (y.syms + k) % 4 })
  | 3 | 4 => let (bs, s) := prbsBits k y.prbs; (bs.map outer, { y with prbs := s })
  | 5 | 6 =>
    let (bs, s) := prbsBits (k * bits) y.prbs
    ((pamLevels bits k bs).map (outerLevel bits), { y with prbs := s })
  | _ => (List.replicate k 0, y)

/-- What an activating PAM port sends from the frame boundary `b` on: the signal of its phase, the marker at the end of the frame before DATA;
muted in WARM until DATA resumes. -/
def Dev.sendPhase (d : Dev) (n b : Nat) : Dev :=
  let x := d.port n
  let k := (d.pamGeom n).syms
  let (ls, y) := x.shape.activate (d.act n) (d.pamBits n) k
  let marker := (List.range 16).map (fun j => if j % 2 = 0 then (65536 : Int) else -65536)
  let ls1 := if d.act n = 6 ∧ x.tx.start = some (b + frameTicks) then ls.take (k - 16) ++ marker else ls
  (d.modPort n (fun (z : PortSt) => { z with shape := y })).sendLevels n b (d.txMuted n || d.act n == 8) ls1

/-- What a chirp port without frames sends from the frame boundary `b` on: the part of a preamble that falls there, else quiet. A preamble is sent
as a whole, from the frame of its first chip on (log entry 122). -/
def Dev.sendBeacon (d : Dev) (n b : Nat) : Dev :=
  let x := d.port n
  let e := x.tx.start.getD (d.dsAfter n b)
  let on' := if d.shared n then x.tx.start.isSome else x.offer.isSome
  let d1 := if on' && b == d.preambleFrom n e then d.modPort n (fun (y : PortSt) =>
      { y with preAt := some e, offer := y.offer.map (fun (o : OfferSt) => { o with beacon := true }) }) else d
  let sends := (d1.port n).preAt == some e && decide (d.preambleFrom n e ≤ b)
  d1.sendChips n b (d.txMuted n) (if sends then d.preambleSlice n b e else List.replicate (128 * d.portUnits n) Cx.zero)

/-- What a port sends from the system frame boundary `b` on: its data frames that start in the frame, muted where there is none; before its
downstream starts the signals of its start-up (R85, R132). -/
def Dev.lineFrame (b : Nat) (d : Dev) (n : Nat) : Dev :=
  let x := (d.port n).tx
  if x.start.isSome && decide (x.start.getD 0 ≤ b) then
    match (d.lane n 1).filter (fun f => decide (b ≤ f.ref ∧ f.ref < b + frameTicks) && !f.placed) with
    | [] => if d.timingMode n = 2 ∧ b + frameTicks ≤ x.next then d else d.sendSymbols n b true (d.lineSymbols n [])
    | fs => fs.foldl (fun (d : Dev) f => d.sendFrame n f) d
  else if d.isPam n then d.sendPhase n b
  else d.sendBeacon n b

/-- The word that a port sends which does not transmit (R85): owner mark and Mute; none in RESET and BOOT, where the lanes are not driven. -/
def Dev.idleWord (d : Dev) : Option Nat :=
  match d.mode with
  | .reset | .boot => none
  | .run => some (txWord true true 0)
  | .standby | .safe => some (txWord false true 0)
  | .cal | .ready | .maint => some (txWord (!d.paired) true 0)

/-- The transmit lanes of the ports that do not transmit follow the device state (R85). -/
def Dev.showIdle (d : Dev) : Dev :=
  if d.line.idle = d.idleWord then d else ({ d with line := { d.line with idle := d.idleWord } }).emit (.lineIdle d.idleWord)

/-- The line side of a system frame boundary at `b`. -/
def Dev.lineBoundary (d : Dev) (b : Nat) : Dev := (d.enabledPorts.foldl (Dev.lineFrame b) d).showIdle

/-! ### STAGE_FINISH -/

/-- A stage of a port's lane finishes a port-frame. -/
def Dev.stage (d : Dev) (n : Nat) (st : StageData) : Dev :=
  match st with
  | .rinse index samples => if d.awaitsCopy n 0 then d else d.rinseStage n index samples
  | .spin => if d.isPam n then d else d.spinStage n
  | .wring => if d.isPam n then d.wringStage n else d
  | .darn => d.darnStage n
  | .hem => d.hemStage n
  | .label => d.labelStage n
  | .slip => d.slipStage n
  | .pleat => d.pleatStage n
  | .fold => if d.awaitsCopy n 1 then d else d.foldStage n
  | .encoder => d.encodeStage n
  | .transmit => d.sendStage n

/-- STAGE_FINISH (R20): the stage named by the operand finishes the oldest port-frame that waits for it. -/
def execStageFinish (port : Fin 512) (stage : StageData) (s : State) : Host.Outcome State Fault Refusal :=
  stay s (whenDev (fun d => d.enabled port) (fun d => d.stage port stage))

/-! ### The reset of a port's logic (R24, R30, R181, R205, R488) -/

/-- The signal path of a port restarts from what the last multiframe boundary saved, its decoder with every state equal and the re-encoder of
R209 at state 0 (DESIGN CHOICE, log entry 127). -/
def PortSt.restarted (x : PortSt) : PortSt :=
  { x with
    spin := { SpinSt.reset with eps := x.spin.saved.eps, next := x.spin.saved.next, nec := x.spin.saved.nec, tx := x.spin.tx, saved := x.spin.saved }
    wring := { WringSt.reset with eq := x.wring.saved, tx := x.wring.tx, saved := x.wring.saved }
    corrUp := CorrRun.empty
    corrDown := CorrRun.empty
    det := none
    symbols := []
    symFrame := x.rxNext
    darn := { DarnSt.reset with cold := true, next := x.rxNext, bits := x.darn.bits, errs := x.darn.errs, eras := x.darn.eras }
    shared := { x.shared with ctxA := none, ctxB := none, waiting := [], coll := [], strong := none, sweeps := [] } }

/-- A port's logic restarts: DOWN, its port-frames gone, HEM hunting anew. A PAM port enters WARM: DATA resumes at the next downstream multiframe
boundary, the encoder running on (R181, R192). -/
def Dev.portToReset (d : Dev) (n : Nat) : Dev :=
  let d1 := (d.setRinse n { d.rinse n with hist := [] }).setPort n .down
  let d2 := (((d1.setLane n 0 []).setLane n 1 []).modPort n PortSt.restarted).alignRestart n
  let d3 := { d2 with arch := { d2.arch with afterReset := FMap.set false d2.arch.afterReset n true } }
  if !d3.isPam n then d3
  else
    let enc := (d3.port n).tx.enc
    ((d3.wr PORT.ACT_STATE n 0 8).txStartAt n (d3.dsAfter n d3.timebase)).modPort n (fun (x : PortSt) =>
      { x with pam := { x.pam with warmAt := some d3.timebase }, tx := { x.tx with enc := enc } })

/-- The start of a lane's reset: its ports go DOWN, its window returns to 0, the shadow opens (R24, R493, R494). -/
def Dev.laneReset (d : Dev) (l : Nat) : Dev :=
  let ps := d.lanePorts l
  let d1 := ps.foldl Dev.portToReset d
  let d2 := ({ d1 with arch := { d1.arch with
      laneMiss := FMap.set [] d1.arch.laneMiss l []
      overrun := FMap.set none d1.arch.overrun l (some (.resetting (d1.timebase + frameTicks))) } }).wr DEV.MISS_WINDOW 0 l 0
  (d2.openShadow ⟨.lane l, ps, ps.map (fun n => d2.rd PORT.ENGINE n), [], some (d2.timebase + frameTicks), false, 0⟩).laneFlag
    DEV.LANE_RESET l

/-- LANE_RESET_START (R24). -/
def execLaneResetStart (lane : Fin 16) (s : State) : Host.Outcome State Fault Refusal :=
  stay s (whenDev (fun d => d.resetReady lane) (fun d => d.laneReset lane))

/-! ### What falls on a downstream multiframe boundary -/

/-- FALLBACK_APPLY (R186): LC_ACTIVE becomes PAM, the counts return to 0 and a PAM attempt starts. -/
def Dev.fallbackApply (d : Dev) (n t : Nat) : Dev :=
  let d1 := (((d.wr PORT.LC_ACTIVE n 0 2).inc PORT.FALLBACK_COUNT n).raise .port n 23).wr PORT.NO_ANSWER n 0 0
  let d2 := (d1.wr PORT.PAM_FAILS n 0 0).modPort n
    (fun (x : PortSt) => { x with due := false, lofTimes := [], offer := none, upSeen := false })
  (((d2.wr PORT.ACQ_STATE n 0 0).signalReset n).judgeCfg n).pamAttempt n t

/-- A PAM port that is DOWN starts a full attempt, its echo canceller and equalizers from the saved state (R181). -/
def Dev.pamRestart (d : Dev) (n t : Nat) : Dev :=
  (d.modPort n (fun (x : PortSt) => { x with wring := { x.wring with eq := { x.wring.saved with next := none } } })).pamAttempt n t

/-- A chirp port's boundary: a DOWN port starts an offer; frames start behind the last preamble of an answered one (R128, R132). -/
def Dev.chirpBoundary (d : Dev) (n t : Nat) : Dev :=
  if d.portMode n = .down then (d.setPort n .activating).offerStart n
  else if d.portMode n = .activating ∧ (d.port n).offer.isSome ∧ (d.port n).tx.start = some t then d.wr PORT.ACQ_STATE n 0 3
  else d

/-- A PAM port's boundary: DATA resumes in WARM, another DOWN port starts a full attempt, and so does the successor of a failed one or of a
WARM that has run out (R180, R181). -/
def Dev.pamBoundary (d : Dev) (n t : Nat) : Dev :=
  if d.cfgBad n then d
  else if d.portMode n = .down then
    if d.act n = 8 then d.setPort n .activating else d.pamRestart n t
  else if d.portMode n = .activating ∧ (d.act n = 0 ∨ (d.act n = 8 ∧ (d.port n).pam.warmAt.isNone)) then d.pamAttempt n t
  else d

/-- A shared port's boundary: the one behind its first sync frame begins group multiframe 0 (R147, R149). -/
def Dev.sharedPortBoundary (d : Dev) (n t : Nat) : Dev :=
  let d0 := if d.portMode n = .down then d.setPort n .activating else d
  if d0.cfgBad n then d0
  else
    match (d0.port n).tx.start with
    | some u => if t < u then d0 else d0.sharedBoundary n t (t == u)
    | none => d0

/-- What a downstream multiframe boundary at `t` does to a port. -/
def Dev.dsBoundary (d : Dev) (n t : Nat) : Dev :=
  let d1 := ((d.modPort n (fun (x : PortSt) => { x with dsLast := t })).mfTake n t).takeEngine n
  let d2 :=
    if d1.shared n then d1.sharedPortBoundary n t
    else if (d1.port n).due then (if d1.moving n then d1 else d1.fallbackApply n t)
    else if d1.isPam n then d1.pamBoundary n t
    else d1.chirpBoundary n t
  if d2.portMode n = .down then d2.judgeFailure n
  else ({ d2 with arch := { d2.arch with afterReset := FMap.set false d2.arch.afterReset n false } }).judgeFailure n

/-- DOWNSTREAM_MF_BOUNDARY (R234). -/
def execDownstreamMfBoundary (port : Fin 512) (s : State) : Host.Outcome State Fault Refusal :=
  stay s (whenDev (fun d => d.enabled port && decide (d.dsNext port ≤ d.timebase)) (fun d => d.dsBoundary port (d.dsNext port)))

end Sys2Proof.Machine
end

