-- ==== Sys2Proof/Machine/Needle.lean ====
section
/-! DEFINITION. The Needle engines: dispatch of hook events and the base handlers' rules, the execution of instructions, loads and
stores, budgets and faults, timers (R158, R252, R342 to R344, R412 to R440). -/

namespace Sys2Proof.Machine

/-! ### Engines -/

/-- The words of the instruction store; 0xFF_FFFF, which is illegal, where no section of the image covers them (R437). -/
def Dev.istoreWord (d : Dev) (e pc : Nat) : Nat := FMap.get 0 d.needle.istore (e * 4096 + pc) ^^^ 0xFFFFFF

/-- STATE of an engine (R439). -/
def Dev.ndlState (d : Dev) (e : Nat) : Nat := d.rd (HDR.STATE .ndl) e

/-- STATE with the STOPPED condition (R439). -/
def Dev.setNdlState (d : Dev) (e v : Nat) : Dev := (d.wr (HDR.STATE .ndl) e 0 v).cond .ndl e 5 (v == 0)

/-- Registers and flags. -/
def Dev.nreg (d : Dev) (e : Nat) (r : Fin 16) : Nat := d.rd NDL.N e r
def Dev.setNreg (d : Dev) (e : Nat) (r : Fin 16) (v : Nat) : Dev := d.wr NDL.N e r v
def Dev.nflags (d : Dev) (e : Nat) : NFlags := NFlags.of (d.rd NDL.FLAGS e)
def Dev.setNflags (d : Dev) (e : Nat) (f : NFlags) : Dev := d.wr NDL.FLAGS e 0 f.word
def Dev.setNpc (d : Dev) (e pc : Nat) : Dev := d.modEngine e (fun (x : EngineSt) => { x with pc := pc % 4096 })

/-- Customer rights follow the PC (R414). -/
def custRights (pc : Nat) : Bool := decide (2048 ≤ pc)

/-- An invocation ends: the PC shown, the state WAITING or, with ENABLE 0, STOPPED, the event's other entry left to run (R421, R427,
R439). -/
def Dev.ndlEnd (d : Dev) (e : Nat) : Dev :=
  let x := d.engine e
  match x.running with
  | none => d
  | some iv =>
    let spent := match iv.ev.port with | some n => (d.port n).spent | none => false
    let wait := match iv.then? with | some h => if spent then none else some (iv.ev, h) | none => none
    ((d.setEngine e { x with running := none, waiting := wait }).wr NDL.PC e 0 x.pc).setNdlState e
      (if d.on (HDR.ENABLE .ndl) e then 1 else 0)

/-! ### Overruns and faults (R424 to R427) -/

/-- A word in the layout of NDL offset 0x058 (R439, R504). -/
def nfWord (cause pc : Nat) (cust : Bool) (port : Option Nat) : Nat :=
  2 ^ 31 + cause * 2 ^ 28 + pc * 2 ^ 16 + cust.toNat * 4096 + port.getD 0

/-- The first case since VALID was cleared (R439). -/
def Dev.ndlRecord (d : Dev) (e cause pc : Nat) (port : Option Nat) : Dev :=
  if d.on NDL.NF_VALID e then d
  else
    ((((d.wr NDL.NF_VALID e 0 1).wr NDL.NF_CAUSE e 0 cause).wr NDL.NF_PC e 0 pc).flag NDL.NF_CUST e 0 (custRights pc)).wr
      NDL.NF_PORT e 0 (port.getD 0)

/-- The events of a port dropped at every engine and counted in HOOKS_SKIPPED (R424). -/
def Dev.skipHooks (d : Dev) (n : Nat) : Dev :=
  let k := ((d.needle.engines.map (fun e => (e.2.queue.filter (fun v => v.port == some n)).length))).foldl (· + ·) 0
  d.needle.engines.foldl
    (fun d e => d.modEngine e.1 (fun (x : EngineSt) =>
      { x with queue := x.queue.filter (fun v => v.port != some n)
               waiting := match x.waiting with | some (v, h) => if v.port = some n then none else some (v, h) | none => none }))
    (d.inc PORT.HOOKS_SKIPPED n 0 k)

/-- The rest of a port's budget period is lost: staging and doorbells discarded, events dropped (R424, R426). -/
def Dev.portSpend (d : Dev) (n : Nat) : Dev :=
  ((d.modPort n (fun (x : PortSt) => { x with spent := true, staged := [], bells := [] })).inc PORT.NDL_OVERRUNS n).skipHooks n

/-- NEEDLE_OVERRUN (R424): the instruction at `pc` has exhausted the budget of port `n`. -/
def Dev.ndlOverrun (d : Dev) (e n pc : Nat) : Dev :=
  let d1 := (((d.inc NDL.OVERRUNS e).ndlRecord e 3 pc (some n)).raise .ndl e 0).fault (srcNdl e 0) (nfWord 3 pc (custRights pc) (some n))
  (d1.portSpend n).ndlEnd e

/-- The slot of a MAILBOX item is free once its hook is dispatched (R430, R449). -/
def Dev.mbxTaken (d : Dev) (e : Nat) (ev : HookEv) : Dev :=
  if ev.k = 4 then
    let b := d.basket (2 + e / 8)
    d.setBasket (2 + e / 8) { b with items := b.items.erase ev.data }
  else d

/-- Events dropped from an engine's queue: the slots of their mailbox items are free. -/
def Dev.mbxDropped (d : Dev) (e : Nat) (evs : List HookEv) : Dev := evs.foldl (fun (d : Dev) ev => d.mbxTaken e ev) d

/-- ACCT_OVERRUN (R425): the instruction at `pc` has exhausted the engine's account. -/
def Dev.acctOverrun (d : Dev) (e pc : Nat) : Dev :=
  let d1 := (((d.inc NDL.ACCT_OVERRUNS e).ndlRecord e 4 pc none).raise .ndl e 4).fault (srcNdl e 2) (nfWord 4 pc (custRights pc) none)
  let gone := (d1.engine e).queue.filter (fun v => v.port.isNone)
  ((d1.modEngine e (fun (x : EngineSt) => { x with spent := true, queue := x.queue.filter (fun v => v.port.isSome) })).mbxDropped e gone).ndlEnd e

/-- Why an instruction is aborted (R426). -/
inductive NFault where
  | illegal | access | credit
  deriving DecidableEq, Repr

def NFault.code : NFault → Nat
  | .illegal => 0 | .access => 1 | .credit => 2

/-- NEEDLE_FAULT (R426). The instruction has not executed and is charged to no account. -/
def Dev.ndlFault (d : Dev) (e : Nat) (iv : Invocation) (f : NFault) : Dev :=
  let pc := (d.engine e).pc
  let d1 := (((d.inc NDL.FAULTS e).ndlRecord e f.code pc iv.ev.port).raise .ndl e 1).fault (srcNdl e 1)
    (nfWord f.code pc (custRights pc) iv.ev.port)
  let d2 := match iv.ev.port with | some n => d1.portSpend n | none => d1
  d2.ndlEnd e

/-- An executed instruction is charged to its account; the one that exhausts it aborts the invocation (R424, R425). -/
def Dev.ndlCharge (d : Dev) (e pc : Nat) (iv : Invocation) : Dev :=
  let d1 := d.modEngine e (fun (x : EngineSt) => { x with executed := x.executed + 1 })
  match iv.ev.port with
  | some n =>
    let used := (d1.port n).used + 1
    let d2 := d1.modPort n (fun (x : PortSt) => { x with used := used })
    if 4000 ≤ used then d2.ndlOverrun e n pc else d2
  | none =>
    let used := (d1.engine e).used + 1
    let d2 := d1.modEngine e (fun (x : EngineSt) => { x with used := used })
    if 4000 ≤ used then d2.acctOverrun e pc else d2

/-- The budget left to the invocation's account after the instruction that asks (R417). -/
def Dev.ndlLeft (d : Dev) (e : Nat) (iv : Invocation) : Nat :=
  4000 - (match iv.ev.port with | some n => (d.port n).used | none => (d.engine e).used) - 1

/-! ### Loads and stores (R415, R429 to R432) -/

/-- The word of an item or message window: 32-bit word w as two engine words. -/
def halfWord (ws : List Nat) (i : Nat) : Nat := if i % 2 = 0 then ws.getD (i / 2) 0 % 65536 else ws.getD (i / 2) 0 / 65536

/-- The station that the DCC transmit buffer addresses. -/
def Dev.bellStn (d : Dev) (e n : Nat) : Nat := d.dccStn n (FMap.get 0 (d.engine e).dccBuf 1 / 16 % 16)

/-- The doorbell as read: [0] FULL, [1] DROPPED (R429). -/
def Dev.bellWord (d : Dev) (e n : Nat) : Nat := (d.dccFull n (d.bellStn e n)).toNat + (d.port n).tx.dropped.toNat * 2

/-- A staged word of a port, or the word of its window (R415, R424). -/
def Dev.stagedWord (d : Dev) (n f : Nat) : Nat :=
  match (d.port n).staged.find? (fun x => x.1 == f) with
  | some (_, v) => v
  | none => (d.port n).tx.window.getD f 0

/-- A load from a port window (R415). -/
def Dev.portLoad (d : Dev) (e n : Nat) (ev : HookEv) (a : Nat) : Option Nat :=
  if a < 0x80020 then some (ev.win.getD (a - 0x80000) 0)
  else if 0x80040 ≤ a ∧ a < 0x80050 then
    let f := a - 0x80040
    some (if [0, 1, 2, 3, 6, 7, 9].contains f then 0 else d.stagedWord n f)
  else if 0x80100 ≤ a ∧ a < 0x80180 then some (FMap.get 0 d.needle.scratch (n * 128 + (a - 0x80100)))
  else if 0x80200 ≤ a ∧ a ≤ 0x80214 ∧ ev.k = 3 then some (ev.data.getD (a - 0x80200) 0)
  else if a = 0x8027F then some (d.bellWord e n)
  else none

/-- The unit, the byte offset in its block and the half of a CHK address (R431). -/
def chkAddr (a : Nat) : Nat × Nat × Bool := ((a - 0xA0000) / 256, (a - 0xA0000) % 256 / 2 * 4, (a - 0xA0000) % 2 == 1)

/-- A load of half of a CHK register: the lower half latches the upper (R431, R460). -/
def Dev.chkLoad (d : Dev) (e a : Nat) : Nat × Dev :=
  let (u, o, hi) := chkAddr a
  let key := a / 2 * 2 + 1
  if hi then (FMap.get 0 (d.engine e).chkHalf key, d)
  else if 128 ≤ o then (0, d)
  else
    let d1 := if o = 0x28 then d.chkLatch u else d
    let w := d1.readFields .chk 0 (0x100 + 0x80 * u + o)
    (w % 65536, d1.modEngine e (fun (x : EngineSt) => { x with chkHalf := FMap.set 0 x.chkHalf key (w / 65536) }))

/-- A load (R415): the word and the device, or an access fault. -/
def Dev.nload (d : Dev) (e : Nat) (iv : Invocation) (cust : Bool) (a : Nat) : Option (Nat × Dev) :=
  if a < 0x800 then some (d.rd NDL.DATA e a, d)
  else if 0x4000 ≤ a ∧ a < 0x8000 then some (FMap.get 0 d.needle.shared (e / 8 * 16384 + (a - 0x4000)), d)
  else if 0x80000 ≤ a ∧ a ≤ 0x8027F then
    match iv.ev.port with
    | some n => if iv.wins then (d.portLoad e n iv.ev a).map (fun v => (v, d)) else none
    | none => none
  else if 0x80300 ≤ a ∧ a < 0x80320 then if iv.ev.k = 4 then some (halfWord iv.ev.data (a - 0x80300), d) else none
  else if a = 0x8037D then some (d.ringCredits (3 + e / 8), d)
  else if 0xA0000 ≤ a ∧ a < 0xA1000 then some (d.chkLoad e a)
  else if 0xC0000 ≤ a ∧ a < 0xC0010 then
    if cust = decide (8 ≤ a - 0xC0000) then some (Config.timerWord (a - 0xC0000) d.free % w20, { d with free := d.free + 1 }) else none
  else if 0xF0000 ≤ a then if cust then none else some (Config.vendorWord a d.free % w20, { d with free := d.free + 1 })
  else none

/-- What a store answers. -/
inductive StoreRes where
  | ok (d : Dev)
  | abort (f : NFault)
  deriving DecidableEq, Repr

/-- DCC_DOORBELL (R429): the message of the transmit buffer joins the doorbells of the period. -/
def Dev.bell (d : Dev) (e n : Nat) (cust : Bool) : StoreRes :=
  let w := fun (i : Nat) => FMap.get 0 (d.engine e).dccBuf i % 256
  let s := d.bellStn e n
  let drop := fun (d : Dev) (b : Bool) => d.modPort n (fun (x : PortSt) => { x with tx := { x.tx with dropped := b } })
  if cust ∧ 1 ≤ w 0 ∧ w 0 < 128 then .abort .access
  else if !d.enabled n then .ok d
  else if d.dccFull n s then .ok (drop d true)
  else
    let m : DccMsg := ⟨[w 0, s * 16, w 2] ++ (List.range (min 16 (w 2))).map (fun i => w (3 + i)), false⟩
    .ok ((drop d false).modPort n (fun (x : PortSt) => { x with bells := x.bells ++ [(s, m)] }))

/-- A word staged for a port; a port that is not enabled has no staging (R424, R427). -/
def Dev.stageWord (d : Dev) (n f v : Nat) : Dev :=
  if d.enabled n then d.modPort n (fun (x : PortSt) => { x with staged := FMap.set w20 x.staged f v }) else d

/-- A store to a port window (R415). -/
def Dev.portStore (d : Dev) (e n : Nat) (cust : Bool) (a v : Nat) : StoreRes :=
  if 0x80040 ≤ a ∧ a < 0x80050 then
    let f := a - 0x80040
    if (if cust then 10 ≤ f else f = 4 ∨ f = 5 ∨ f = 8) then .ok (d.stageWord n f v) else .abort .access
  else if 0x80100 ≤ a ∧ a < 0x80180 then
    .ok { d with needle := { d.needle with scratch := FMap.set 0 d.needle.scratch (n * 128 + (a - 0x80100)) v } }
  else if 0x80240 ≤ a ∧ a ≤ 0x80254 then
    .ok (d.modEngine e (fun (x : EngineSt) => { x with dccBuf := FMap.set 0 x.dccBuf (a - 0x80240) v }))
  else if a = 0x8027F then d.bell e n cust
  else .abort .access

/-- The 32-bit word `w` of the outgoing mailbox item. -/
def EngineSt.mbxWord (x : EngineSt) (w : Nat) : Nat := FMap.get 0 x.mbxOut (2 * w) % 65536 + FMap.get 0 x.mbxOut (2 * w + 1) % 65536 * 65536

/-- MAILBOX_PUSH (R430): the item leaves through the cluster's ring; its PI word sets MBX_EVT_STATUS (R451). -/
def Dev.mbxPush (d : Dev) (e hi : Nat) : StoreRes :=
  let c := e / 8
  if d.ringCredits (3 + c) = 0 then .abort .credit
  else
    let x := d.engine e
    let h := x.mbxLo + hi % 65536 * 65536
    let d1 := d.ringPut (3 + c) (h :: (List.range (h / 2 ^ 28)).map (fun w => x.mbxWord (w + 1)))
    .ok (Dev.leavesRise d1 [1240 + c] (d1.wr HOSTQ.MBX_EVT_STATUS 0 0 (orBit (d1.rd HOSTQ.MBX_EVT_STATUS) c)))

/-- NEEDLE_TIMER_SET (R432). -/
def Dev.timerSet (d : Dev) (e : Nat) (iv : Invocation) (t v : Nat) : Dev :=
  let n := v % 2 ^ 19
  let x : NdlTimer :=
    if n = 0 then NdlTimer.off
    else ⟨some (d.sys.nextFrame + (n - 1) * frameTicks), if v.testBit 19 then n else 0, iv.ev.port⟩
  d.modEngine e (fun (y : EngineSt) => { y with timers := FMap.set NdlTimer.off y.timers t x })

/-- A store to half of a CHK register: the upper half commits both (R431). -/
def Dev.chkStore (d : Dev) (e a v : Nat) : Dev :=
  let (u, o, hi) := chkAddr a
  if !hi then d.modEngine e (fun (x : EngineSt) => { x with chkHalf := FMap.set 0 x.chkHalf a (v % 65536) })
  else if 128 ≤ o then d
  else
    let w := v % 65536 * 65536 + FMap.get 0 (d.engine e).chkHalf (a - 1)
    (d.chkUse u (e + 1) o w).chkWrite u o w

/-- A store (R415). -/
def Dev.nstore (d : Dev) (e : Nat) (iv : Invocation) (cust : Bool) (a v : Nat) : StoreRes :=
  if a < 0x800 then .ok (d.wr NDL.DATA e a v)
  else if 0x4000 ≤ a ∧ a < 0x8000 then
    .ok { d with needle := { d.needle with shared := FMap.set 0 d.needle.shared (e / 8 * 16384 + (a - 0x4000)) v } }
  else if 0x80000 ≤ a ∧ a ≤ 0x8027F then
    match iv.ev.port with
    | some n => if iv.wins then d.portStore e n cust a v else .abort .access
    | none => .abort .access
  else if 0x80340 ≤ a ∧ a < 0x80360 then
    .ok (d.modEngine e (fun (x : EngineSt) => { x with mbxOut := FMap.set 0 x.mbxOut (a - 0x80340) v }))
  else if a = 0x8037E then .ok (d.modEngine e (fun (x : EngineSt) => { x with mbxLo := v % 65536 }))
  else if a = 0x8037F then d.mbxPush e v
  else if 0xA0000 ≤ a ∧ a < 0xA1000 then .ok (d.chkStore e a v)
  else if 0xC0000 ≤ a ∧ a < 0xC0010 then
    if cust = decide (8 ≤ a - 0xC0000) then .ok (d.timerSet e iv (a - 0xC0000) v) else .abort .access
  else if 0xF0000 ≤ a then if cust then .abort .access else .ok d
  else .abort .access

/-! ### Instructions (R417 to R419) -/

/-- The invocation and the word at the PC of a RUNNING engine. -/
def Dev.nfetch (d : Dev) (e : Nat) : Option (Invocation × Nat) :=
  match (d.engine e).running with
  | some iv => if d.ndlState e = 2 then some (iv, d.istoreWord e (d.engine e).pc) else none
  | none => none

/-- An instruction that goes on at the next word: its effect, then its charge. -/
def Dev.ndlNext (d0 : Dev) (e : Nat) (iv : Invocation) (d : Dev) : Dev :=
  let pc := (d0.engine e).pc
  (d.setNpc e (pc + 1)).ndlCharge e pc iv

/-- A result with flags written. -/
def Dev.nresult (d : Dev) (e : Nat) (r : Fin 16) (x : NResult) : Dev :=
  match x.1 with
  | some v => (d.setNreg e r v).setNflags e x.2
  | none => d.setNflags e x.2

/-- A jump, with the link in n15 where it calls. -/
def Dev.ndlJump (d : Dev) (e : Nat) (iv : Invocation) (link : Bool) (target : Nat) : Dev :=
  let pc := (d.engine e).pc
  let d1 := if link then d.setNreg e 15 ((pc + 1) % 4096) else d
  (d1.setNpc e target).ndlCharge e pc iv

/-- WAIT (R417, R420): the mask is kept and the invocation ends. -/
def Dev.ndlWait (d : Dev) (e : Nat) (iv : Invocation) (mask : Nat) : Dev :=
  let pc := (d.engine e).pc
  (((d.wr NDL.WAIT_MASK e 0 mask).setNpc e (pc + 1)).ndlEnd e).ndlCharge e pc iv

/-- BRK (R427): the engine stops after it; CTRL.ENABLE reads 0 and BREAK is raised. -/
def Dev.ndlBrk (d : Dev) (e : Nat) (iv : Invocation) : Dev :=
  let pc := (d.engine e).pc
  let d1 := (((d.wr (HDR.ENABLE .ndl) e 0 0).ndlRecord e 5 pc iv.ev.port).raise .ndl e 3).setNpc e (pc + 1)
  (d1.ndlEnd e).ndlCharge e pc iv

/-- The address of a memory instruction (R416). -/
def Dev.naddr (d : Dev) (e : Nat) (base : Fin 16) (off : Nat) : Nat := (d.nreg e base + off) % w20

/-- LD. -/
def Dev.ndlLd (d : Dev) (e : Nat) (iv : Invocation) (r base : Fin 16) (off : Nat) : Dev :=
  match d.nload e iv (custRights (d.engine e).pc) (d.naddr e base off) with
  | some (v, d1) => d.ndlNext e iv (d1.setNreg e r v)
  | none => d.ndlFault e iv .access

/-- ST. -/
def Dev.ndlSt (d : Dev) (e : Nat) (iv : Invocation) (r base : Fin 16) (off : Nat) : Dev :=
  match d.nstore e iv (custRights (d.engine e).pc) (d.naddr e base off) (d.nreg e r) with
  | .ok d1 => d.ndlNext e iv d1
  | .abort f => d.ndlFault e iv f

/-- XCH, in the shared store only. -/
def Dev.ndlXch (d : Dev) (e : Nat) (iv : Invocation) (r base : Fin 16) (off : Nat) : Dev :=
  let a := d.naddr e base off
  if 0x4000 ≤ a ∧ a < 0x8000 then
    let k := e / 8 * 16384 + (a - 0x4000)
    d.ndlNext e iv (({ d with needle := { d.needle with shared := FMap.set 0 d.needle.shared k (d.nreg e r) } }).setNreg e r
      (FMap.get 0 d.needle.shared k))
  else d.ndlFault e iv .access

/-- The effect of an instruction (R417). JALR writes n15 first: with a = n15 it jumps to the next word. -/
def Dev.ndlExec (d : Dev) (e : Nat) (iv : Invocation) : NInstr → Dev
  | .alu fn r a b => d.ndlNext e iv (d.nresult e r (alu fn (d.nflags e) (d.nreg e a) (d.nreg e b)))
  | .jr a => d.ndlJump e iv false (d.nreg e a)
  | .jalr a => d.ndlJump e iv true (if a = 15 then (d.engine e).pc + 1 else d.nreg e a)
  | .imm op r a i => d.ndlNext e iv (d.nresult e r (immOp op (d.nflags e) (d.nreg e a) i))
  | .mem .ld r b o => d.ndlLd e iv r b o
  | .mem .st r b o => d.ndlSt e iv r b o
  | .mem .xch r b o => d.ndlXch e iv r b o
  | .b c t => if c.holds (d.nflags e) then d.ndlJump e iv false t else d.ndlNext e iv d
  | .call c t => if c.holds (d.nflags e) then d.ndlJump e iv true t else d.ndlNext e iv d
  | .wait i => d.ndlWait e iv (i % 64)
  | .brem r => d.ndlNext e iv (d.setNreg e r (d.ndlLeft e iv))
  | .brk => d.ndlBrk e iv

/-- One instruction of a RUNNING engine, where it is of the kind a row names; where it is not, the row's event does not occur. -/
def Dev.ndlRun (d : Dev) (e : Nat) (want : NInstr → Bool) : Dev :=
  match d.nfetch e with
  | some (iv, w) => (match ndecode w with | some i => if want i then d.ndlExec e iv i else d | none => d)
  | none => d

def NInstr.isAlu : NInstr → Bool | .alu .. => true | _ => false
def NInstr.isJr : NInstr → Bool | .jr _ => true | _ => false
def NInstr.isJalr : NInstr → Bool | .jalr _ => true | _ => false
def NInstr.isImm (op : ImmOp) : NInstr → Bool | .imm o .. => o == op | _ => false
def NInstr.isMem (op : MemOp) : NInstr → Bool | .mem o .. => o == op | _ => false
def NInstr.isB : NInstr → Bool | .b .. => true | _ => false
def NInstr.isCall : NInstr → Bool | .call .. => true | _ => false
def NInstr.isWait : NInstr → Bool | .wait _ => true | _ => false
def NInstr.isBrem : NInstr → Bool | .brem _ => true | _ => false
def NInstr.isBrk : NInstr → Bool | .brk => true | _ => false

/-! ### Dispatch (R420 to R422) -/

/-- The entries that an event invokes, enabled ones only, vendor before customer (R420, R421). -/
def Dev.ndlEntries (d : Dev) (e : Nat) (ev : HookEv) : List Nat :=
  let all :=
    if ev.k = 3 then (if ev.n2 < 128 then [3] else [19])
    else if ev.k = 4 then [20]
    else if ev.k ≤ 2 then [ev.k, 16 + ev.k]
    else if ev.k ≤ 12 then [ev.k]
    else [ev.k + 8]
  all.filter (fun h => d.on NDL.EN e h && (decide (h < 16) || match ev.port with | some n => d.on PORT.CUST_EN n | none => true))

/-- Whether a WAIT mask admits an event; 0 counts as 0x3F (R420, R422). -/
def admits (mask k : Nat) : Bool := (if mask = 0 then 0x3F else mask).testBit (min k 5)

/-- APS_SEND (R342): f4 and f5 staged for both ports of a group; the working port's show ON_PROT 0. -/
def Dev.apsSend (d : Dev) (n : Nat) : Dev :=
  match d.groupOf n with
  | none => d
  | some w =>
    let (f4, f5) := d.apsWords w
    let p := d.rd PORT.PARTNER w
    let put := fun (m v4 : Nat) (d : Dev) => if (d.port m).spent then d else (d.stageWord m 4 v4).stageWord m 5 f5
    put w (f4 - 256) (put p f4 d)

/-- The rules of the base handlers that fall at a vendor invocation: APS at MF_READY and DEFECT_CHANGE (R342 to R344), the trace
comparison at LABEL_CHANGE (R252). -/
def Dev.baseHandler (d : Dev) (ev : HookEv) : Dev :=
  match ev.port with
  | none => d
  | some n =>
    if ev.k = 0 then
      let d1 := match d.groupOf n with
        | some w => if ev.n2 = 0 ∧ w ≠ n then d.apsReceive w (ev.win.getD 20 0 % 1024) (ev.win.getD 21 0 % 1024) else d
        | none => d
      d1.apsSend n
    else if ev.k = 1 then (if 2 ≤ ev.n2 / 65536 then d.judgeTim n ev.n1 else d)
    else if ev.k = 2 then d.apsSend n
    else d

/-- An invocation starts (R420, R421, R427). -/
def Dev.ndlStart (d : Dev) (e : Nat) (ev : HookEv) (h : Nat) (then? : Option Nat) : Dev :=
  let d0 := if h < 16 then d.baseHandler ev else d
  let wins := match ev.port with | some n => d0.enabled n | none => false
  let d1 := d0.modEngine e (fun (x : EngineSt) => { x with running := some ⟨ev, h, then?, wins⟩, pc := d0.rd NDL.ADDR e h })
  let d2 := (((d1.wr NDL.N e 0 (ev.port.getD 0xFFFFF)).wr NDL.N e 1 ev.n1).wr NDL.N e 2 ev.n2).wr NDL.N e 3 ev.n3
  (d2.wr NDL.HOOK e 0 h).setNdlState e 2

/-- Whether engine `e` leaves an event queued because the engine its port was moved from still finishes that port's events (R428). -/
def Dev.ndlHeld (d : Dev) (e : Nat) (ev : HookEv) : Bool :=
  match ev.port with
  | some n => ev.ofPort n && d.rd PORT.ENGINE n == e && d.engFinishing n
  | none => false

/-- The engine takes its next event (R422): an event whose customer entry is still to run, else the oldest that its mask admits and that no
move holds (R428). -/
def Dev.ndlDispatch (d : Dev) (e : Nat) : Dev :=
  let x := d.engine e
  match x.waiting with
  | some (ev, h) =>
    let d1 := d.setEngine e { x with waiting := none }
    if (d1.ndlEntries e ev).contains h then d1.ndlStart e ev h none else d1
  | none =>
    match x.queue.find? (fun ev => admits (d.rd NDL.WAIT_MASK e) ev.k && !d.ndlHeld e ev) with
    | none => d
    | some ev =>
      let d1 := (d.setEngine e { x with queue := x.queue.erase ev }).mbxTaken e ev
      match d1.ndlEntries e ev with
      | [] => d1
      | h :: r => d1.ndlStart e ev h r.head?

/-! ### Control -/

/-- ENABLE written (R427): 1 lets a STOPPED engine dispatch again; 0 stops it, at the end of a running invocation. -/
def Dev.ndlEnable (d : Dev) (e : Nat) (was : Bool) : Dev :=
  let now := d.on (HDR.ENABLE .ndl) e
  if now == was then d
  else if d.ndlState e = 2 ∨ !d.needle.loaded then d
  else d.setNdlState e (if now then 1 else 0)

/-- SOFT_RESET of an NDL page (R437): data store and entry table from the image, the queue emptied. -/
def Dev.ndlSoftReset (d : Dev) (e : Nat) : Dev :=
  let d1 := (List.range 2048).foldl (fun d i => d.wr NDL.DATA e i (FMap.get 0 d.needle.imgData (e * 2048 + i))) d
  let d2 := (List.range 32).foldl
    (fun d h => let w := FMap.get 0 d.needle.imgEntry (e * 32 + h); (d.wr NDL.EN e h (w / 2 ^ 31)).wr NDL.ADDR e h (w % 4096)) d1
  (d2.modEngine e (fun (x : EngineSt) => { x with queue := [], waiting := none })).mbxDropped e (d2.engine e).queue

/-- A timer of an engine that has reached its boundary fires (R432). -/
def Dev.timerFire (d : Dev) (e t : Nat) : Dev :=
  let x := FMap.get NdlTimer.off (d.engine e).timers t
  match x.at? with
  | none => d
  | some at_ =>
    if d.timebase < at_ then d
    else
      let next : NdlTimer := if x.period = 0 then NdlTimer.off else { x with at? := some (at_ + x.period * frameTicks) }
      let d1 := d.modEngine e (fun (y : EngineSt) => { y with timers := FMap.set NdlTimer.off y.timers t next })
      let k := 5 + t
      if (d1.engine e).queue.any (fun ev => ev.k == k) then (d1.inc NDL.HOOK_DROP e).raise .ndl e 2
      else
        let win := match x.port with | some n => (d1.stn n 0).lab.window | none => []
        d1.hook e ⟨k, x.port, t, 0, 0, [], win⟩

/-! ### Host access to the stores (R437, R439) -/

/-- A host write of a data store word. -/
def Dev.ndlDataWrite (d : Dev) (e i v : Nat) : Dev := (d.wr NDL.DATA e i v).jrnAdd 1 [0x401000 + 16384 * e + 4 * i, v % 2 ^ 20]

/-- Word `i` of the window. -/
def Dev.ndlWinRead (d : Dev) (e i : Nat) : Nat :=
  let b := d.rd NDL.WIN_BANK e * 1024 + i
  if d.on NDL.WIN_SHARED e then FMap.get 0 d.needle.shared (e / 8 * 16384 + b) else d.istoreWord e (b % 4096)

/-- Writing a running engine's instruction store is misuse (R77, R437). -/
def Dev.ndlWinMisuse (d : Dev) (e : Nat) : Option Misuse :=
  if !d.on NDL.WIN_SHARED e && d.expert .ndl e && !d.on DEV.SIG_REQUIRED && d.ndlState e != 0 then some .engineStore else none

/-- A host write of a window word: a shared store word at any level; an instruction word at the expert level with SIG_REQUIRED 0. -/
def Dev.ndlWinWrite (d : Dev) (e i v : Nat) : Dev :=
  let b := d.rd NDL.WIN_BANK e * 1024 + i
  if d.on NDL.WIN_SHARED e then
    ({ d with needle := { d.needle with shared := FMap.set 0 d.needle.shared (e / 8 * 16384 + b) (v % 2 ^ 20) } }).jrnAdd 1
      [0x403000 + 16384 * e + 4 * i, v % 2 ^ 20]
  else if !d.expert .ndl e then d
  else if d.on DEV.SIG_REQUIRED then d.inc NDL.CODE_WR_DROP e
  else { d with needle := { d.needle with istore := FMap.set 0 d.needle.istore (e * 4096 + b % 4096) (v % 2 ^ 24 ^^^ 0xFFFFFF) } }

/-- A host write of an entry word (R437). -/
def Dev.ndlEntryWrite (d : Dev) (addr e off v : Nat) : Dev :=
  if !d.expert .ndl e then d
  else if d.on DEV.SIG_REQUIRED || d.ndlState e != 0 then d.inc NDL.CODE_WR_DROP e
  else d.writeFields addr .ndl e off v

/-! ### Meanings -/

/-- NEEDLE_DISPATCH (R422). -/
def execNeedleDispatch (engine : Fin 96) (s : State) : Host.Outcome State Fault Refusal :=
  stay s (whenDev (fun d => d.ndlState engine == 1 && d.on (HDR.ENABLE .ndl) engine) (fun d => d.ndlDispatch engine))

/-- ALU (R418). -/
def execAlu (engine : Fin 96) (s : State) : Host.Outcome State Fault Refusal := stay s (fun d => d.ndlRun engine NInstr.isAlu)
/-- JR (R417). -/
def execJr (engine : Fin 96) (s : State) : Host.Outcome State Fault Refusal := stay s (fun d => d.ndlRun engine NInstr.isJr)
/-- JALR (R417). -/
def execJalr (engine : Fin 96) (s : State) : Host.Outcome State Fault Refusal := stay s (fun d => d.ndlRun engine NInstr.isJalr)
/-- ADDI (R417). -/
def execAddi (engine : Fin 96) (s : State) : Host.Outcome State Fault Refusal :=
  stay s (fun d => d.ndlRun engine (NInstr.isImm .addi))
/-- SUBI (R417). -/
def execSubi (engine : Fin 96) (s : State) : Host.Outcome State Fault Refusal :=
  stay s (fun d => d.ndlRun engine (NInstr.isImm .subi))
/-- ANDI (R417). -/
def execAndi (engine : Fin 96) (s : State) : Host.Outcome State Fault Refusal :=
  stay s (fun d => d.ndlRun engine (NInstr.isImm .andi))
/-- ORI (R417). -/
def execOri (engine : Fin 96) (s : State) : Host.Outcome State Fault Refusal :=
  stay s (fun d => d.ndlRun engine (NInstr.isImm .ori))
/-- XORI (R417). -/
def execXori (engine : Fin 96) (s : State) : Host.Outcome State Fault Refusal :=
  stay s (fun d => d.ndlRun engine (NInstr.isImm .xori))
/-- CMPI (R417). -/
def execCmpi (engine : Fin 96) (s : State) : Host.Outcome State Fault Refusal :=
  stay s (fun d => d.ndlRun engine (NInstr.isImm .cmpi))
/-- SHLI (R417). -/
def execShli (engine : Fin 96) (s : State) : Host.Outcome State Fault Refusal :=
  stay s (fun d => d.ndlRun engine (NInstr.isImm .shli))
/-- SHRI (R417). -/
def execShri (engine : Fin 96) (s : State) : Host.Outcome State Fault Refusal :=
  stay s (fun d => d.ndlRun engine (NInstr.isImm .shri))
/-- ASRI (R417). -/
def execAsri (engine : Fin 96) (s : State) : Host.Outcome State Fault Refusal :=
  stay s (fun d => d.ndlRun engine (NInstr.isImm .asri))
/-- MOVI (R417). -/
def execMovi (engine : Fin 96) (s : State) : Host.Outcome State Fault Refusal :=
  stay s (fun d => d.ndlRun engine (NInstr.isImm .movi))
/-- LUI (R417). -/
def execLui (engine : Fin 96) (s : State) : Host.Outcome State Fault Refusal :=
  stay s (fun d => d.ndlRun engine (NInstr.isImm .lui))
/-- TSTI (R417). -/
def execTsti (engine : Fin 96) (s : State) : Host.Outcome State Fault Refusal :=
  stay s (fun d => d.ndlRun engine (NInstr.isImm .tsti))
/-- LD (R417). -/
def execLd (engine : Fin 96) (s : State) : Host.Outcome State Fault Refusal := stay s (fun d => d.ndlRun engine (NInstr.isMem .ld))

/-- Misuse by a store: DATA onto another master's RUNNING, or a nonzero write to reserved bits of a CHK unit (R11, R431, R461). -/
def Dev.ndlMisuse (d : Dev) (e : Nat) : Option Misuse :=
  match d.nfetch e with
  | some (_, w) =>
    match ndecode w with
    | some (.mem .st r b o) =>
      let a := d.naddr e b o
      let (u, off, hi) := chkAddr a
      let v := d.nreg e r % 65536 * 65536 + FMap.get 0 (d.engine e).chkHalf (a - 1)
      if 0xA0000 ≤ a ∧ a < 0xA1000 ∧ hi then
        (if 128 ≤ off then (if v = 0 then none else some .reservedWrite)
         else (d.chkMisuse u (e + 1) off).or (d.wordMisuse .chk 0 (0x100 + 0x80 * u + off) v))
      else none
    | _ => none
  | none => none

/-- ST (R417). -/
def execSt (engine : Fin 96) (s : State) : Host.Outcome State Fault Refusal :=
  unlessMisuse (s.dev.ndlMisuse engine) (stay s (fun d => d.ndlRun engine (NInstr.isMem .st)))
/-- XCH (R417). -/
def execXch (engine : Fin 96) (s : State) : Host.Outcome State Fault Refusal := stay s (fun d => d.ndlRun engine (NInstr.isMem .xch))
/-- B (R417). -/
def execB (engine : Fin 96) (s : State) : Host.Outcome State Fault Refusal := stay s (fun d => d.ndlRun engine NInstr.isB)
/-- CALL (R417). -/
def execCall (engine : Fin 96) (s : State) : Host.Outcome State Fault Refusal := stay s (fun d => d.ndlRun engine NInstr.isCall)
/-- WAIT (R417). -/
def execWait (engine : Fin 96) (s : State) : Host.Outcome State Fault Refusal := stay s (fun d => d.ndlRun engine NInstr.isWait)
/-- BREM (R417). -/
def execBrem (engine : Fin 96) (s : State) : Host.Outcome State Fault Refusal := stay s (fun d => d.ndlRun engine NInstr.isBrem)
/-- BRK (R427). -/
def execBrk (engine : Fin 96) (s : State) : Host.Outcome State Fault Refusal := stay s (fun d => d.ndlRun engine NInstr.isBrk)

/-- ILLEGAL_INSTRUCTION (R426): a RUNNING engine meets a word that is no instruction. -/
def execIllegalInstruction (engine : Fin 96) (s : State) : Host.Outcome State Fault Refusal :=
  stay s (fun d =>
    match d.nfetch engine with
    | some (iv, w) => if (ndecode w).isNone then d.ndlFault engine iv .illegal else d
    | none => d)

/-- NEEDLE_TIMER_FIRE (R432). -/
def execNeedleTimerFire (engine : Fin 96) (timer : Fin 16) (s : State) : Host.Outcome State Fault Refusal :=
  stay s (fun d => d.timerFire engine timer)

/-- ENGINE_ENABLE_WRITE (R427): the CTRL word of an NDL page. -/
def execEngineEnableWrite (engine : Fin 96) (value : Word) (s : State) : Host.Outcome State Fault Refusal :=
  unlessMisuse (s.dev.wordMisuse .ndl engine 8 value.toNat)
    (stay s (whenDev (fun d => d.writable .ndl)
      (fun d => (d.writeFields (0x400000 + 16384 * engine.val + 8) .ndl engine 8 value.toNat).ndlEnable engine
        (d.on (HDR.ENABLE .ndl) engine))))

end Sys2Proof.Machine
end

