-- ==== Sys2Proof/Machine/Role.lean ====
section
/-! DEFINITION. The unit's role in a pair: what PAIR shows, changes of the device state that end commands, SAFE, demotion and the way to
active service (R26 to R29, R66, R102, R381 to R386, R391, R400, R406, R407). -/

namespace Sys2Proof.Machine

/-! ### What PAIR shows (R383, R391, R402, R410) -/

def Dev.identityUnit (d : Dev) : Nat := match d.host.identity with | some (u, _, _) => u | none => 0

/-- The peer's pins are accepted as claiming, as not claiming, or as a wire fault (R385). -/
def Dev.pinsClaim (d : Dev) : Bool := d.rd PAIR.PEER_PINS == 2
def Dev.pinsIdle (d : Dev) : Bool := d.rd PAIR.PEER_PINS == 1
def Dev.pinsFault (d : Dev) : Bool := !d.pinsClaim && !d.pinsIdle

/-- "Peer claims" of R383. -/
def Dev.peerClaims (d : Dev) : Bool :=
  d.pinsClaim || (d.mateUp && match d.pair.peer with | some p => p.claim | none => false)

/-- The committed slot with the higher GENERATION (R394); none in a Hamper that is offline. -/
def Dev.newestSlot (d : Dev) : Option SlotSt :=
  if !d.hamperOnline then none
  else
    match d.pair.slotA.committed, d.pair.slotB.committed with
    | true, true => some (if d.pair.slotA.gen < d.pair.slotB.gen then d.pair.slotB else d.pair.slotA)
    | true, false => some d.pair.slotA
    | false, true => some d.pair.slotB
    | false, false => none

/-- Whether the unit is SYNCED as a standby, or its peer is as this active unit knows it (R391, R402). -/
def Dev.synced (d : Dev) : Bool :=
  match d.mode with
  | .standby =>
    (match d.newestSlot with | some s => s.epoch == d.rd PAIR.PEER_EPOCH && seqLe s.jseqBase d.pair.jrnHigh | none => false) &&
      !d.pair.jrnLag
  | .run => d.paired && d.mateUp && (d.rd PAIR.PEER_HEALTH).testBit 27 && !d.pair.jrnLost
  | _ => false

/-- The health word (R391). -/
def Dev.health (d : Dev) : Nat :=
  d.mode.code * 2 ^ 28 + d.synced.toNat * 2 ^ 27 + d.hamperOnline.toNat * 2 ^ 26 + d.lint.selftestFail.toNat * 2 ^ 25 +
  ((d.rd (HDR.LEVEL .pair)).testBit 10).toNat * 2 ^ 24 + d.rd BIST.ROUNDS % 256 * 2 ^ 16 +
  codeOf 8 (d.rdS STARCH.TJ_MAX / 4) * 2 ^ 8 + min 255 (d.rd LINT.CLASS_COUNT 0 2)

/-- ROLE (R410). -/
def Dev.roleCode (d : Dev) : Nat :=
  if !d.paired then 0
  else
    match d.mode with
    | .run => 3
    | .standby => 4
    | _ => if d.pair.resolving then 2 else 1

/-- CKPT_GEN of R390 for this unit. -/
def Dev.ckptGen (d : Dev) : Nat := if d.mode = .run then d.pair.genDone else match d.newestSlot with | some s => s.gen | none => 0

/-- JSEQ of R390 for this unit: the last SEQ sent, or the highest contiguous SEQ held. -/
def Dev.jseq (d : Dev) : Nat :=
  if d.mode = .run then (d.pair.jrnSeq + 2 ^ 32 - (d.pair.jrnOut.filter (fun e => e.sentAt.isNone)).length) % 2 ^ 32 else d.pair.jrnHigh

/-- The words of PAIR that follow the unit's state, with the SYNCED condition. -/
def Dev.showPair (d : Dev) : Dev :=
  let d1 := ((((((d.wr PAIR.ROLE 0 0 d.roleCode).flag PAIR.MATE_UP 0 0 d.mateUp).flag PAIR.PEER_CLAIMS 0 0 (d.paired && d.peerClaims)).flag
    PAIR.SYNCED 0 0 (d.paired && d.synced)).wr PAIR.CKPT_GEN_LO 0 0 d.ckptGen).wr PAIR.CKPT_GEN_HI 0 0 (d.ckptGen / 2 ^ 32)).wr PAIR.JSEQ 0 0 d.jseq
  (((d1.flag PAIR.HB_OK 0 0 (d.paired && decide (d.pair.hbMiss < 8))).wr PAIR.OWN_HEALTH 0 0 (if d.paired then d.health else 0)).cond .pair 0 6
    (d.paired && d.synced))

/-- CLAIM_WIRE judged: each start of a wire fault counts (R385). Before the first value is accepted there is none. -/
def Dev.judgeWire (d : Dev) : Dev :=
  let bad := d.pinsFault && d.pair.pinsAt != 0
  ((if bad && !(d.rd (HDR.LEVEL .pair)).testBit 7 then d.inc PAIR.CLAIM_WIRE else d).cond .pair 0 7 bad).faultCond (srcPair 2) bad

/-- PAIR_ISOLATED present or absent (R383, R399). -/
def Dev.isolated (d : Dev) (b : Bool) : Dev := ((d.flag PAIR.ISOLATED 0 0 b).cond .pair 0 3 b).faultCond (srcPair 1) b

/-! ### Changes of the device state that end commands (R66) -/

/-- What a command that has left the commands in flight had under way: it goes where it had not taken effect; a page copy or a programme
change that has begun goes on by itself. -/
def Dev.dropJobs (d : Dev) : Dev :=
  let gone := fun (t : Nat) => (d.findCmd t).isNone
  let swap := match d.mangle.swap with
    | some x => if !gone x.tag then some x else if x.passed then some { x with tag := 4096 } else none
    | none => none
  let d1 := { d with
    mangle := { d.mangle with swap := swap }
    lines := { d.lines with snaps := d.lines.snaps.filter (fun (x : Snapshot) => !gone x.tag) }
    hamper := { d.hamper with playReqs := d.hamper.playReqs.filter (fun (r : PlayReq) => !gone r.tag)
                              extracts := d.hamper.extracts.filter (fun (x : Extract) => !gone x.tag) }
    arch := { d.arch with
      prog := d.arch.prog.bind (fun (c : ProgChange) =>
        if !gone c.tag then some c else if c.phase = ProgPhase.held then none else some { c with tag := 4096 })
      placeTag := d.arch.placeTag.filter (fun t => !gone t)
      placeDue := d.arch.placeDue && !(match d.arch.placeTag with | some t => gone t | none => false) }
    starch := { d.starch with run := d.starch.run.filter (fun (r : CalRun) => !gone r.tag) }
    lint := { d.lint with run := d.lint.run.filter (fun (r : BistRun) => !gone r.tag) }
    host := { d.host with flashJob := d.host.flashJob.filter (fun x => !gone x.1) }
    pair := { d.pair with ckptForce := d.pair.ckptForce.filter (fun t => !gone t)
                          switch := d.pair.switch.filter (fun x => match x.1 with | some t => !gone t | none => true) } }
  ((((d1.wr MANGLE.SWAP_PENDING 0 0 (if swap.isSome then 1 else 0)).wr MANGLE.COPY_BUSY 0 0
    (match swap with | some x => x.passed.toNat | none => 0)).flag STARCH.CAL_BUSY 0 0 (d1.rd STARCH.CAL_BUSY == 1 && d1.starch.run.isSome)).wr
      HAMPER.EXTRACTS 0 0 d1.hamper.extracts.length).flag BIST.RUNNING 0 0 d1.lint.run.isSome

/-- The partition that a BIST item scans, if it is one (R498). -/
def lbistPart (item : Nat) : Option Nat := if item < 180 then none else some (item - 180)

/-- The end of rolling self-test: a partition under scan is initialised again, and its sources stay masked for 2 samples (R501, R503). -/
def Dev.rollStop (d : Dev) : Dev :=
  let m := match d.lint.rollItem.bind lbistPart with | some p => [(p, 2)] | none => []
  let d1 := { d with lint := { d.lint with rollItem := none, masked := d.lint.masked ++ m } }
  (d1.wr BIST.ROLLING 0 0 0).wr BIST.ITEM 0 0 0

/-- A device state entered. On entry to SAFE, RESET or STANDBY, commands that have started and are not legal there end (R66); in any other
state they go on. Selectors keep no state outside RUN (R348). The transmit lanes follow (R85). -/
def Dev.enterMode (d : Dev) (m : Mode) : Dev :=
  let d0 := if d.on BIST.ROLLING then d.rollStop else d
  let d1 := ({ d0 with
    mode := m
    lint := { d0.lint with exitDue := d0.lint.exitDue && m == Mode.maint } })
  let d2 := if m = .safe ∨ m = .reset ∨ m = .standby then d1.abortIllegal.dropJobs else d1
  (if m = .run then d2 else d2.dropSelectors).showIdle

/-- The claim pins driven to claiming or to not claiming (R386). -/
def Dev.driveClaim (d : Dev) (b : Bool) : Dev :=
  if d.on PAIR.OWN_CLAIM == b then d
  else ((d.emit (.claim b true)).flag PAIR.OWN_CLAIM 0 0 b).modPair (fun (x : PairSt) => { x with claimSince := if b then some d.timebase else none })

/-- SAFE entered by a FATAL fault (R26, R29, R489): every port stops; an active unit drops its claim and sends FATAL four times (R386,
R389). Only BOOT, CAL, READY, RUN, STANDBY and MAINT have a way to SAFE. -/
def Dev.enterSafe (d : Dev) : Dev :=
  if d.mode = .safe ∨ d.mode = .reset then d
  else
    let active := d.pairActive
    let d0 := if d.mode = .boot then d.emit (.claim false true) else d.driveClaim false
    let d1 := d0.stopAll.enterMode .safe
    let d2 := d1.modPair (fun (x : PairSt) => { x with resolving := false, waitFrom := none, take := none, send := none, jrnOut := [], switch := none })
    let d3 := if active then
        (List.range 4).foldl (fun (d : Dev) _ => d.mateSend 0x02 (words64 d.identityUnit ++ [d.rd PAIR.EPOCH])) d2
      else d2
    (d3.isolated false).showPair

/-- STANDBY entered: rolling self-test starts from step 0 (R503), the mirror waits for a layout, PAIR_ISOLATED is judged (R399). -/
def Dev.enterStandby (d : Dev) : Dev :=
  let d1 := d.enterMode .standby
  let d2 := ({ d1 with lint := { d1.lint with rollStep := 0, rollItem := none, rollFrom := d1.timebase } }).wr BIST.ROLLING 0 0 1
  ((d2.modPair (fun (x : PairSt) =>
    { x with resolving := false, waitFrom := none, mirPer := none, mirSeq := none, mirWords := [], mirGap := false, rxGen := none })).isolated
      (d2.paired && !d2.mateUp && d2.pinsFault)).showPair

/-! ### Demotion (R406, R407) -/

/-- The unit demotes itself, with a CAUSE of R406 or R404. A CMD_SWITCHOVER that had not yet sent HANDOVER completes with BUSY. -/
def Dev.demote (d : Dev) (cause : Nat) : Dev :=
  let d1 := (d.driveClaim false).stopAll
  let d2 := d1.modPair (fun (x : PairSt) => 
    { x with send := none, ckptForce := [], ckptDue := false, jrnHigh := x.jrnSeq, jrnIn := [], jrnAliveIn := none, jrnOut := [], jrnStop := false, jrnLost := false,
             take := none, holds := [] })
  let d3 := (d2.wr PAIR.EPOCH 0 0 (max (d2.rd PAIR.EPOCH) (d2.rd PAIR.PEER_EPOCH))).enterStandby
  let d4 := match d3.pair.switch with
    | some (tag, .drain _) =>
      let e := d3.modPair (fun (x : PairSt) => { x with switch := none })
      match tag with | some t => e.complete t .busy | none => e
    | _ => d3
  (((d4.inc PAIR.DEMOTIONS).wr PAIR.CAUSE 0 0 cause).raise .pair 0 1).showPair

/-! ### The way to active service (R384, R400) -/

/-- Step 3 of R400: EPOCH incremented and journalled (R384); 0 is never claimed. -/
def Dev.nextEpoch (d : Dev) : Dev :=
  let e := (max (d.rd PAIR.EPOCH) (d.rd PAIR.PEER_EPOCH) + 1) % 2 ^ 32
  let v := if e = 0 then 1 else e
  (d.wr PAIR.EPOCH 0 0 v).journalFlash 3 v

/-- The AFE writes of R102: HOLD ended on every master, OWNER to every present AFE, every PORT_GAIN code as a changed byte. -/
def Dev.takeAfes (d : Dev) : Dev :=
  let d1 := (List.range 4).foldl (fun (d : Dev) m =>
    let x := d.master m
    let e := d.setMaster m { x with
      queue := x.queue.filter SpiJob.isId
      release := x.raw }
    if x.raw then e else e.releaseHold m) d
  let d2 := ((List.range 32).filter (fun k => (d1.rd AFEC.AFE_PRESENT).testBit k)).foldl
    (fun (d : Dev) k => d.spiQueue (.owner k (d.rd DEV.PAIR_ROLE))) d1
  (List.range 512).foldl (fun (d : Dev) n =>
    (d.setRinse n { d.rinse n with gain := none }).gainStart n (d.rd AFEC.PORT_GAIN 0 n)) d2

/-- Steps 3 and 4 of R400, with the registers of a transition to active: its cause and its trigger's TIMEBASE. The journal goes on from
the last entry held. -/
def Dev.activate (d : Dev) (cause trigger : Nat) : Dev :=
  let d1 := ((d.nextEpoch).driveClaim true).enterMode .run
  let d2 := d1.modPair (fun (x : PairSt) =>
    { x with resolving := false, waitFrom := none, take := some trigger, send := none, ckptDue := true, jrnSeq := x.jrnHigh, jrnOut := [], jrnIn := [],
             jrnStop := false, jrnLost := false, jrnAlive := x.jrnAliveIn.getD x.jrnAlive, progWant := none, rxGen := none })
  ((((((d2.isolated false).takeAfes).inc PAIR.TAKEOVERS).wr PAIR.CAUSE 0 0 cause).raise .pair 0 0)).showPair

/-! ### Role resolution (R383) -/

/-- Since when a resolving unit has had the mate link down and the peer not claiming. -/
def Dev.judgeWait (d : Dev) : Dev :=
  let w := if d.pair.resolving && !d.mateUp && d.pinsIdle then some (d.pair.waitFrom.getD d.timebase) else none
  d.modPair (fun (x : PairSt) => { x with waitFrom := w })

/-- The first row of R383 that applies to a resolving unit in READY. With the mate link up the peer's STATUS must have shown its state. -/
def Dev.judgeRole (d0 : Dev) : Dev :=
  let d := d0.judgeWait
  if !d.paired || d.mode != .ready || !d.pair.resolving then d
  else if d.on PAIR.MISMATCH then ((d.modPair (fun (x : PairSt) => { x with resolving := false, waitFrom := none })).isolated false).showPair
  else if d.peerClaims then d.enterStandby
  else if d.mateUp then
    match d.pair.peer with
    | none => d.isolated false
    | some p =>
      if !p.resolving then d.activate 5 d.timebase
      else
        let own := d.rd PAIR.EPOCH
        let his := d.rd PAIR.PEER_EPOCH
        if his < own ∨ (own = his ∧ d.rd DEV.PAIR_ROLE = 0) then d.activate 5 d.timebase else d.enterStandby
  else if d.pinsFault then (d.isolated true).showPair
  else
    match d.pair.waitFrom with
    | some t =>
      if !d.passed t (secTicks 2) then d.isolated false
      else if d.rd DEV.PAIR_ROLE = 0 then d.activate 5 d.timebase
      else (d.isolated true).showPair
    | none => d

/-- PAIR_ISOLATED of a standby: the mate link down and the claim pins in wire fault (R399). -/
def Dev.judgeIsolated (d : Dev) : Dev := if d.mode = .standby ∧ d.paired then d.isolated (!d.mateUp && d.pinsFault) else d

/-- Resolution starts, in READY and without PAIR_MISMATCH (R382, R383). -/
def Dev.resolveStart (d : Dev) : Dev :=
  if d.paired && d.mode == .ready && !d.on PAIR.MISMATCH && !d.pair.resolving then
    (((d.modPair (fun (x : PairSt) => { x with resolving := true })).flag PAIR.RESOLVE 0 0 false).showPair).judgeRole
  else d

/-- READY entered: with AUTO_RESOLVE a paired unit resolves (R383). -/
def Dev.enterReady (d : Dev) : Dev :=
  let d1 := (d.enterMode .ready).showPair
  if d1.on PAIR.AUTO_RESOLVE then d1.resolveStart else d1

end Sys2Proof.Machine
end

