-- ==== Sys2Proof/Machine/Calib.lean ====
section
/-! DEFINITION. Calibration runs, power-up calibration and the retries of deferred ports (R27, R465 to R471, R478 to R480). -/

namespace Sys2Proof.Machine

/-- Whether a port's link is UP. -/
def Dev.portLinkUp (d : Dev) (n : Nat) : Bool := (d.link (portLink n)).mode == .up

/-- The port items that a scope of R479 measures, in the bits of ITEM_SUSPECT. -/
def scopeItems (scope : Nat) : Nat := (if scope.testBit 1 then 7 else 0) + (if scope.testBit 2 then 8 else 0)

/-- The ports that word 2 of CMD_CAL_RUN names (R479). -/
def calPorts (w : Nat) : List Nat := if w = 0x3FF then List.range 512 else [w]

/-- Whether arguments of CMD_CAL_RUN are out of range (R479). -/
def calArgsBad (a : List Nat) : Bool :=
  decide (15 < a.getD 0 0) || (decide (511 < a.getD 1 0) && a.getD 1 0 != 0x3FF)

/-- The port part of a calibration: a port whose link is UP takes its result; a port whose link is not UP is deferred, at power-up and
under REPEAT (R467, R468, R478). -/
def Dev.calPort (c : CalData) (items : Nat) (powerUp : Bool) (d : Dev) (n : Nat) : Dev :=
  if d.portLinkUp n then d.portResult items n (calPortOf c n)
  else if powerUp || !d.on STARCH.CAL_MODE then d.defer n
  else d

/-- Power-up calibration: every delay element, every port (R469, R478). -/
def Dev.powerCal (d : Dev) (c : CalData) : Dev :=
  let d1 := d.calDelays c true
  let d2 := ((List.range 512).foldl (Dev.calPort c 15 true) d1).countDeferred
  ((d2.setTput c.tput).calEnd c.tj).wr STARCH.CAL_BUSY 0 0 0

/-- The result words of CMD_CAL_RUN (R479): elements are counted where the run covered them, ports where their link was UP. -/
def Dev.calWords (d : Dev) (scope : Nat) (ports : List Nat) : List Nat :=
  let del := scope.testBit 0
  let items := scopeItems scope
  let ps := if items = 0 then [] else ports
  [if del then 2048 else 0, if del then d.rd STARCH.SUSPECT_ELEMS else 0, (ps.filter d.portLinkUp).length,
   (ps.filter (fun n => d.on PORT.CAL_DEFERRED n || d.rd PORT.ITEM_SUSPECT n &&& items != 0)).length, d.rd STARCH.CAL_COUNT]

/-- The measurements of a run taken and the run ended; the device returns to the state it came from (R27, R479). -/
def Dev.calRunEnd (d : Dev) (r : CalRun) (c : CalData) : Dev :=
  let items := scopeItems r.scope
  let ports := calPorts r.port
  let d1 := if r.scope.testBit 0 then (d.calDelays c (r.scope.testBit 3)).setTput c.tput else d
  let d2 := if items = 0 then d1 else (ports.foldl (Dev.calPort c items false) d1).countDeferred
  let d3 := (d2.calEnd c.tj).wr STARCH.CAL_BUSY 0 0 0
  let ws := d3.calWords r.scope ports
  let d4 := { d3 with starch := { d3.starch with run := none }, mode := if d3.calFrom = Mode.maint then Mode.maint else Mode.ready }
  let d5 := d4.complete r.tag .ok ws
  if d5.mode = .ready then d5.enterReady else d5.showPair.showIdle

/-! ### Quiet windows and ramps (R470) -/

/-- Whether the frame that ends is one of a quiet window's (R470). -/
def Dev.quietNow (d : Dev) (n : Nat) : Bool :=
  (!d.enabled n && d.portLinkUp n && (d.mode == .ready || d.mode == .run || d.mode == .maint)) ||
  (d.attempting n && d.act n == 1) ||
  (d.offering n && match (d.port n).offer with | some o => o.accepted.isNone | none => false)

/-- One frame of a deferred port's search for a quiet window. -/
def Dev.quietFrame (d : Dev) (n : Nat) : Dev :=
  let k := if d.on PORT.CAL_DEFERRED n && d.on STARCH.DEFER_RETRY && d.quietNow n then min 32 (FMap.get 0 d.starch.window n + 1) else 0
  { d with starch := { d.starch with
      window := FMap.set 0 d.starch.window n k
      touched := if k ≤ 1 then FMap.set false d.starch.touched n false else d.starch.touched } }

/-- A ramped item one code nearer its target. -/
def Dev.rampStep (d : Dev) (r : Ramp) : Dev :=
  let one := fun (v : Int) => if v < r.target then v + 1 else if r.target < v then v - 1 else v
  if r.item = 0 then d.wr PORT.LOS_THRESH r.port 0 (codeOf 10 (one (d.rdS PORT.LOS_THRESH r.port)))
  else if r.item = 1 then d.wr PORT.NOISE_FLOOR r.port 0 (codeOf 9 (one (d.rd PORT.NOISE_FLOOR r.port)))
  else if r.item = 9 then d.wr PORT.DC_TRIM r.port 0 (codeOf 10 (one (d.rdS PORT.DC_TRIM r.port)))
  else d.wr PORT.OFS_TRIM r.port (r.item - 2) (codeOf 10 (one (d.rdS PORT.OFS_TRIM r.port (r.item - 2))))

/-- The item that a ramp moves has reached its target. -/
def Dev.rampDone (d : Dev) (r : Ramp) : Bool :=
  if r.item = 0 then d.rdS PORT.LOS_THRESH r.port == r.target
  else if r.item = 1 then (d.rd PORT.NOISE_FLOOR r.port : Int) == r.target
  else if r.item = 9 then d.rdS PORT.DC_TRIM r.port == r.target
  else d.rdS PORT.OFS_TRIM r.port (r.item - 2) == r.target

/-- The work of STARCH at a system frame boundary: ramps move by one code, quiet windows are counted. -/
def Dev.starchFrame (d : Dev) : Dev :=
  let d1 := d.starch.ramps.foldl Dev.rampStep d
  let d2 := { d1 with starch := { d1.starch with ramps := d1.starch.ramps.filter (fun r => !d1.rampDone r) } }
  (List.range 512).foldl Dev.quietFrame d2

/-- The targets of a port's items, but those that the host has written at the expert level since the port was deferred. -/
def Dev.rampsTo (d : Dev) (n : Nat) (x : PortItems) : List Ramp :=
  let all : List Ramp := [⟨n, 0, x.floor + 24⟩, ⟨n, 1, x.noise⟩] ++ (List.range 7).map (fun i => ⟨n, 2 + i, x.ofs.getD i 0⟩) ++ [⟨n, 9, x.dc⟩]
  all.filter (fun r => !FMap.get false d.starch.expert (16 * n + r.item))

/-- A retry pass over a quiet window (R467, R470): pairs are compared as they complete; an agreeing pair ends the deferral, a pair that
disagrees is measured again. A pass that a correlator detection or, as `tone` says, a tone detection touches is discarded. -/
def Dev.retryPass (d : Dev) (n : Nat) (x : PortItems) (tone : Bool) : Dev :=
  let d0 := { d with starch := { d.starch with
      window := FMap.set 0 d.starch.window n 0, touched := FMap.set false d.starch.touched n false } }
  if tone || FMap.get false d.starch.touched n then d0.inc PORT.RETRIES n
  else
    match FMap.get [] d0.starch.passes n with
    | [] => { d0 with starch := { d0.starch with passes := FMap.set [] d0.starch.passes n [x] } }
    | p :: _ =>
      if portAgree p x then
        let d1 := d0.undefer n
        let d2 := { d1 with starch := { d1.starch with ramps := d1.starch.ramps ++ d1.rampsTo n (portMean p x) } }
        ((d2.wr PORT.PORT_CAL_TB n 0 d2.timebase).wr PORT.NEVER_CAL n 0 0).countDeferred
      else { d0 with starch := { d0.starch with passes := FMap.set [] d0.starch.passes n [] } }

/-- A host write at the expert level to a calibrated field of a port: a retry no longer replaces it (R470). -/
def Dev.markExpert (d : Dev) (n item : Nat) : Dev :=
  { d with starch := { d.starch with
      expert := FMap.set false d.starch.expert (16 * n + item) true
      ramps := d.starch.ramps.filter (fun r => r.port != n || r.item != item) } }

/-! ### Meanings -/

/-- POWERUP_CAL_DONE (R26, R478): the power-up calibration of CAL ends and the device enters READY. -/
def execPowerupCalDone (data : CalData) (s : State) : Host.Outcome State Fault Refusal :=
  shift s (whenDev (fun d => d.mode == .cal && d.calFrom == .boot)
    (fun d => ((d.powerCal data).wr DEV.BOOT_STEP 0 0 10).enterReady))

/-- CMD_CAL_RUN (R27, R64, R479): BUSY with STARCH.EXPERT = 0; else the device enters CAL for the run. -/
def execCmdCalRun (tag : Fin 4096) (s : State) : Host.Outcome State Fault Refusal :=
  unlessMisuse (argMisuse s 5 tag calArgsBad)
    (shift s (fun d => d.startCmd 5 tag (fun c d =>
      if d.starch.run.isSome || !d.on (HDR.EXPERT .starch) then d.complete tag .busy
      else
        ({ d with mode := .cal
                  calFrom := d.mode
                  starch := { d.starch with run := some ⟨tag, c.args.getD 0 0, c.args.getD 1 0⟩ } }).wr STARCH.CAL_BUSY 0 0 1)))

/-- CAL_RUN_DONE (R27, R479, R480). -/
def execCalRunDone (data : CalData) (s : State) : Host.Outcome State Fault Refusal :=
  shift s (fun d =>
    match d.starch.run with
    | some r => if d.mode = .cal then d.calRunEnd r data else d
    | none => d)

/-- CAL_RETRY_PASS (R470): 32 consecutive quiet frames have passed; `tone` says whether the tone detector of R179 detected in them. -/
def execCalRetryPass (port : Fin 512) (items : PortItems) (tone : Bool) (s : State) : Host.Outcome State Fault Refusal :=
  stay s (whenDev
    (fun d => d.on PORT.CAL_DEFERRED port && d.on STARCH.DEFER_RETRY && FMap.get 0 d.starch.window port == 32)
    (fun d => d.retryPass port items tone))

end Sys2Proof.Machine
end

