-- ==== Sys2Proof/Machine/Takeover.lean ====
section
/-! DEFINITION. Checkpoint contents, their load, the journal's application and takeover (R392 to R403, R438). -/

namespace Sys2Proof.Machine

/-! ### Register keys -/

/-- The field number of a register key. -/
def keyField (k : Nat) : Nat := k / 2 ^ 28

/-- The fields that section REGS and a cold takeover restore: RW and RWE fields of every register page. Data stores and entry tables of
the engines are in section NEEDLE (R393). -/
def regsFields : List Nat :=
  ([Page.dev, .lint0, .lint1, .lint2, .starch, .pair, .hostq, .chk, .mtx, .bist, .hamper, .afec, .mangle, .trunk, .jlane, .port, .ndl].flatMap
    (fun p => (fieldsOf p).filterMap (fun f =>
      if (f.access = .rw ∨ f.access = .rwe) ∧ !([NDL.DATA, NDL.EN, NDL.ADDR, NDL.WIN].contains f) then some f.id else none)))

/-- The fields of the tributary and station contexts. -/
def contextField (id : Nat) : Bool := id / 1048576 == Page.trib.code || id / 1048576 == Page.stn.code

def needleFields : List Nat := [NDL.DATA.id, NDL.EN.id, NDL.ADDR.id]

/-- The fields of section MISC: PM totals, gain codes, placement. -/
def miscFields : List Nat := [PORT.TOTAL.id, AFEC.PORT_GAIN.id, PORT.LANE.id, PORT.LANE_PIN.id, PORT.ENGINE.id, PORT.ENGINE_PIN.id]

/-- The stored entries of the fields chosen. -/
def Dev.regsOf (d : Dev) (want : Nat → Bool) : List (Nat × Nat) := d.regs.filter (fun e => want (keyField e.1))

/-- The fields chosen set to stored entries, the others of them to what the Reset column gives. -/
def Dev.loadRegs (d : Dev) (want : Nat → Bool) (xs : List (Nat × Nat)) : Dev :=
  { d with regs := (xs.filter (fun e => want (keyField e.1))).foldl (fun m e => FMap.set 0 m e.1 e.2) (d.regs.filter (fun e => !want (keyField e.1))) }

/-! ### Section bodies (R393) -/

/-- What is saved of a selector. -/
def SelSt.save (x : SelSt) (kind index : Nat) : SelSave :=
  ⟨kind, index, x.onProt, x.localReq, x.top, x.own, x.msProt, match x.restore with | .none => 0 | .wtr _ => 1 | .dnr => 2⟩

/-- The body of a section as it stands. -/
def Dev.sectionBody (d : Dev) (id : Nat) : CkptBody :=
  match id with
  | 1 => .regs (d.regsOf regsFields.contains)
  | 2 => .cmem d.activePage d.mangle.cmem
  | 3 => .contexts (d.regsOf contextField)
  | 4 => .lines (d.enabledPorts.map (fun n =>
      ⟨n, d.rd PORT.LC_ACTIVE n, FMap.get none d.sys.phi n, (d.shr n).map.entries, (d.shr n).map.full, (d.port n).spin.saved, (d.port n).wring.saved⟩))
  | 5 => .selectors (d.mangle.group.map (fun e => e.2.save 0 e.1) ++ d.mangle.entrySel.map (fun e => e.2.save 1 e.1) ++
      d.mangle.pairSel.map (fun e => e.2.save 2 e.1))
  | 6 => .needle (d.rd NDL.IMAGE_CRC) (d.regsOf needleFields.contains) d.needle.shared
  | 7 => .hamper d.hamper.ranks d.hamper.dlySet d.hamper.dlyGen d.hamper.clips
  | _ => .misc (d.regsOf miscFields.contains)

/-! ### The load (R400, R401, R438) -/

/-- A selector restored: its hold-off timers restart, a WTR restarts with its full time (R401). -/
def SelSave.restored (x : SelSave) (cfg : SelCfg) (now : Nat) : SelSt :=
  { SelSt.reset with
    started := true
    onProt := x.onProt
    localReq := x.localReq
    top := x.top
    own := x.own
    msProt := x.msProt
    restore := match x.restore with | 1 => .wtr (now + secTicks (60 * cfg.wtr)) | 2 => .dnr | _ => .none }

/-- One selector of section SELECTORS. -/
def Dev.loadSel (d : Dev) (x : SelSave) : Dev :=
  match x.kind with
  | 0 => d.modMangle (fun m => { m with group := FMap.set SelSt.reset m.group x.index (x.restored (d.groupCfg x.index) d.timebase) })
  | 1 =>
    let y := x.restored (d.entryCfg (Conn.of x.index (d.cmemWord d.activePage x.index))) d.timebase
    d.modMangle (fun m => { m with entrySel := FMap.set SelSt.reset m.entrySel x.index y })
  | _ => d.modMangle (fun m => { m with pairSel := FMap.set SelSt.reset m.pairSel x.index (x.restored (d.pairCfg x.index) d.timebase) })

/-- The stores start from the image (R438). -/
def Dev.needleFromImage (d : Dev) : Dev :=
  let d1 := (List.range 96).foldl (fun (d : Dev) e => d.ndlSoftReset e) d
  { d1 with needle := { d1.needle with shared := d1.needle.imgShared } }

/-- Section NEEDLE: loaded if it comes from this unit's own image; else IMAGE_DIFF (R438). -/
def Dev.loadNeedle (d : Dev) (crc : Nat) (fields shared : List (Nat × Nat)) : Dev :=
  if crc = d.rd NDL.IMAGE_CRC then
    let d1 := d.loadRegs needleFields.contains fields
    { d1 with needle := { d1.needle with shared := shared.foldl (fun m e => FMap.set 0 m e.1 e.2) [] } }
  else (d.needleFromImage).raise .ndl 0 6

/-- What a takeover has restored of the line ports so far: the enabled ports. -/
abbrev PortPlan := List LineSave

/-- The segment tables loaded. A rank that has mirrored the peer's periods keeps its table, which is in step; any other takes the ring's
place and segment number, and holds none of the blocks that the table names. -/
def loadRanks (epoch : Nat) (own ranks : FMap RankSt) : FMap RankSt :=
  ranks.foldl (fun m e =>
    let x := FMap.get RankSt.empty own e.1
    if x.stripes.any (fun s => s.epoch == some epoch) then m
    else FMap.set RankSt.empty m e.1 { e.2 with stripes := [], segs := [], last := [], lost := match x.stripes.getLast? with | some s => some s.start | none => x.lost }) own

/-- A section loaded. Ports and selectors follow when the journal has been applied. -/
def Dev.loadSection (acc : Dev × PortPlan × List SelSave) (b : CkptBody) : Dev × PortPlan × List SelSave :=
  let (d, ports, sels) := acc
  match b with
  | .regs xs => (d.loadRegs regsFields.contains xs, ports, sels)
  | .cmem active xs =>
    ((d.modMangle (fun m => { m with cmem := xs.foldl (fun m e => FMap.set 0 m e.1 e.2) [], judged := [], swap := none })).wr MANGLE.ACTIVE_PAGE 0 0
      active, ports, sels)
  | .contexts xs => (d.loadRegs contextField (xs.filter (fun e => !([TRIB.T_UNEQ.id, TRIB.T_PLM.id, TRIB.REC_ACTIVE.id, TRIB.REC_ACTIVE2.id].contains (keyField e.1)))), ports, sels)
  | .lines xs => (d, xs, sels)
  | .selectors xs => (d, ports, xs)
  | .needle crc f s => (d.loadNeedle crc f s, ports, sels)
  | .hamper ranks delays gens clips =>
    (d.modHamper (fun h => { h with
      ranks := loadRanks (d.rd PAIR.PEER_EPOCH) h.ranks ranks
      dlySet := delays.foldl (fun m e => FMap.set 0 m e.1 e.2) []
      dly := delays.foldl (fun m e => FMap.set 0 m e.1 e.2) []
      dlyDue := none
      dlyGen := gens.foldl (fun m e => FMap.set 0 m e.1 e.2) []
      clips := clips.foldl (fun m e => FMap.set Clip.none m e.1 e.2) [] }), ports, sels)
  | .misc xs => (d.loadRegs miscFields.contains xs, ports, sels)

/-- The state of a cold takeover: REGS and contexts from DEVICE_CONFIG, CMEM at its reset content, no port enabled (R400). -/
def Dev.loadCold (d : Dev) : Dev × PortPlan × List SelSave :=
  let d1 := (d.loadRegs regsFields.contains d.flash).loadRegs contextField d.flash
  (((d1.modMangle (fun m => { m with cmem := [], judged := [], swap := none })).wr MANGLE.ACTIVE_PAGE 0 0 0).wr PAIR.COLD 0 0 1, [], [])

/-! ### The journal applied (R395, R400) -/

/-- The RW and RWE fields of a page or context word set. -/
def Dev.applyFields (d : Dev) (p : Page) (inst off v : Nat) : Dev :=
  (fieldsOf p).foldl
    (fun d f => if f.access = .rw ∨ f.access = .rwe then (f.inWord off).foldl (fun d i => d.wr f inst i (f.part i v)) d else d) d

/-- A journalled write of a register or context word: placement pins, delays and store windows act as host writes of them do. -/
def Dev.applyWrite (d : Dev) (addr v : Nat) : Dev :=
  match region addr with
  | .page .port n 0x28 => d.writePlace n v
  | .page .hamper _ off =>
    if !(HAMPER.DELAY.inWord off).isEmpty then d.dlyWrite (d.rd HAMPER.DLY_INDEX) (HAMPER.DELAY.part 0 v) else d.applyFields .hamper 0 off v
  | .page p inst off => d.applyFields p inst off v
  | .ndlData e i => d.wr NDL.DATA e i v
  | .ndlWin e i =>
    { d with needle := { d.needle with shared := FMap.set 0 d.needle.shared (e / 8 * 16384 + d.rd NDL.WIN_BANK e * 1024 + i) (v % 2 ^ 20) } }
  | _ => d

/-- The line code that a port starts under is decided when the ports are restored. -/
def freshSave (n : Nat) : LineSave := ⟨n, 0, none, List.replicate 16 15, false, SpinSave.reset, PamEq.reset⟩

/-- The written pins take effect at once: no port runs (R35). -/
def Dev.applyPinsNow (d : Dev) : Dev := ({ d with arch := { d.arch with placeDue := true, placeTag := none } }).applyPins d.timebase

/-- A journalled command (R395). CMD_PROGRAMME has been applied on arrival (R396). -/
def Dev.applyCommand (d : Dev) (ports : PortPlan) (item : List Nat) : Dev × PortPlan :=
  let n := item.getD 1 0
  match item.headD 0 / 2 ^ 20 % 256 with
  | 2 => (d, if ports.any (fun (x : LineSave) => x.port == n) then ports else ports ++ [freshSave n])
  | 3 => (d, ports.filter (fun (x : LineSave) => x.port != n))
  | 11 => (d.applyPinsNow, ports)
  | _ => (d, ports)

/-- One journal entry applied. -/
def Dev.applyEntry (acc : Dev × PortPlan) (e : JrnIn) : Dev × PortPlan :=
  let (d, ports) := acc
  match e.kind, e.payload with
  | 1, [addr, v] => (d.applyWrite addr v, ports)
  | 2, [g, i, lo, hi] => (d.modMangle (fun m => { m with cmem := FMap.set 0 m.cmem (g % 2 * 32768 + i % 32768) ((lo + hi * 2 ^ 32) ^^^ 15) }), ports)
  | 3, item => d.applyCommand ports item
  | 4, [_, page] =>
    let d1 := d.wr MANGLE.ACTIVE_PAGE 0 0 page
    (if d1.on MANGLE.COPY_ON_SWAP then d1.copyPage else d1, ports)
  | _, _ => (d, ports)

/-- The entries from SEQ `seq` on with ALIVE `alive` (none for the first), up to the first that breaks the order or fails its CRC-32
(R400). -/
def journalRun : Nat → Option Nat → List JrnIn → List JrnIn
  | _, _, [] => []
  | seq, alive, e :: r =>
    if e.seq == seq && e.ok && (match alive with | some a => e.alive == (a + 1) % 16 | none => true) then
      e :: journalRun ((seq + 1) % 2 ^ 32) (some e.alive) r
    else []

/-! ### The line ports restored (R401, R402) -/

/-- The offset of the peer's TIMEBASE (R390). -/
def Dev.tbOffset (d : Dev) : Int := signedOf 64 (word64 (d.rd PAIR.TB_OFFSET_LO) (d.rd PAIR.TB_OFFSET_HI))

/-- A place on a port's time axis that the peer saved, on this unit's TIMEBASE. -/
def Dev.ownPlace (d : Dev) (n : Nat) (p : Int) : Int := p - Int.fdiv (d.tbOffset * 2 * d.axis n * 65536) 5

/-- The saved state of a port's signal processing, as the peer held it, taken over (R393, R402). -/
def Dev.loadSaved (d : Dev) (x : LineSave) : Dev :=
  d.modPort x.port (fun (y : PortSt) => { y with
    spin := { y.spin with saved := { x.spin with next := x.spin.next.map (d.ownPlace x.port) } }
    wring := { y.wring with saved := { x.eq with next := x.eq.next.map (d.ownPlace x.port) } } })

/-- An enabled port restored: DOWN, placed afresh, its defects cleared, to start again at its next downstream multiframe boundary from its
restored state as after a lane reset; a shared port sends a sync frame, and its stations are LOST. -/
def Dev.restorePort (d : Dev) (x : LineSave) : Dev :=
  let n := x.port
  let d0 := { d with arch := { d.arch with ports := FMap.set .disabled d.arch.ports n .disabled } }
  let d1 := (((d0.placeLane n).placeEngine n).setPort n .down).placeBanks n
  let st := (d1.port n).started d1.timebase
  let map : GrantMap := ⟨x.map, x.full⟩
  let d2 := (d1.setPortSt n { st with
      scale := d1.rd PORT.SOFT_SCALE n
      mfSeen := d1.mfEnded d1.timebase
      shared := { st.shared with map := map, prevMap := map, sent := map, last := map } }).setRinse n { d1.rinse n with
    dc := d1.rdS PORT.DC_TRIM n * 65536 }
  let code := if x.code = 0 then d2.startCode n else x.code
  let d3 := { d2 with
    arch := { d2.arch with replace := true
                           portMiss := FMap.set [] d2.arch.portMiss n [] }
    sys := { d2.sys with phi := FMap.set none d2.sys.phi n x.phi } }
  let d4 := (List.range 16).foldl (fun (d : Dev) s =>
    let e := d.setStn n s { StnRx.reset with lostAt := d.timebase }
    if e.shared n && e.stnState n s != 0 then e.setStnState n s 3 else e) d3
  let d5 := ((((d4.wr PORT.LC_ACTIVE n 0 code).wr PORT.ACT_STATE n 0 0).wr PORT.ACQ_STATE n 0 0).loadSaved x).formWindows n
  let d6 := (((d5.slipRestart n).judgeCfg n).portToReset n).clearDefects n
  (if d6.shared n then d6.sharedStart n else d6).judgeFailure n

/-- What follows from restored configuration: links, trunk lanes and engines take their enables, the load is counted. -/
def Dev.followRegs (d0 d : Dev) : Dev :=
  let d1 := (List.range 8).foldl (fun (d : Dev) l => d.trunkEnable l (d0.trunkOn l)) d.followEnables
  let d2 := (List.range 96).foldl (fun (d : Dev) e => d.ndlEnable e (d0.on (HDR.ENABLE .ndl) e)) d1
  (d2.showEntries').wr DEV.LOAD_UNITS 0 0 d2.loadUnits

/-! ### Mirrored blocks (R368, R397, R403) -/

/-- The frames of a mirrored stream; those that never came are IDLE and substituted where `fill`. -/
def Dev.mirFrames (d : Dev) (key : Nat) : List Nat :=
  (List.range periodFrames).map (fun w => match FMap.get 0 d.pair.mirWords (key * 3200 + w) with | 0 => recIdle + 2048 | v + 1 => v)

/-- A rank takes the stripe that the active unit opened (R368). -/
def RankSt.mirror (x : RankSt) (r : MirRank) (start epoch : Nat) : RankSt :=
  let layout := r.streams.map (fun s => s.key)
  let x1 := x.lose (fun s => decide (s.off < r.off + layout.length ∧ r.off < s.off + x.size s))
  { x1 with
    segs := if x1.segs.any (fun g => g.num == r.seg) then x1.segs else x1.segs ++ [⟨r.seg, layout⟩]
    next := max x1.next (r.seg + 1)
    last := layout
    cursor := r.off + layout.length
    stripes := x1.stripes ++ [⟨r.seg, r.off, start, some epoch, layout⟩] }

/-- The blocks of the mirrored period written (R368, R397). -/
def Dev.mirWrite (d : Dev) (p : MirPeriod) : Dev :=
  p.ranks.foldl (fun (d : Dev) r =>
    let d1 := d.setRank r.rank ((d.rank r.rank).mirror r p.start p.epoch)
    (r.streams.zipIdx).foldl (fun (d : Dev) s =>
      let i : BlockInfo := ⟨true, s.1.key, s.1.stn, s.1.port, p.mfNum, p.start, p.wall, p.epoch, s.1.label⟩
      (d.ddrWrite (recBase + r.rank * d.rankBytes + (r.off + s.2) * 4096) (blockBytes i (d.mirFrames s.1.key))).inc HAMPER.REC_BLOCKS) d1) d

/-- The mirrored period in progress ends: its blocks are written, or it counts in MIRROR_GAP where a frame of it was lost (R397). -/
def Dev.mirClose (d : Dev) : Dev :=
  let d1 := match d.pair.mirPer with
    | some p => if d.pair.mirGap || !d.hamperOnline then d.inc PAIR.MIRROR_GAP else d.mirWrite p
    | none => if d.pair.mirGap then d.inc PAIR.MIRROR_GAP else d
  d1.modPair (fun (x : PairSt) => { x with mirPer := none, mirWords := [], mirGap := false })

/-! ### Takeover (R400 to R403) -/

/-- Whether GAP_MODE HOLD is in effect (R403). -/
def Dev.holdMode (d : Dev) : Bool := d.on PAIR.GAP_MODE && d.on PAIR.MIRROR_RECORD

/-- Steps 1 and 2 of R400: the newest committed checkpoint and the journal after it, or a cold start. -/
def Dev.loadState (d : Dev) : Dev × PortPlan × List SelSave :=
  match d.newestSlot with
  | none => d.loadCold
  | some s =>
    let (d1, ports, sels) := s.parts.foldl (fun acc p => Dev.loadSection acc p.body) (d.wr PAIR.COLD 0 0 0, [], [])
    let run := journalRun ((s.jseqBase + 1) % 2 ^ 32) none d.pair.jrnIn
    let (d2, ports2) := run.foldl Dev.applyEntry (d1, ports)
    let last := match run.getLast? with | some e => e.seq | none => s.jseqBase
    ((d2.modPair (fun (x : PairSt) => { x with genStart := s.gen, genDone := s.gen })).wr PAIR.JSEQ_APPLIED 0 0 last, ports2, sels)

/-- A standby takes over with a CAUSE of R398 (R400). The steps from the load to the claim fall on the moment of the trigger. -/
def Dev.takeover (d : Dev) (cause : Nat) : Dev :=
  if !d.paired || d.mode != .standby then d
  else
    let dm := if d.on PAIR.MIRROR_RECORD then d.mirClose else d
    let (d1, ports, sels) := dm.loadState
    let d2 := (Dev.allRise dm d1).modPair (fun (x : PairSt) =>
      { x with holds := if d1.holdMode then x.mirror.map (fun e => e.1) else [] })
    let d3 := { d2 with
      arch := { d2.arch with due := [], held := [], moves := [] }
      hamper := { d2.hamper with plays := [], playReqs := [], streams := [], nextFirst := [] } }
    let d4 := Dev.followRegs d (((d3.wr HAMPER.REC_STREAMS 0 0 0).takeCal d.newestSlot.isSome).activate cause d.timebase)
    let d5 := ports.foldl (fun (d : Dev) x => d.restorePort x) d4
    ((sels.foldl (fun (d : Dev) x => d.loadSel x) d5).wr DEV.LOAD_UNITS 0 0 d5.loadUnits).showPair

/-! ### Triggers (R398) -/

/-- Heartbeat loss with a silent peer, or with a faulty claim wire while the mate link is up (R398). -/
def Dev.silentPeer (d : Dev) : Dev :=
  if !d.paired || d.mode != .standby || !d.pair.hbLoss then d
  else if d.pinsIdle && d.passed d.pair.pinsAt (msTicks 1) then d.takeover 1
  else if d.mateUp && d.pair.wireFault then d.takeover 2
  else d

end Sys2Proof.Machine
end

