-- ==== Sys2Proof/Machine/Pair.lean ====
section
/-! DEFINITION. The events of PAIR: claim pins, the mate link, its frames, checkpoints, journal, mirror, switchover and the echo rules
(R381 to R411). -/

namespace Sys2Proof.Machine

/-! ### Demotion rules (R406) -/

/-- Whether this unit is SECONDARY. -/
def Dev.secondary (d : Dev) : Bool := d.on DEV.PAIR_ROLE

/-- The SELECTED_EPOCH last accepted on a lane and not ignored. -/
def Dev.selEpoch (d : Dev) (l : Nat) : Option Nat := match FMap.get 0 d.pair.selRef l with | 0 => none | v + 1 => some v

/-- Whether ECHO_GRACE has passed since this unit began to claim. -/
def Dev.gracePassed (d : Dev) : Bool :=
  match d.pair.claimSince with | some t => d.passed t (msTicks (10 * d.rd PAIR.ECHO_GRACE)) | none => false

/-- Rule 2: a witness lane shows another EPOCH. -/
def Dev.judgeEcho (d : Dev) : Dev :=
  let own := d.rd PAIR.EPOCH
  let bad := (List.range 8).any (fun l => (d.rd PAIR.ECHO_LANES).testBit l &&
    match d.selEpoch l with | some v => v != 0 && (decide (own < v) || (v != own && d.gracePassed)) | none => false)
  if d.pairActive && bad then d.demote 9 else d

/-- Rule 3: the peer claims by its pins, the mate link is down, no witness holds a value, and this unit is SECONDARY. -/
def Dev.judgePins (d : Dev) : Dev :=
  let silent := (List.range 8).all (fun l => !(d.rd PAIR.ECHO_LANES).testBit l || match d.selEpoch l with | some v => v == 0 | none => true)
  if d.pairActive && d.pinsClaim && !d.mateUp && silent && d.secondary then d.demote 10 else d

/-- A value accepted on a lane since `d0`: taken as the lane's reference, or ignored and counted where it is lower (R406). -/
def Dev.echoTake (d0 d : Dev) (l : Nat) : Dev :=
  let step := fun (d : Dev) (f : Field) (get : PairSt → FMap Nat) (put : PairSt → FMap Nat → PairSt) (run : TrunkRx → ValueRun) (sel : Bool) =>
    let v := d.rd f l
    if v = d0.rd f l ∧ (FMap.get 0 (get d.pair) l ≠ 0 ∨ (run (d.trx l)).count < 2) then d
    else
      match FMap.get 0 (get d.pair) l with
      | r + 1 =>
        if v < r then d.inc PAIR.EPOCH_BACK
        else
          let d1 := d.modPair (fun (x : PairSt) => put x (FMap.set 0 (get x) l (v + 1)))
          if sel && d1.pairActive && v != 0 && decide (v < d1.rd PAIR.EPOCH) && !d1.gracePassed then
            (d1.inc PAIR.ECHO_STALE).raise .pair 0 8
          else d1
      | 0 =>
        let d1 := d.modPair (fun (x : PairSt) => put x (FMap.set 0 (get x) l (v + 1)))
        if sel && d1.pairActive && v != 0 && decide (v < d1.rd PAIR.EPOCH) && !d1.gracePassed then
          (d1.inc PAIR.ECHO_STALE).raise .pair 0 8
        else d1
  if (d0.trx l).pos.isSome && (d.trx l).pos.isNone then
    d.modPair (fun (x : PairSt) => { x with selRef := FMap.set 0 x.selRef l 0, epochRef := FMap.set 0 x.epochRef l 0 })
  else
    step (step d TRUNK.RX_EPOCH (fun x => x.epochRef) (fun x m => { x with epochRef := m }) (fun x => x.epoch) false) TRUNK.RX_SEL_EPOCH (fun x => x.selRef)
      (fun x m => { x with selRef := m }) (fun x => x.sel) true

/-- What trunk reception since `d0` means to a paired unit. -/
def Dev.echoFollow (d0 d : Dev) : Dev := if d.paired then ((List.range 8).foldl (Dev.echoTake d0) d).judgeEcho else d

/-- TRUNK_FRAME_RX (R325): a frame time's words of the lane's rate, at either polarity (R331); in loopback the deframer takes the lane's own
frames. A SELECTED_EPOCH accepted may demote the unit (R406). -/
def execTrunkFrameRx (lane : Fin 8) (words : List Nat) (s : State) : Host.Outcome State Fault Refusal :=
  shift s (whenDev (fun d => d.trunkOn lane && !d.on TRUNK.LOOPBACK lane && words.length == d.trunkWords lane)
    (fun d => Dev.echoFollow d (d.trunkReceive lane (if d.on TRUNK.RX_INV lane then words.map (fun w => 1023 - w % 1024) else words))))

/-- ECHO_GRACE_EXPIRE (R406). -/
def execEchoGraceExpire (s : State) : Host.Outcome State Fault Refusal :=
  shift s (whenDev (fun d => d.pairActive && d.gracePassed) Dev.judgeEcho)

/-! ### Role resolution (R383) -/

/-- A write of the PAIR word that holds RESOLVE and CLAIM_NOW. -/
def Dev.pairCtl (d : Dev) (v : Nat) : Dev :=
  let d1 := d.writeFields 0x5044 .pair 0 0x44 v
  let d2 := if v.testBit 0 then (let d3 := d1.resolveStart; d3.flag PAIR.RESOLVE 0 0 d3.pair.resolving) else d1
  if v.testBit 1 && d2.paired && d2.mode == .ready && d2.pair.resolving && d2.on PAIR.ISOLATED then d2.activate 5 d2.timebase else d2

/-- RESOLVE_WRITE (R383). -/
def execResolveWrite (value : Word) (s : State) : Host.Outcome State Fault Refusal :=
  unlessMisuse (s.dev.wordMisuse .pair 0 0x44 value.toNat)
    (shift s (whenDev (fun d => d.writable .pair && value.toNat.testBit 0) (fun d => d.pairCtl value.toNat)))

/-- CLAIM_NOW_WRITE (R383). -/
def execClaimNowWrite (value : Word) (s : State) : Host.Outcome State Fault Refusal :=
  unlessMisuse (s.dev.wordMisuse .pair 0 0x44 value.toNat)
    (shift s (whenDev (fun d => d.writable .pair && value.toNat.testBit 1) (fun d => d.pairCtl value.toNat)))

/-- RESOLVE_WAIT_EXPIRE (R383). -/
def execResolveWaitExpire (s : State) : Host.Outcome State Fault Refusal :=
  shift s (whenDev (fun d => match d.pair.waitFrom with | some t => d.passed t (secTicks 2) | none => false) Dev.judgeRole)

/-! ### Claim pins (R385) -/

/-- CLAIM_PIN_CHANGE (R385): a filtered value of the peer's pins is accepted. -/
def execClaimPinChange (p n : Bool) (s : State) : Host.Outcome State Fault Refusal :=
  shift s (whenDev (fun d => d.rd PAIR.PEER_PINS != 2 * p.toNat + n.toNat || d.pair.pinsAt == 0)
    (fun d =>
      let d1 := (d.wr PAIR.PEER_PINS 0 0 (2 * p.toNat + n.toNat)).modPair (fun (x : PairSt) => { x with pinsAt := d.timebase, wireFault := false })
      if !d1.paired then d1
      else (((d1.judgeWire).judgeIsolated.judgePins).judgeRole).showPair))

/-- CLAIM_WIRE_PERSIST (R385): a wire fault has lasted 2 ms. -/
def execClaimWirePersist (s : State) : Host.Outcome State Fault Refusal :=
  shift s (whenDev (fun d => d.paired && d.pinsFault && !d.pair.wireFault && d.passed d.pair.pinsAt (msTicks 2))
    (fun d => ((d.modPair (fun (x : PairSt) => { x with wireFault := true })).judgeIsolated).silentPeer))

/-- PEER_UNCLAIMED_1MS (R398): the peer's pins have been not claiming for 1 ms. -/
def execPeerUnclaimed1ms (s : State) : Host.Outcome State Fault Refusal :=
  shift s (whenDev (fun d => d.pinsIdle && d.passed d.pair.pinsAt (msTicks 1)) Dev.silentPeer)

/-! ### The mate link (R387, R388) -/

/-- CMD_CKPT_FORCE completes with word 7 = 1 when the mate link is lost first (R405). -/
def Dev.forceLost (d : Dev) : Dev :=
  let g := match d.pair.send with | some x => x.gen | none => d.pair.genStart
  let b := match d.pair.send with | some x => x.jseqBase | none => d.pair.jrnSeq
  d.pair.ckptForce.foldl (fun (d : Dev) t => d.complete t .ok (words64 g ++ [b, 1])) (d.modPair (fun (x : PairSt) => { x with ckptForce := [], send := none }))

/-- MATE_LANE_CHANGE (R387): block_lock of a lane. -/
def execMateLaneChange (lane : Fin 2) (up : Bool) (s : State) : Host.Outcome State Fault Refusal :=
  shift s (whenDev (fun d => (d.rd PAIR.LANE_UP).testBit lane != up)
    (fun d =>
      let v := d.rd PAIR.LANE_UP
      let was := d.mateUp
      let d1 := d.wr PAIR.LANE_UP 0 0 (if up then orBit v lane else v - 2 ^ lane.val)
      let d2 := if d1.mateUp then d1.modPair (fun (x : PairSt) => { x with lanesDown := none })
        else if was then (d1.modPair (fun (x : PairSt) => { x with lanesDown := some d1.timebase, peer := none, rxGen := none })).forceLost
        else d1
      if !d2.paired then d2.showPair
      else
        let one := d2.rd PAIR.LANE_UP == 1 || d2.rd PAIR.LANE_UP == 2
        let d3 := d2.cond .pair 0 10 one
        let d4 := if d3.mateUp && !was then
            ((d3.cond .pair 0 2 false).faultCond (srcPair 0) false).modPair (fun (x : PairSt) => { x with ckptDue := x.ckptDue || d3.pairActive })
          else d3
        (((d4.judgeIsolated.judgePins).silentPeer).judgeRole).showPair))

/-- MATE_LINK_DOWN_TIMEOUT (R387). -/
def execMateLinkDownTimeout (s : State) : Host.Outcome State Fault Refusal :=
  stay s (whenDev (fun d => d.paired && match d.pair.lanesDown with | some t => d.passed t (msTicks 1) | none => false)
    (fun d => (d.cond .pair 0 2 true).faultCond (srcPair 0) true))

/-- A mate frame received: one whose CRC-32 fails is discarded and counted (R388). -/
def Dev.mateRx (d : Dev) (crcOk : Bool) (f : Dev → Dev) : Dev :=
  if !d.mateUp || !d.paired || d.mode == .reset || d.mode == .boot then d
  else if crcOk then f d
  else d.inc PAIR.MATE_CRC_ERR

/-- A mate frame of a type received as its words; one that names another type or length is none of R389 and is ignored. -/
def Dev.frameRx (d : Dev) (type : Nat) (ws : List Nat) (f : List Nat → Dev → Dev) : Dev :=
  d.mateRx (mateCrcGood ws) (fun d => match matePayload type ws with | some p => f p d | none => d)

/-- The peer's UNIT_ID as PAIR_IDENTITY names it, and the unit's PAIR_ID (R382). -/
def Dev.peerId (d : Dev) : Nat := match d.host.identity with | some (_, _, p) => p | none => 0
def Dev.pairId (d : Dev) : Nat := match d.host.identity with | some (_, p, _) => p | none => 0

/-! ### Journal sending (R395, R396) -/

/-- An entry as sent: its words and its CRC-32. -/
def JrnOut.sent (e : JrnOut) : List Nat := e.words ++ [mateCrc e.words]

/-- Entries sent in frames of at most 16. -/
def Dev.jrnFrames : Nat → List JrnOut → Dev → Dev
  | 0, _, d => d
  | _, [], d => d
  | k + 1, es, d => Dev.jrnFrames k (es.drop 16) (d.mateSend 0x20 ((es.take 16).flatMap JrnOut.sent))

/-- The entries chosen are sent, now. -/
def Dev.jrnPut (d : Dev) (want : JrnOut → Bool) : Dev :=
  if !d.mateUp then d
  else
    let es := d.pair.jrnOut.filter want
    (Dev.jrnFrames es.length es d).modPair (fun (x : PairSt) =>
      { x with jrnOut := x.jrnOut.map (fun (e : JrnOut) => if want e then { e with sentAt := some d.timebase } else e) })

/-- The entries not yet sent. -/
def Dev.jrnSend (d : Dev) : Dev := d.jrnPut (fun e => e.sentAt.isNone)

/-- Entries sent again, each counted (R396). -/
def Dev.jrnResend (d : Dev) (want : JrnOut → Bool) : Dev :=
  let k := (d.pair.jrnOut.filter want).length
  if d.mateUp then (d.jrnPut want).inc PAIR.JRN_RESEND 0 0 k else d

/-! ### Switchover (R404) -/

/-- HANDOVER is sent and the unit demotes itself with CAUSE 11. -/
def Dev.handOver (d : Dev) : Dev :=
  match d.pair.switch with
  | some (tag, .drain _) =>
    ((d.mateSend 0x50 [d.rd PAIR.EPOCH, d.pair.jrnSeq]).modPair (fun (x : PairSt) => { x with switch := some (tag, .handed d.timebase) })).demote 11
  | _ => d

/-- HANDOVER follows the acknowledgement of the last SEQ. -/
def Dev.switchTry (d : Dev) : Dev :=
  match d.pair.switch with
  | some (_, .drain _) => if d.pairActive ∧ d.pair.jrnOut = [] then d.handOver else d
  | _ => d

/-- The active unit begins to hand over. -/
def Dev.switchStart (d : Dev) (tag : Option Nat) : Dev :=
  ((d.jrnSend).modPair (fun (x : PairSt) => { x with switch := some (tag, .drain d.timebase) })).switchTry

/-- Whether CMD_SWITCHOVER completes with BUSY: the unit is unpaired, a switchover runs, or the standby holds no committed checkpoint or has
its Hamper offline (R64, R404, R408). -/
def Dev.switchBusy (d : Dev) : Bool :=
  !d.paired || d.pair.switch.isSome ||
  (match d.mode with
   | .run => (match d.pair.peer with | some p => p.gen == 0 || !(d.rd PAIR.PEER_HEALTH).testBit 26 | none => true)
   | _ => d.newestSlot.isNone)

/-- CMD_SWITCHOVER (R404). -/
def execCmdSwitchover (tag : Fin 4096) (s : State) : Host.Outcome State Fault Refusal :=
  unlessMisuse (argMisuse s 8 tag (fun a => a != []))
    (shift s (fun d => d.startCmd 8 tag (fun _ d =>
      if d.switchBusy then d.complete tag .busy
      else if d.mode = .run then d.switchStart (some tag.val)
      else
        let d1 := d.modPair (fun (x : PairSt) => { x with switch := some (some tag.val, .asked) })
        if d1.mateUp then d1.mateSend 0x51 (words64 d1.identityUnit) else d1.takeover 3)))

/-- HANDOVER_REQ_RX (R404). -/
def execHandoverReqRx (words : List Nat) (s : State) : Host.Outcome State Fault Refusal :=
  shift s (fun d => d.frameRx 0x51 words (fun p d => if d.pairActive && words64At p 0 == d.peerId && !d.switchBusy then d.switchStart none else d))

/-- HANDOVER_TIMEOUT (R404): 1 ms without the acknowledgement; or 10 ms after HANDOVER without a claim of the peer, when the unit takes
back active service with its own state and the command completes with BUSY. -/
def execHandoverTimeout (s : State) : Host.Outcome State Fault Refusal :=
  shift s (fun d =>
    match d.pair.switch with
    | some (_, .drain t) => if d.passed t (msTicks 1) && d.pairActive then d.handOver else d
    | some (tag, .handed t) =>
      if d.passed t (msTicks 10) && d.mode == .standby then
        let d1 := (d.modPair (fun (x : PairSt) => { x with switch := none })).activate 11 d.timebase
        match tag with | some k => d1.complete k .busy | none => d1
      else d
    | _ => d)

/-- HANDOVER_RX (R398). -/
def execHandoverRx (words : List Nat) (s : State) : Host.Outcome State Fault Refusal :=
  shift s (fun d => d.frameRx 0x50 words (fun p d => if p.length = 2 ∧ p.headD 0 = d.rd PAIR.PEER_EPOCH then d.takeover 4 else d))

/-! ### STATUS (R382, R390, R391) -/

/-- The STATUS payload (R390). -/
def Dev.statusWords (d : Dev) (boundary : Nat) : List Nat :=
  words64 d.identityUnit ++ words64 d.pairId ++ [d.rd PAIR.EPOCH, d.health] ++ words64 d.ckptGen ++ [d.jseq] ++ words64 boundary ++
  [d.host.siRev * 65536 + d.host.grade * 256 + d.secondary.toNat * 8 + d.pair.resolving.toNat * 4 + (d.on PAIR.OWN_CLAIM).toNat * 2]

/-- What the 12 words of a STATUS payload say (R390). -/
def statusOf (p : List Nat) : StatusFrame :=
  let w := p.getD 11 0
  ⟨words64At p 0, words64At p 2, p.getD 4 0, p.getD 5 0, words64At p 6, p.getD 8 0, words64At p 9, w / 65536 % 256, w / 256 % 256, w.testBit 3,
    w.testBit 2, w.testBit 1⟩

/-- A command of a switchover that the peer's claim completes, at a unit that has handed over or is about to (R404). -/
def Dev.switchDone (d : Dev) (f : StatusFrame) : Dev :=
  if f.claim && decide (d.rd PAIR.EPOCH < f.epoch) then
    match d.pair.switch with
    | some (tag, .handed _) | some (tag, .drain _) =>
      let d1 := d.modPair (fun (x : PairSt) => { x with switch := none })
      match tag with | some t => d1.complete t .ok [f.epoch] | none => d1
    | _ => d
  else d

/-- The offset of the peer's TIMEBASE, and its table by EPOCH (R390). -/
def Dev.takeOffset (d : Dev) (f : StatusFrame) : Dev :=
  let o : Int := (f.tb : Int) - ((d.sys.nextFrame - frameTicks : Nat) : Int)
  let c := codeOf 64 o
  ((d.modPair (fun (x : PairSt) => { x with offsets := ((f.epoch, o) :: x.offsets.filter (fun e => e.1 != f.epoch)).take 16 })).wr
    PAIR.TB_OFFSET_LO 0 0 c).wr PAIR.TB_OFFSET_HI 0 0 (c / 2 ^ 32)

/-- A STATUS frame taken (R382, R390, R406, R409). A new EPOCH of the peer starts its journal anew. -/
def Dev.statusTake (d : Dev) (f : StatusFrame) : Dev :=
  let newEpoch := f.epoch != d.rd PAIR.PEER_EPOCH
  let beat := f.unit == d.peerId && f.claim
  let d1 := d.modPair (fun (x : PairSt) =>
    { x with peer := some ⟨f.unit, f.pair, f.siRev, f.grade, f.secondary, f.resolving, f.claim, f.gen, f.jseq⟩
             statusAt := some d.timebase
             hbSeen := x.hbSeen || beat
             hbMiss := if beat then 0 else x.hbMiss
             hbLoss := x.hbLoss && !beat
             jrnLag := match x.peer with | some p => !seqLe p.jseq x.jrnHigh && !newEpoch | none => false
             jrnIn := if newEpoch then [] else x.jrnIn
             jrnAliveIn := if newEpoch then none else x.jrnAliveIn
             rxGen := if newEpoch then none else x.rxGen })
  let d2 := ((d1.wr PAIR.PEER_EPOCH 0 0 f.epoch).wr PAIR.PEER_HEALTH 0 0 f.health).takeOffset f
  let bad := f.pair != d2.pairId || f.unit != d2.peerId || f.siRev != d2.host.siRev || f.grade != d2.host.grade
  let d3 := ((d2.flag PAIR.MISMATCH 0 0 bad).cond .pair 0 5 bad).faultCond (srcPair 4) bad
  let lost := d3.mode == .run && f.health / 2 ^ 28 == 7
  let d4 := ((d3.cond .pair 0 4 lost).faultCond (srcPair 3) lost).switchDone f
  let rule1 := f.claim && (decide (d4.rd PAIR.EPOCH < f.epoch) || (f.epoch == d4.rd PAIR.EPOCH && d4.secondary))
  let d5 := if d4.pairActive && rule1 then d4.demote 8 else d4
  d5.judgeRole.showPair

/-- STATUS_RX (R390). -/
def execStatusRx (words : List Nat) (s : State) : Host.Outcome State Fault Refusal :=
  shift s (fun d => d.frameRx 0x01 words (fun p d => if p.length = 12 then d.statusTake (statusOf p) else d))

/-- PEER_LOST_TIMEOUT (R409): an active unit has had no STATUS frame for 1 ms. -/
def execPeerLostTimeout (s : State) : Host.Outcome State Fault Refusal :=
  stay s (whenDev
    (fun d => d.pairActive && d.passed (max (d.pair.statusAt.getD 0) (d.pair.claimSince.getD 0)) (msTicks 1))
    (fun d => (d.cond .pair 0 4 true).faultCond (srcPair 3) true))

/-- HEARTBEAT_LOSS (R390, R398): 8 system frames without a heartbeat. -/
def execHeartbeatLoss (s : State) : Host.Outcome State Fault Refusal :=
  shift s (whenDev (fun d => d.paired && decide (8 ≤ d.pair.hbMiss) && !d.pair.hbLoss)
    (fun d => (((d.modPair (fun (x : PairSt) => { x with hbLoss := true })).inc PAIR.HB_LOSS).showPair).silentPeer))

/-- FATAL_FRAME_RX (R398). -/
def execFatalFrameRx (words : List Nat) (s : State) : Host.Outcome State Fault Refusal :=
  shift s (fun d => d.frameRx 0x02 words (fun p d =>
    if p.length = 3 ∧ words64At p 0 = d.peerId ∧ p.getD 2 0 = d.rd PAIR.PEER_EPOCH then d.takeover 0 else d))

/-! ### Checkpoints (R392 to R394, R405) -/

/-- LENGTH of a checkpoint's sections: each has a header of 16 bytes, and its body is padded to 64 bytes (R392). -/
def CkptSend.lenOf (x : CkptSend) : Nat := (x.parts.map (fun p => 16 + ceilDiv (Config.sectionBytes p.2) 64 * 64)).foldl (· + ·) 0

/-- The header of a checkpoint slot with its CRC-32 (R392). Sections have a layout of their own, so LENGTH is free (log entry 100). -/
def CkptSend.header (x : CkptSend) (epoch : Nat) : List Nat :=
  let ws := [0x434B5054, 1] ++ words64 x.gen ++ [epoch, x.jseqBase] ++ words64 x.snapTb ++ [x.lenOf % 2 ^ 32, x.parts.length]
  ws ++ [crc32Words ws]

/-- The commit record of a checkpoint with its CRC-32 (R392). -/
def commitRecord (gen epoch headCrc : Nat) : List Nat :=
  let ws := [0x434D4954] ++ words64 gen ++ [epoch, headCrc]
  ws ++ [crc32Words ws]

/-- The CRC-32 of a slot header that is sound and names a generation; none for another (R392). -/
def headSound (gen : Nat) (ws : List Nat) : Option Nat :=
  if ws.length = 11 ∧ ws.headD 0 = 0x434B5054 ∧ ws.getD 1 0 = 1 ∧ words64At ws 2 = gen ∧ ws.getD 10 0 = crc32Words (ws.take 10) then
    some (ws.getD 10 0)
  else none

/-- CHECKPOINT_START (R392): at a system multiframe boundary the active unit takes a checkpoint; an overflowed journal goes on from it. -/
def execCheckpointStart (s : State) : Host.Outcome State Fault Refusal :=
  stay s (whenDev
    (fun d => d.pairActive && d.mateUp && d.pair.send.isNone && decide (d.timebase + mfTicks < d.sys.nextMf + frameTicks) &&
      (d.pair.ckptDue || d.pair.ckptForce != [] || decide (d.pair.ckptNext ≤ d.timebase)))
    (fun d =>
      let g := (d.pair.genStart + 1) % 2 ^ 64
      let parts := ([1, 2, 3, 4, 5, 6, 7, 8] : List Nat).map (fun id => (id, d.sectionBody id))
      let x : CkptSend := ⟨g, d.pair.jrnSeq, d.sys.nextMf - mfTicks, parts, false⟩
      let d1 := d.modPair (fun (y : PairSt) => { y with
        genStart := g, send := some x, ckptDue := false, jrnStop := false, ckptNext := x.snapTb + msTicks (100 * d.rd PAIR.CKPT_PERIOD) })
      parts.foldl (fun (d : Dev) p => d.emit (.ckpt g p.1 p.2)) (d1.mateSend 0x10 (words64 g ++ [0] ++ x.header (d1.rd PAIR.EPOCH)))))

/-- CKPT_SEND_DONE (R394): every section has been sent, and the commit record follows. -/
def execCkptSendDone (s : State) : Host.Outcome State Fault Refusal :=
  stay s (fun d =>
    match d.pair.send with
    | some x =>
      if x.sent || !d.mateUp then d
      else (d.modPair (fun (y : PairSt) => { y with send := some { x with sent := true } })).mateSend 0x11
        (commitRecord x.gen (d.rd PAIR.EPOCH) ((x.header (d.rd PAIR.EPOCH)).getLastD 0))
    | none => d)

/-- The slot of a generation (R392). -/
def Dev.ckptSlot (d : Dev) (gen : Nat) : SlotSt := if gen % 2 = 0 then d.pair.slotA else d.pair.slotB
def Dev.setCkptSlot (d : Dev) (gen : Nat) (x : SlotSt) : Dev :=
  d.modPair (fun (y : PairSt) => if gen % 2 = 0 then { y with slotA := x } else { y with slotB := x })

/-- Checkpoint data at the standby (R394). -/
def Dev.ckptTake (d : Dev) (gen : Nat) (data : CkptData) : Dev :=
  if d.mode != .standby || !d.hamperOnline then d
  else
    match data with
    | .head ws =>
      if ws.getD 4 0 ≠ d.rd PAIR.PEER_EPOCH then d
      else (d.setCkptSlot gen ⟨gen, ws.getD 4 0, ws.getD 5 0, words64At ws 6, ws.getD 9 0, headSound gen ws, false, []⟩).modPair
        (fun (y : PairSt) => { y with rxGen := some gen })
    | .part id ok body =>
      let x := d.ckptSlot gen
      if d.pair.rxGen ≠ some gen ∨ x.epoch ≠ d.rd PAIR.PEER_EPOCH then d
      else
        let parts := x.parts.filter (fun p => p.id != id)
        let d1 := d.setCkptSlot gen { x with parts := parts ++ [⟨id, ok, body⟩] }
        if ok then d1 else d1.mateSend 0x41 (words64 gen ++ [id])

/-- CKPT_DATA_RX (R394). -/
def execCkptDataRx (crcOk : Bool) (gen : Nat) (data : CkptData) (s : State) : Host.Outcome State Fault Refusal :=
  stay s (fun d => (d.mateRx crcOk (fun d => d.ckptTake gen data)).showPair)

/-- The entries held after a checkpoint's JSEQ_BASE: those before it go; where the entries left do not follow it, all go. -/
def PairSt.trimJournal (x : PairSt) (base : Nat) : PairSt :=
  let left := x.jrnIn.filter (fun e => !seqLe e.seq base)
  match left with
  | [] => { x with jrnIn := [], jrnHigh := base, jrnAliveIn := if x.jrnHigh = base then x.jrnAliveIn else none }
  | e :: _ => if e.seq = (base + 1) % 2 ^ 32 then { x with jrnIn := left } else { x with jrnIn := [], jrnHigh := base, jrnAliveIn := none }

/-- Whether a commit record received commits the checkpoint in progress (R394): its CRC-32 passes, it agrees with the slot's header, and every
section has passed. -/
def Dev.commits (d : Dev) (p : List Nat) : Bool :=
  let x := d.ckptSlot (words64At p 1)
  d.mode == .standby && d.pair.rxGen == some x.gen && x.epoch == d.rd PAIR.PEER_EPOCH &&
  (match x.headCrc with | some c => p == commitRecord x.gen x.epoch c | none => false) &&
  x.parts.length == x.count && x.parts.all (fun p => p.ok)

/-- CKPT_COMMIT_RX (R394): the commit record is written once every section has passed. -/
def execCkptCommitRx (words : List Nat) (s : State) : Host.Outcome State Fault Refusal :=
  stay s (fun d => d.frameRx 0x11 words (fun p d =>
    let gen := words64At p 1
    let x := d.ckptSlot gen
    if d.commits p then
      let d1 := (d.setCkptSlot gen { x with committed := true }).modPair (fun (y : PairSt) =>
        { y.trimJournal x.jseqBase with rxGen := none, jrnLag := false, ageFrom := some (((x.snapTb : Int) - d.tbOffset).toNat) })
      (((d1.mateSend 0x40 ([d1.pair.jrnHigh] ++ words64 gen ++ [0])).raise .pair 0 9)).showPair
    else d))

/-- ACK_RX (R396, R405): journal entries up to a SEQ, and with section 0 a checkpoint committed (log entry 100). -/
def execAckRx (words : List Nat) (s : State) : Host.Outcome State Fault Refusal :=
  shift s (fun d => d.frameRx 0x40 words (fun p d =>
    if !d.pairActive || p.length != 4 then d
    else
      let seq := p.headD 0
      let gen := words64At p 1
      let commit := p.getD 3 0 == 0
      let d1 := d.modPair (fun (x : PairSt) => { x with jrnOut := x.jrnOut.filter (fun e => !(e.sentAt.isSome && seqLe e.seq seq)) })
      let d2 := match d1.pair.send with
        | some x =>
          if commit && x.sent && x.gen == gen then
            let e := d1.modPair (fun (y : PairSt) => { y with send := none, genDone := gen, ageFrom := some x.snapTb, ckptForce := [], jrnLost := y.jrnStop })
            d1.pair.ckptForce.foldl (fun (d : Dev) t => d.complete t .ok (words64 gen ++ [x.jseqBase, 0])) (e.raise .pair 0 9)
          else d1
        | none => d1
      d2.switchTry.showPair))

/-- A checkpoint section sent again (R394). -/
def Dev.ckptResend (d : Dev) (gen id : Nat) : Dev :=
  match d.pair.send with
  | some x =>
    (match x.parts.find? (fun p => p.1 == id) with
     | some p => if x.gen = gen then (d.emit (.ckpt gen id p.2)).inc PAIR.CKPT_NAK else d
     | none => d)
  | none => d

/-- NAK_RX (R394, R396): one word, the first missing SEQ, or three, the generation and section to resend (log entry 100). -/
def execNakRx (words : List Nat) (s : State) : Host.Outcome State Fault Refusal :=
  stay s (fun d => d.frameRx 0x41 words (fun p d =>
    if !d.pairActive then d
    else
      match p with
      | [k] => d.jrnResend (fun e => e.sentAt.isSome && seqLe k e.seq)
      | [lo, hi, id] => d.ckptResend (lo + hi * 2 ^ 32) id
      | _ => d))

/-- CMD_CKPT_FORCE (R405): BUSY for an unpaired unit or while a checkpoint is being sent. -/
def execCmdCkptForce (tag : Fin 4096) (s : State) : Host.Outcome State Fault Refusal :=
  unlessMisuse (argMisuse s 7 tag (fun a => a != []))
    (stay s (fun d => d.startCmd 7 tag (fun _ d =>
      if !d.paired || d.pair.send.isSome then d.complete tag .busy
      else
        let d1 := d.modPair (fun (x : PairSt) => { x with ckptForce := x.ckptForce ++ [tag.val] })
        if d1.mateUp then d1 else d1.forceLost)))

/-! ### Journal reception and resending (R396) -/

/-- The journal changes that a STANDBY applies as they arrive: DEV timing fields and CMD_PROGRAMME (R396). -/
def Dev.applyNow (d : Dev) (e : JrnIn) : Dev :=
  match e.kind, e.payload with
  | 1, [addr, v] => if addr = 0xC0 ∨ addr = 0xC4 ∨ addr = 0xD8 then (d.applyFields .dev 0 addr v).timingUpdate else d
  | 3, item => if item.headD 0 / 2 ^ 20 % 256 = 4 then d.modPair (fun (x : PairSt) => { x with progWant := some (item.getD 1 0 % 4) }) else d
  | _, _ => d

/-- A standby's programme change begins when none runs (R396). -/
def Dev.followProg (d : Dev) : Dev :=
  match d.pair.progWant with
  | some p =>
    if d.arch.prog.isSome then d
    else
      let d1 := d.modPair (fun (x : PairSt) => { x with progWant := none })
      if p = d1.prog then d1 else d1.beginChange ⟨4096, d1.prog, p, .held⟩
  | none => d

/-- One received entry: the next in order is stored; an earlier one is a repeat; with any other the first missing SEQ is reported. True while
the order holds. -/
def Dev.jrnStore (acc : Dev × Bool) (e : JrnIn) : Dev × Bool :=
  let (d, go) := acc
  let fresh := d.pair.jrnAliveIn.isNone && d.pair.jrnIn.isEmpty &&
    !(match d.newestSlot with | some s => s.epoch == d.rd PAIR.PEER_EPOCH | none => false)
  let next := (d.pair.jrnHigh + 1) % 2 ^ 32
  if !go then acc
  else if e.ok && (fresh || e.seq == next) && (match d.pair.jrnAliveIn with | some a => e.alive == (a + 1) % 16 | none => true) then
    ((d.modPair (fun (x : PairSt) => { x with jrnIn := x.jrnIn ++ [e], jrnHigh := e.seq, jrnAliveIn := some e.alive })).applyNow e, true)
  else if e.ok && seqLe e.seq d.pair.jrnHigh then acc
  else (d.mateSend 0x41 [next], false)

/-- The entries that the words of a JOURNAL payload hold, at most `k`, each with whether its CRC-32 passes (R395). One that is cut off does
not pass. -/
def journalEntries : Nat → List Nat → List JrnIn
  | 0, _ => []
  | _, [] => []
  | k + 1, w :: r =>
    let n := w % 32 + 1
    if r.length < n + 2 then [⟨0, 0, 0, [], false⟩]
    else
      ⟨r.headD 0, w / 2 ^ 28, w / 65536 % 256, (r.drop 1).take n, mateCrc (w :: r.take (n + 1)) == r.getD (n + 1) 0⟩ ::
        journalEntries k (r.drop (n + 2))

/-- The entries of a JOURNAL frame taken at a standby (R396). -/
def Dev.journalTakeIn (d : Dev) (p : List Nat) : Dev :=
  if d.mode != .standby then d else ((journalEntries 16 p).foldl Dev.jrnStore (d, true)).1.followProg.showPair

/-- JOURNAL_RX (R396). -/
def execJournalRx (words : List Nat) (s : State) : Host.Outcome State Fault Refusal :=
  stay s (fun d => d.frameRx 0x20 words (fun p d => d.journalTakeIn p))

/-- JOURNAL_RESEND_TIMEOUT (R396): entries 1 ms without acknowledgement. -/
def execJournalResendTimeout (s : State) : Host.Outcome State Fault Refusal :=
  stay s (whenDev Dev.pairActive
    (fun d => d.jrnResend (fun e => match e.sentAt with | some t => d.passed t (msTicks 1) | none => false)))

/-! ### The record mirror (R397) -/

/-- The streams of a rank that a further layout frame names. -/
def MirRank.join (rs : List MirRank) (r : MirRank) : List MirRank :=
  if rs.any (fun x => x.rank == r.rank) then rs.map (fun x => if x.rank = r.rank then { x with streams := x.streams ++ r.streams } else x)
  else rs ++ [r]

/-- A MIRROR frame at the standby. A layout may come in several frames. -/
def Dev.mirTake (d : Dev) (seq : Nat) (data : MirData) : Dev :=
  let gap := match d.pair.mirSeq with | some k => seq != (k + 1) % 2 ^ 32 | none => false
  let d1 := d.modPair (fun (x : PairSt) => { x with mirSeq := some seq, mirGap := x.mirGap || gap })
  match data with
  | .layout start epoch mf wall ranks =>
    let more := match d1.pair.mirPer with | some p => p.start == start && p.epoch == epoch | none => false
    if more then d1.modPair (fun (x : PairSt) => { x with mirPer := x.mirPer.map (fun p => { p with ranks := ranks.foldl MirRank.join p.ranks }) })
    else
    let d2 := d1.mirClose
    (d2.modPair (fun (x : PairSt) => { x with mirPer := some ⟨start, epoch, mf, wall, ranks⟩ })).modHamper
      (fun h => { h with periods := ⟨start, some epoch⟩ :: h.periods })
  | .words first ws =>
    let overs := match d1.pair.mirPer with | some p => decide (16 * p.mfNum + periodFrames ≤ first) | none => false
    let d2 := if overs then (d1.modPair (fun (x : PairSt) => { x with mirGap := true })).mirClose.modPair (fun (x : PairSt) => { x with mirGap := true })
      else d1
    d2.modPair (fun (x : PairSt) =>
      { x with
        mirWords := ws.foldl (fun m e => ((e.2.take 16).zipIdx).foldl (fun m w => FMap.set 0 m (e.1 * 3200 + (first + w.2) % 3200) (w.1 + 1)) m) x.mirWords
        mirror := ws.foldl (fun m e => match (e.2.take 16).getLast? with
          | some w => FMap.set (0, 9) m e.1 (w % 1024, w / 8192)
          | none => m) x.mirror })

/-- MIRROR_RX (R397). -/
def execMirrorRx (crcOk : Bool) (seq : Nat) (data : MirData) (s : State) : Host.Outcome State Fault Refusal :=
  stay s (fun d => d.mateRx crcOk (fun d => if d.mirrorStandby then d.mirTake seq data else d))

end Sys2Proof.Machine
end

