-- ==== Sys2Proof/Machine/Lint.lean ====
section
/-! DEFINITION. LINT and BIST: sampling of the fault rails, recording, reactions, shadows, injection, and the self-tests (R483 to
R506). -/

namespace Sys2Proof.Machine

/-! ### Sources (R486) -/

/-- The class of a source, 0 NOTE to 3 FATAL; none for a source that does not exist or is reserved (R486). -/
def srcClass (n : Nat) : Option Nat :=
  let i := n / 16
  let x := n % 16
  if i = 0 then (if x = 0 ∨ x = 1 then some 3 else if x = 4 then some 0 else if x < 9 then some 1 else none)
  else if i = 2 then (if x = 2 then some 0 else if x < 5 then some 1 else none)
  else if i = 3 then (if x < 5 then some 1 else none)
  else if i = 6 then (if x = 0 then some 0 else none)
  else if 7 ≤ i ∧ i ≤ 10 then (if x = 0 then some 1 else none)
  else if 24 ≤ i ∧ i < 40 then (if x = 0 then some 1 else if x = 1 then some 2 else none)
  else if 40 ≤ i ∧ i < 88 then (if x < 2 then some 1 else if x = 2 then some 0 else none)
  else if 88 ≤ i ∧ i < 184 then (if x < 3 then some 1 else none)
  else if 184 ≤ i ∧ i < 696 then (if x = 0 then some 1 else none)
  else none

/-- Whether the block of a source has a block reset (R488). -/
def srcHasReset (n : Nat) : Bool := let i := n / 16; i == 5 || i == 7 || i == 9 || (16 ≤ i && i < 696)

/-- The page whose header latches a source, its instance, and FF_SOURCE (R486). -/
def srcPage (n : Nat) : Page × Nat × Nat :=
  let i := n / 16
  let x := n % 16
  if i = 2 then (.starch, 0, x) else if i = 3 then (.pair, 0, x) else if i = 6 then (.mtx, 0, x) else if i = 7 then (.bist, 0, x)
  else if i = 8 then (.hamper, 0, x) else if i = 9 then (.afec, 0, x) else if i = 10 then (.mangle, 0, x)
  else if 24 ≤ i ∧ i < 40 then (.dev, 0, n)
  else if 40 ≤ i ∧ i < 88 then (.jlane, i - 40, x)
  else if 88 ≤ i ∧ i < 184 then (.ndl, i - 88, x)
  else if 184 ≤ i then (.port, i - 184, x)
  else (.dev, 0, x)

/-- Whether a partition of R498 holds the block of a source (R501). -/
def partHas (p n : Nat) : Bool :=
  let i := n / 16
  if p < 16 then i == 24 + p
  else if p = 16 then i == 10
  else if p < 20 then decide (88 + 32 * (p - 17) ≤ i ∧ i < 120 + 32 * (p - 17))
  else if p = 20 then decide (16 ≤ i ∧ i < 24)
  else if p = 21 then decide (40 ≤ i ∧ i < 88) || i == 9
  else i == 3 || i == 8

/-- The partition under scan. -/
def Dev.scanning (d : Dev) : Option Nat :=
  match d.lint.run with
  | some r => r.items.head?.bind lbistPart
  | none => d.lint.rollItem.bind lbistPart

/-- Whether LINT masks a source (R501). -/
def Dev.srcMasked (d : Dev) (n : Nat) : Bool :=
  (match d.scanning with | some p => partHas p n | none => false) || d.lint.masked.any (fun x => partHas x.1 n)

/-! ### Sampling (R483 to R485, R496) -/

/-- The rails of a source as LINT samples them. -/
inductive Rails where
  | ok | err | bad
  deriving DecidableEq, Repr

/-- The rails sampled: those of an injection, else those the source shows (R496). -/
def Dev.rails (d : Dev) (bad : List Nat) (n : Nat) : Rails :=
  match d.lint.injRail with
  | some (m, mode) =>
    if m = n then (if mode = 0 then .err else .bad)
    else if bad.contains n then .bad else if (d.src n).drives then .err else .ok
  | none => if bad.contains n then .bad else if (d.src n).drives then .err else .ok

/-- A source after one sample, and what the sample makes LINT record: nothing, a fault of the source (false) or a WIRE fault (true). -/
def SrcSt.sample (x : SrcSt) : Rails → SrcSt × Option Bool
  | .bad =>
    if x.failed then ({ x with good := 0 }, none)
    else if 3 ≤ x.bad + 1 then ({ x with bad := 0, failed := true, good := 0, accepted := false }, some true)
    else ({ x with bad := x.bad + 1 }, none)
  | r =>
    let v := r == .err
    if x.failed then
      if 3 ≤ x.good + 1 then ({ x with failed := false, good := 0, accepted := v }, if v then some false else none)
      else ({ x with good := x.good + 1 }, none)
    else ({ x with bad := 0, accepted := v }, if v && !x.accepted then some false else none)

/-- A fault that a window records: its source, whether a WIRE fault, whether injected, the class it is raised in, FIRST_DETAIL. -/
structure Rec where
  src    : Nat
  wire   : Bool
  inj    : Bool
  cls    : Nat
  detail : Nat
  deriving DecidableEq, Repr

/-- The SEVERE reactions of a source within ESC_WINDOW (R490). -/
def Dev.escCount (d : Dev) (n : Nat) : Nat :=
  ((FMap.get [] d.lint.escTimes n).filter (fun t => decide (d.timebase < t + secTicks (d.rd LINT.ESC_WINDOW)))).length

/-- Whether the next SEVERE fault of a source escalates (R490). -/
def Dev.escalates (d : Dev) (n : Nat) : Bool := decide (d.rd LINT.ESC_COUNT ≤ d.escCount n)

/-- The class a fault is raised in: a SEVERE fault of a block without a block reset, or that escalates, is FATAL (R488, R490). -/
def Dev.raisedClass (d : Dev) (n : Nat) (wire : Bool) : Nat :=
  let c := if wire then 2 else (srcClass n).getD 0
  if c = 2 && (!srcHasReset n || (d.escalates n && !d.consequent n)) then 3 else c

/-- Whether FIRST_DETAIL has a layout for a source: lanes and engines (R504). -/
def srcDetailed (n : Nat) : Bool := let i := n / 16; (24 ≤ i && i < 40) || (88 ≤ i && i < 184)

/-- One source sampled. An occurrence ends with the window that records it (R484); a fault of the source under injection stays held
(R497). -/
def Dev.sampleSrc (bad : List Nat) (acc : Dev × List Rec) (n : Nat) : Dev × List Rec :=
  let d := acc.1
  if d.srcMasked n then acc
  else
    let x := d.src n
    let inj := match d.lint.injRail with | some (m, _) => m == n | none => false
    let (y, r) := x.sample (d.rails bad n)
    match r with
    | none => (d.setSrc n y, acc.2)
    | some wire =>
      let own := !wire && !inj && x.held
      let z := if own then { y with held := false, accepted := x.cond, detail := 0 } else y
      let (det, d1) :=
        if !srcDetailed n then (0, d)
        else if own then (x.detail, d)
        else (Config.wireDetail d.free, { d with free := d.free + 1 })
      (d1.setSrc n z, acc.2 ++ [⟨n, wire, inj, d1.raisedClass n wire, det⟩])

/-- The order of R491: real before injected, higher class first, lower source first. -/
def Rec.before (a b : Rec) : Bool :=
  if a.inj != b.inj then !a.inj
  else if a.cls ≠ b.cls then decide (b.cls < a.cls)
  else decide (a.src ≤ b.src)

/-! ### Block resets (R488) -/

/-- The port logic restarts from its registers: the port goes DOWN as by a lane reset (R30, R488). -/
def Dev.portReset (d : Dev) (n : Nat) : Dev :=
  let d1 := d.openShadow ⟨.port n, [n], [d.rd PORT.ENGINE n], [], some (d.timebase + frameTicks), false, 0⟩
  if !d1.enabled n then d1 else (d1.portToReset n).judgeFailure n

/-- AFEC restarts from its registers: queued SPI traffic is dropped, pending gain settings start anew (R488). -/
def Dev.afecRestart (d : Dev) : Dev :=
  let d1 := { d with line := { d.line with masters := [] } }
  (List.range 512).foldl (fun (d : Dev) n => if (d.rinse n).gain.isSome then d.gainStart n (d.rd AFEC.PORT_GAIN 0 n) else d) d1

/-- The events queued at an engine dropped and counted (R488). -/
def Dev.dropQueue (d : Dev) (e : Nat) : Dev :=
  let k := (d.engine e).queue.length
  if k = 0 then d else (d.inc NDL.HOOK_DROP e 0 k).raise .ndl e 2

/-- The end of a CMD_BIST run: its results, BIST_DONE and the completion (R500, R506). -/
def Dev.bistEnd (d : Dev) (r : BistRun) : Dev :=
  let d1 := { d with lint := { d.lint with run := none, exitDue := d.mode == Mode.maint } }
  let d2 := (((((d1.wr BIST.SLICES_RUN 0 0 r.slices).wr BIST.SLICES_FAILED 0 0 r.failed).wr BIST.PART_FAILED 0 0 r.parts).wr BIST.LAST_RUN_TB
    0 0 d1.timebase).wr BIST.RUNNING 0 0 0).wr BIST.ITEM 0 0 0
  let d3 := if r.first.isNone then d2.wr BIST.FAIL_ITEM 0 0 0xFFFFFFFF else d2
  let w := match r.first with
    | some (i, sig) => [i, sig % 2 ^ 32, sig / 2 ^ 32]
    | none => [0xFFFFFFFF, 0, 0]
  (d3.raise .bist 0 0).complete r.tag .ok ([r.slices * 65536 + r.failed, r.parts] ++ w)

/-- A running BIST run ends (R488): over the items finished so far; a partition under scan is initialised again. -/
def Dev.bistStop (d : Dev) : Dev :=
  match d.lint.run with
  | some r =>
    let m := match r.items.head?.bind lbistPart with | some p => [(p, 2)] | none => []
    ({ d with lint := { d.lint with masked := d.lint.masked ++ m } }).bistEnd r
  | none => d

/-- The block reset of a SEVERE fault with its shadow (R488, R493). A lane whose reaction runs already does not start another. TRUNK and CHK
pages have no source (R486; log entry 139). -/
def Dev.blockReset (d : Dev) (n : Nat) : Dev :=
  let i := n / 16
  let us10 := some (d.timebase + usTicks 10)
  if 24 ≤ i ∧ i < 40 then
    (match FMap.get none d.arch.overrun (i - 24) with | some _ => d | none => d.planReaction (i - 24))
  else if 40 ≤ i ∧ i < 88 then
    let k := d.rd JLANE.LINK (i - 40)
    let ps := (List.range 16).map (fun c => 16 * k + c)
    let lanes := (ps.filter d.enabled).map (fun n => d.rd PORT.LANE n)
    let d1 := d.openShadow ⟨.link k, ps, lanes, d.linkLanes k, none, false, 0⟩
    (if (d1.link k).mode = .disabled then d1 else d1.linkSync k).endShadow (.link k)
  else if 88 ≤ i ∧ i < 184 then
    let e := i - 88
    (((d.openShadow ⟨.ndl e, d.enginePorts e, [], [], us10, false, 0⟩).dropQueue e).ndlSoftReset e).matrixAbort (2 + e / 8)
  else if 184 ≤ i then d.portReset (i - 184)
  else if i = 9 then (d.openShadow ⟨.afec, [], [], [], us10, false, 0⟩).afecRestart
  else if i = 7 then ((d.openShadow ⟨.bist, [], [], [], us10, false, 0⟩).bistStop).matrixAbort 17
  else d

/-! ### Recording (R487 to R493) -/

/-- A source's sticky bit set; a bit that rises sets NEW_SOURCE (R492, R504). -/
def Dev.stick (d : Dev) (n : Nat) : Dev :=
  let v := d.rd LINT.STICKY 0 (n / 32)
  if v.testBit (n % 32) then d else (d.wr LINT.STICKY 0 (n / 32) (orBit v (n % 32))).raise .lint1 0 0

/-- The latch of LINT for a fault that is not consequent (R491); a NOTE raises no LINT[0] event (R487). -/
def Dev.latchFirst (d : Dev) (r : Rec) (cls : Nat) (esc : Bool) : Dev :=
  let ev := fun (d : Dev) b => if cls = 0 then d else d.raise .lint0 0 b
  if d.on LINT.FIRST_VALID then ev ((d.wr LINT.OVERFLOW 0 0 1).inc LINT.OVF_COUNT) 4
  else
    ev (((((((((d.wr LINT.FIRST_VALID 0 0 1).wr LINT.FIRST_CLASS 0 0 cls).flag LINT.FIRST_WIRE 0 0 r.wire).flag LINT.FIRST_INJ 0 0
      r.inj).flag LINT.FIRST_ESC 0 0 esc).wr LINT.FIRST_SOURCE 0 0 r.src).wr LINT.FIRST_TB_LO 0 0 d.timebase).wr LINT.FIRST_TB_HI 0 0
        (d.timebase / 2 ^ 32)).wr LINT.FIRST_DETAIL 0 0 r.detail) 0

/-- The header of the block's page: FAULT_COUNT and its own first fault (R54, R486, R492). -/
def Dev.latchHeader (d : Dev) (r : Rec) (cls : Nat) (conseq : Bool) : Dev :=
  let (p, i, x) := srcPage r.src
  let d1 := d.inc (HDR.FAULT_COUNT p) i
  if conseq || d1.on (HDR.FF_VALID p) i then d1
  else ((d1.wr (HDR.FF_VALID p) i 0 1).wr (HDR.FF_CLASS p) i 0 cls).wr (HDR.FF_SOURCE p) i 0 x

/-- A recorded fault: counted, latched, raised (R487, R491 to R493). -/
def Dev.recordFault (d : Dev) (r : Rec) (cls : Nat) (esc conseq : Bool) : Dev :=
  let d1 := d.stick r.src
  let info := conseq.toNat * 2 ^ 31 + cls * 2 ^ 29 + r.wire.toNat * 2 ^ 28 + r.inj.toNat * 2 ^ 27 + esc.toNat * 2 ^ 26 + r.src
  let d2 := (d1.wr LINT.LAST_INFO 0 0 info).wr LINT.LAST_TB_LO 0 0 d1.timebase
  let d3 := if r.inj then d2.inc LINT.INJ_COUNT
    else let e := d2.inc LINT.CLASS_COUNT 0 cls
      if r.wire then e.inc LINT.WIRE_COUNT else e
  let d4 := if conseq then d3.inc LINT.CONSEQ_COUNT else d3.latchFirst r cls esc
  let d5 := d4.latchHeader r cls conseq
  let d6 := if esc then (d5.inc LINT.ESC_TOTAL).raise .lint0 0 6 else d5
  let d7 := if r.wire then d6.raise .lint0 0 5 else d6
  if cls = 0 then d7 else d7.raise .lint0 0 cls

/-- One fault taken from a window: recorded, then the reaction of its class (R487 to R490, R493). -/
def Dev.takeFault (d : Dev) (r : Rec) : Dev :=
  let conseq := r.cls != 3 && d.consequent r.src
  let cls := if conseq && r.cls == 2 then 1 else r.cls
  let esc := r.cls == 3 && srcHasReset r.src && (r.wire || srcClass r.src == some 2)
  let d1 := d.recordFault r cls esc conseq
  if cls = 3 then d1.enterSafe
  else if cls = 2 then
    let ts := (d1.timebase :: FMap.get [] d1.lint.escTimes r.src).filter (fun t => decide (d1.timebase < t + secTicks 255))
    ({ d1 with lint := { d1.lint with escTimes := FMap.set [] d1.lint.escTimes r.src ts } }).blockReset r.src
  else d1

/-- The sources that a window looks at: those with state, those with invalid rails, and the one under injection. -/
def Dev.windowSrcs (d : Dev) (bad : List Nat) : List Nat :=
  let inj := match d.lint.injRail with | some (n, _) => [n] | none => []
  ((d.lint.src.map (fun e => e.1)) ++ bad ++ inj).eraseDups

/-- One sample period (R483): every source sampled, the recorded faults taken in order. -/
def Dev.lintWindow (d : Dev) (bad : List Nat) : Dev :=
  let bad' := bad.filter (fun n => (srcClass n).isSome)
  let (d1, rs) := (d.windowSrcs bad').foldl (Dev.sampleSrc bad') (d, [])
  let d2 := { d1 with lint := { d1.lint with
      nextWindow := d1.lint.nextWindow + 32
      masked := (d1.lint.masked.map (fun x => (x.1, x.2 - 1))).filter (fun x => x.2 != 0) } }
  ((rs.mergeSort Rec.before).foldl Dev.takeFault d2).presentCond

/-! ### Injection (R495 to R497) -/

/-- The injection released from the next window on; a fault still present is then recorded as real (R497). -/
def Dev.injRelease (d : Dev) : Dev :=
  match d.lint.injRail with
  | some (n, _) =>
    let d1 := d.setSrc n { d.src n with accepted := false, bad := 0 }
    { d1 with lint := { d1.lint with injRail := none } }
  | none => d

/-- INJ_CTRL of an injection: it starts, moves or changes its rails. -/
def Dev.injStart (d : Dev) (n mode : Nat) : Dev :=
  let d1 := match d.lint.injRail with | some (m, _) => if m = n then d else d.injRelease | none => d
  { d1 with lint := { d1.lint with injRail := some (n, mode) } }

/-! ### BIST items (R498 to R502) -/

/-- What the start of a partition's scan does to its blocks in MAINT (R498): 20 sends nothing on the trunk pairs for the run, 21 returns
the links to SYNCING and TSTATE to FREERUN, 22 drops the mate link and holds the DIMMs, which are trained again. -/
def Dev.partStart (d : Dev) (p : Nat) : Dev :=
  if p = 21 then
    let d1 := (List.range 32).foldl (fun (d : Dev) k => if (d.link k).mode = .disabled then d else d.linkSync k) d
    { d1 with sys := { d1.sys with sel := none, okRun := 0, farRun := 0, lockedAt := none, holdSince := none } }.wr DEV.TSTATE 0 0 tsFreerun
  else if p = 22 then
    let d1 := if d.mateUp then
        ((d.wr PAIR.LANE_UP 0 0 0).modPair (fun (x : PairSt) => { x with lanesDown := some d.timebase, peer := none, rxGen := none })).showPair
      else d
    if d1.hamperOnline then d1.wr (HDR.STATE .hamper) 0 0 1 else d1
  else d

/-- What the initialisation after a scan does to the blocks of a partition: their logic restarts from their registers (R498). -/
def Dev.partInit (d : Dev) (p : Nat) : Dev :=
  if 17 ≤ p ∧ p < 20 then
    (List.range 32).foldl (fun (d : Dev) i =>
      (d.dropQueue (32 * (p - 17) + i)).modEngine (32 * (p - 17) + i) (fun (x : EngineSt) => { x with queue := [], waiting := none })) d
  else if p = 20 then (List.range 8).foldl Dev.trunkRestart d
  else if p = 21 then d.afecRestart.timingUpdate
  else d

/-- The item at the front of a run starts: BIST.ITEM, and its effects if a partition. -/
def Dev.itemStart (d : Dev) (item : Nat) : Dev :=
  let d1 := d.wr BIST.ITEM 0 0 item
  match lbistPart item with
  | some p => d1.partStart p
  | none => d1

/-- The items of CMD_BIST (R500). -/
def bistItems (kind mask : Nat) : List Nat :=
  (if kind.testBit 0 then List.range 180 else []) ++
  (if kind.testBit 1 then ((List.range 23).filter mask.testBit).map (fun p => 180 + p) else [])

/-- Whether the signature of an item is its reference's (R498, R499). -/
def Dev.itemPass (d : Dev) (item sig : Nat) : Bool := d.on BIST.REF_OK && sig == FMap.get 0 d.lint.refs item

/-- A failing item: BIST_FAIL as event and fault, and the first one since last cleared (R500, R506). -/
def Dev.itemFail (d : Dev) (item sig : Nat) : Dev :=
  let ref := FMap.get 0 d.lint.refs item
  let d1 := if d.rd BIST.FAIL_ITEM = 0xFFFFFFFF then
      ((((d.wr BIST.FAIL_ITEM 0 0 item).wr BIST.FAIL_SIG_LO 0 0 sig).wr BIST.FAIL_SIG_HI 0 0 (sig / 2 ^ 32)).wr BIST.FAIL_REF_LO 0 0 ref).wr
        BIST.FAIL_REF_HI 0 0 (ref / 2 ^ 32)
    else d
  (d1.raise .bist 0 1).fault srcBist

/-- A run after an item. -/
def BistRun.after (r : BistRun) (item sig : Nat) (pass : Bool) : BistRun :=
  { r with
    items := r.items.drop 1
    slices := if item < 180 then r.slices + 1 else r.slices
    failed := if item < 180 && !pass then r.failed + 1 else r.failed
    parts := if 180 ≤ item && !pass then orBit r.parts (item - 180) else r.parts
    first := if pass then r.first else match r.first with | some x => some x | none => some (item, sig) }

/-- The end of an item, whoever ran it: a failure is raised, a partition is initialised again and stays masked for 2 samples. -/
def Dev.itemEnd (d : Dev) (item sig : Nat) : Dev :=
  let d1 := if d.itemPass item sig then d else d.itemFail item sig
  match lbistPart item with
  | some p => ({ d1 with lint := { d1.lint with masked := d1.lint.masked ++ [(p, 2)] } }).partInit p
  | none => d1

/-- The current item of a commanded run ends (R498, R500). -/
def Dev.runItemDone (d : Dev) (r : BistRun) (item sig : Nat) : Dev :=
  let r' := r.after item sig (d.itemPass item sig)
  let d1 := d.itemEnd item sig
  let d2 := { d1 with lint := { d1.lint with run := some r' } }
  match r'.items with
  | [] => d2.bistEnd r'
  | i :: _ => d2.itemStart i

/-- The rolling item ends; the 200th ends a round (R502). -/
def Dev.rollItemDone (d : Dev) (item sig : Nat) : Dev :=
  let pass := d.itemPass item sig
  let d1 := d.itemEnd item sig
  let d2 := if pass then d1
    else ({ d1 with lint := { d1.lint with selftestFail := true } }).inc BIST.ROUND_FAILS
  let last := item == 199
  let d3 := ({ d2 with lint := { d2.lint with
      rollItem := none
      rollStep := if last then 0 else d2.lint.rollStep + 1
      rollFrom := if last then d2.lint.rollFrom + secTicks 10 else d2.lint.rollFrom } }).wr BIST.ITEM 0 0 0
  (if last then (d3.inc BIST.ROUNDS).raise .bist 0 2 else d3).showPair

/-! ### Meanings -/

/-- LINT_WINDOW (R483 to R493): `bad` are the sources whose rails read 00 or 11. -/
def execLintWindow (bad : List (Fin 11136)) (s : State) : Host.Outcome State Fault Refusal :=
  shift s (whenDev (fun d => d.mode != .reset && decide (d.lint.nextWindow ≤ d.timebase))
    (fun d => d.lintWindow (bad.map (fun n => n.val))))

/-- SHADOW_CLOSE (R493): the shadows whose boundaries have passed close. -/
def execShadowClose (s : State) : Host.Outcome State Fault Refusal := stay s Dev.closeShadows

/-- INJ_KEY_WRITE (R495). -/
def execInjKeyWrite (value : Word) (s : State) : Host.Outcome State Fault Refusal :=
  unlessMisuse (s.dev.wordMisuse .lint0 0 0x80 value.toNat)
    (stay s (whenDev (fun d => d.writable .lint0 && d.on DEV.TEST_MODE)
      (fun d =>
        if value.toNat = 0xC0DE then (d.wr LINT.INJ_ARMED 0 0 1).cond .lint0 0 7 true
        else ((d.injRelease.wr LINT.INJ_ARMED 0 0 0).wr LINT.INJ_ACTIVE 0 0 0).cond .lint0 0 7 false)))

/-- INJ_CTRL_WRITE (R496): ignored outside test mode, and with ACTIVE = 1 while not armed, for a source that does not exist or is
reserved, or with MODE 3. -/
def execInjCtrlWrite (value : Word) (s : State) : Host.Outcome State Fault Refusal :=
  let v := value.toNat
  let active := v.testBit 30
  let mode := v / 2 ^ 28 % 4
  let n := v % 2 ^ 14
  unlessMisuse (s.dev.wordMisuse .lint0 0 0x84 v)
    (stay s (whenDev
      (fun d => d.writable .lint0 && d.on DEV.TEST_MODE && (!active || (d.on LINT.INJ_ARMED && (srcClass n).isSome && mode != 3)))
      (fun d =>
        let d1 := if mode = 3 then d.busErr DEV.RANGE 0x1084 else d.wr LINT.INJ_MODE 0 0 mode
        let d2 := (d1.flag LINT.INJ_ACTIVE 0 0 active).wr LINT.INJ_SOURCE 0 0 n
        if active then d2.injStart n mode else d2.injRelease)))

/-- CMD_BIST (R500). -/
def execCmdBist (tag : Fin 4096) (s : State) : Host.Outcome State Fault Refusal :=
  unlessMisuse (argMisuse s 6 tag (fun a => a.getD 0 0 == 0 || decide (3 < a.getD 0 0) || decide (2 ^ 23 ≤ a.getD 1 0)))
    (stay s (fun d => d.startCmd 6 tag (fun c d =>
      if d.lint.run.isSome then d.complete tag .busy
      else
        let items := bistItems (c.args.getD 0 0) (c.args.getD 1 0)
        let r : BistRun := ⟨tag, items, 0, 0, 0, none⟩
        let d1 := ({ d with lint := { d.lint with run := some r, exitDue := false } }).wr BIST.RUNNING 0 0 1
        match items with
        | [] => d1.bistEnd r
        | i :: _ => d1.itemStart i)))

/-- BIST_ITEM_DONE (R498): the item under way ends with a MISR signature. -/
def execBistItemDone (sig : BitVec 64) (s : State) : Host.Outcome State Fault Refusal :=
  stay s (fun d =>
    match d.lint.run with
    | some r => (match r.items with | i :: _ => d.runItemDone r i sig.toNat | [] => d)
    | none => (match d.lint.rollItem with | some i => d.rollItemDone i sig.toNat | none => d))

/-- ROLLING_STEP (R502): a step's 50 ms has come in STANDBY. -/
def execRollingStep (s : State) : Host.Outcome State Fault Refusal :=
  stay s (whenDev
    (fun d => d.mode == .standby && d.lint.rollItem.isNone && d.passed d.lint.rollFrom (msTicks (50 * d.lint.rollStep)))
    (fun d => ({ d with lint := { d.lint with rollItem := some d.lint.rollStep } }).wr BIST.ITEM 0 0 d.lint.rollStep))

/-- MAINT_AUTO_EXIT (R26): after a BIST run, the first moment without a command in flight. -/
def execMaintAutoExit (s : State) : Host.Outcome State Fault Refusal :=
  shift s (whenDev (fun d => d.mode == .maint && d.lint.exitDue && d.host.inflight.isEmpty && d.host.cplWait.isEmpty) Dev.enterReady)

end Sys2Proof.Machine
end

