-- ==== Sys2Proof/Machine/HostBus.lean ====
section
/-! DEFINITION. Host writes of registers that have no row of their own, soft resets, the read of TIMEBASE, the MSI-X table and the
vector acknowledgement (R8 to R12, R16, R48 to R60). -/

namespace Sys2Proof.Machine

/-! ### Which row a write belongs to -/

/-- The pages that implement CTRL.SOFT_RESET (R56). -/
def softResets (p : Page) : Bool := hasHeader p && p != .dev && p != .hostq

/-- Whether the write of a word is the step of another row than REGISTER_WRITE. -/
def ownPageRow (p : Page) (off v : Nat) : Bool :=
  if off = 8 ∧ softResets p ∧ v.testBit 1 then true
  else
    match p with
    | .trunk | .jlane | .ndl => off == 8
    | .dev => off == 0x7C || (decide (0x940 ≤ off ∧ off < 0x980) && off % 16 == 0 && decide (DEV.PAIR_COMMAND.part 0 v ≤ 4))
    | .lint0 => off == 0x80 || off == 0x84
    | .afec => decide (0x40 ≤ off ∧ off < 0x50) || decide (0x100 ≤ off ∧ off < 0x300) || (off == 0x60 && v.testBit 31)
    | .port => (off == 0x160 && v.testBit 8) || (off == 0x324 && decide (PORT.COMMAND.part 0 v ≤ 4))
    | .trib => off == 0x14 && decide (TRIB.COMMAND.part 0 v ≤ 4)
    | .hostq =>
      (decide (0x100 ≤ off ∧ off < 0x1E0) && (off % 16 == 4 || off % 16 == 8 || (off % 16 == 0 && v.testBit 31))) ||
      (decide (0x200 ≤ off ∧ off < 0x3E0) && (off % 32 == 8 || off % 32 == 0xC))
    | .chk => decide (0x100 ≤ off ∧ off < 0x900) && [4, 0xC, 0x14, 0x18, 0x1C, 0x24, 0x3C, 0x44].contains (off % 128)
    | .hamper => off == 0x4C || off == 0x60 || ((off == 0x68 || off == 0x84) && v.testBit 31)
    | .pair => off == 0x44 && v % 4 != 0
    | _ => false

/-- Whether the write of a word of BAR0 is the step of another row than REGISTER_WRITE. -/
def Dev.ownRow (d : Dev) (a v : Nat) : Bool :=
  match region a with
  | .page p _ off => ownPageRow p off v
  | .cmd _ => true
  | .cmem .. => true
  | .msixTable w => w % 4 == 3 && (d.msixWord w).testBit 0 && !v.testBit 0
  | _ => false

/-! ### What follows the write of a page word -/

/-- The leaves that a page feeds (R57). -/
def Dev.pageLeaves (d : Dev) (p : Page) (inst : Nat) : List Nat := ((List.range 32).filterMap (d.leafOf p inst)).eraseDups

/-- DEV words: leaf vectors, EVT_FORCE in factory test mode, timing configuration. -/
def Dev.devAfter (d0 d : Dev) (off : Nat) : Dev :=
  if 0x400 ≤ off ∧ off < 0x900 then
    (((List.range 4).map (fun i => d.rd DEV.LEAF_VEC 0 (off - 0x400 + i))).eraseDups).foldl (fun e v => Dev.vecRise d0 v e) d
  else if off = 0xC4 ∨ off = 0xD8 then d.timingUpdate
  else d

/-- An expected label written: the port's labels are compared at the next system multiframe boundary (R251). -/
def Dev.recheckDue (d : Dev) (n : Nat) : Dev := d.modPort n (fun (x : PortSt) => { x with recheck := some d.sys.nextMf })

/-- PORT words: the pins of PLACE, the expected label, the SD and SF thresholds, what fails a port or station, the calibrated fields written at the expert
level. -/
def Dev.portAfter (d : Dev) (n off v : Nat) : Dev :=
  if off = 0x28 then
    let d1 := d.writePlace n v
    if d.expert .port n then d1.jrnAdd 1 [0x100000 + 4096 * n + off, v] else d1
  else if off = 0x180 then d.recheckDue n
  else if off = 0x200 then d.restartWindows n
  else if off = 0x204 then d.judgeFailure n
  else if !d.expert .port n then d
  else if off = 0x44 then d.markExpert n 0
  else if off = 0x88 then d.markExpert n 1
  else if 0x120 ≤ off ∧ off < 0x13C then d.markExpert n (2 + (off - 0x120) / 4)
  else if off = 0x360 then d.markExpert n 9
  else d

/-- TRIB words: the pins of PLACE. -/
def Dev.tribAfter (d : Dev) (t off v : Nat) : Dev :=
  if off = 0x3C then
    let d1 := d.writeTribPlace t v
    if d.expert .trib t then d1.jrnAdd 1 [0x1000000 + 64 * t + off, v] else d1
  else if off = 4 then d.recheckDue (d.rd TRIB.PORT_N t)
  else d

/-- HAMPER words: the delay of the element that DLY_INDEX names, limited to 16,000 frames (R373). -/
def Dev.hamperAfter (d : Dev) (off v : Nat) : Dev :=
  if off = 0x80 then
    let x := HAMPER.DELAY.part 0 v
    let d1 := (d.dlyWrite (d.rd HAMPER.DLY_INDEX) x).jrnAdd 1 [0xA080, x]
    if 16000 < x then d1.busErr DEV.RANGE 0xA080 else d1
  else d

/-- MANGLE words: CLEAR of a PRBS checker (R309, R330). -/
def Dev.mangleAfter (d : Dev) (off v : Nat) : Dev :=
  if 0x80 ≤ off ∧ off < 0x100 ∧ off % 8 = 0 ∧ v.testBit 29 then
    (d.wr MANGLE.BIT_ERR 0 ((off - 0x80) / 8) 0).wr MANGLE.SYNC_LOSS 0 ((off - 0x80) / 8) 0
  else d

/-- JLANE words: E and F of the link pages, the lanes of the links, the leaves of links whose link page has changed. -/
def Dev.jlaneAfter (d0 d : Dev) (j off : Nat) : Dev :=
  if off = 0x40 ∨ off = 0x80 then
    let ks := [d0.rd JLANE.LINK j, d.rd JLANE.LINK j].eraseDups
    let d1 := (ks.foldl (fun (d : Dev) k => d.showFE k) d).followEnables
    Dev.leavesRise d0 (ks.map (fun k => 1184 + k)) d1
  else d

/-- LINT[0] words: OVERFLOW cleared clears its count (R491, R504). -/
def Dev.lintAfter (d : Dev) (off v : Nat) : Dev := if off = 0x54 ∧ v.testBit 31 then d.wr LINT.OVF_COUNT 0 0 0 else d

/-- What a page word's write brings about beyond its fields. -/
def Dev.pageAfter (d0 d : Dev) (p : Page) (inst off v : Nat) : Dev :=
  let d1 :=
    if hasHeader p && off == 0x14 then Dev.leavesRise d0 (d.pageLeaves p inst) d
    else if hasHeader p && off == 0x18 then
      if d.on DEV.TEST_MODE then ((List.range 32).filter v.testBit).foldl (fun (d : Dev) b => d.raise p inst b) d else d
    else d
  match p with
  | .dev => Dev.devAfter d0 d1 off
  | .port => d1.portAfter inst off v
  | .trib => d1.tribAfter inst off v
  | .stn => if 0x10 ≤ off then d1.labelHook (inst / 32) (inst % 32) 3 0 0 else d1
  | .trunk => if off = 0x44 ∨ 0x90 ≤ off then d1.judgeTrunkLabels inst else d1
  | .hamper => d1.hamperAfter off v
  | .mangle => d1.mangleAfter off v
  | .jlane => Dev.jlaneAfter d0 d1 inst off
  | .lint0 => d1.lintAfter off v
  | .hostq => if off = 0x44 then Dev.leavesRise d0 ((List.range 12).map (fun c => 1240 + c)) d1 else d1
  | .chk => if off = 0x44 then Dev.leavesRise d0 ((List.range 16).map (fun u => 1168 + u)) d1 else d1
  | .pair => if off = 8 ∨ off = 0x40 then d1.judgeEcho.showPair else d1
  | _ => d1

/-- The protection command word that a word of a page is, for codes without a row. -/
def protRefOf (p : Page) (inst off : Nat) : Option ProtRef :=
  match p with
  | .port => if off = 0x324 then some (.port (Fin.ofNat 512 inst)) else none
  | .trib => if off = 0x14 then some (.trib (Fin.ofNat 16384 inst)) else none
  | .dev => if 0x940 ≤ off ∧ off < 0x980 ∧ off % 16 = 0 then some (.pair (Fin.ofNat 4 ((off - 0x940) / 16))) else none
  | _ => none

/-- The write of a page word without a row of its own. -/
def Dev.pageWrite (d : Dev) (a : Nat) (p : Page) (inst off v : Nat) : Dev :=
  if !d.writable p then d
  else
    match protRefOf p inst off with
    | some r => d.protWrite r v
    | none =>
      if p = .chk ∧ 0x100 ≤ off ∧ off < 0x900 then d.chkWrite ((off - 0x100) / 128) (off % 128) v
      else if p = .ndl ∧ 0x80 ≤ off ∧ off < 0x100 then d.ndlEntryWrite a inst off v
      else if p = .pair ∧ off = 0x44 then d.pairCtl v
      else
        let w := if p = .port ∧ off = 0x28 ∨ p = .trib ∧ off = 0x3C then d else d.writeFields a p inst off v
        Dev.pageAfter d w p inst off v

/-! ### REGISTER_WRITE -/

/-- A 32-bit write of BAR0. -/
def Dev.busWrite (d : Dev) (a v : Nat) : Dev :=
  if d.ownRow a v then d
  else
    match region a with
    | .page p inst off => d.pageWrite a p inst off v
    | .msixTable w =>
      { d with host := { d.host with
          msixTable := FMap.set 0 d.host.msixTable w ((if w % 4 = 3 then v % 2 else v) ^^^ msixReset w) } }
    | .ndlData e i => if d.writable .ndl then d.ndlDataWrite e i v else d
    | .ndlWin e i => if d.writable .ndl then d.ndlWinWrite e i v else d
    | _ => d

/-- The misuse of a 32-bit write of BAR0. -/
def Dev.busMisuse (d : Dev) (a v : Nat) : Option Misuse :=
  if d.ownRow a v then none
  else
    match region a with
    | .page p inst off => d.wordMisuse p inst off v
    | .ndlData .. => if v < 2 ^ 20 then none else some .reservedWrite
    | .ndlWin e _ =>
      if 2 ^ (if d.on NDL.WIN_SHARED e then 20 else 24) ≤ v then some .reservedWrite
      else if d.writable .ndl then d.ndlWinMisuse e else none
    | .reserved => if v = 0 then none else some .reservedWrite
    | _ => none

/-- REGISTER_WRITE (R50 to R52): `size` is 0 to 3 for 8, 16, 32 and 64 bits. A 64-bit write is two 32-bit writes, the lower address
first; a shorter write than 32 bits is dropped. -/
def execRegisterWrite (addr : Fin 67108864) (size : Fin 4) (value : BitVec 64) (s : State) : Host.Outcome State Fault Refusal :=
  let a := addr.val
  let lo := value.toNat % 2 ^ 32
  let hi := value.toNat / 2 ^ 32
  if s.dev.host.resetLow then shift s id
  else if size.val < 2 then shift s (fun d => d.busErr DEV.SUBWORD a)
  else if size.val = 2 then unlessMisuse (s.dev.busMisuse (a / 4 * 4) lo) (shift s (fun d => d.busWrite (a / 4 * 4) lo))
  else
    let b := a / 8 * 8
    unlessMisuse (s.dev.busMisuse b lo)
      (unlessMisuse ((s.dev.busWrite b lo).busMisuse (b + 4) hi)
        (shift s (fun d => (d.busWrite b lo).busWrite (b + 4) hi)))

/-! ### TIMEBASE, the vector acknowledgement, the MSI-X table -/

/-- TIMEBASE_LO_READ (R16): the read latches the upper half. -/
def execTimebaseLoRead (s : State) : Host.Outcome State Fault Refusal :=
  stay s (whenDev (fun d => !d.host.resetLow) (fun d =>
    (d.wr DEV.TIMEBASE_HI 0 0 (d.timebase / 2 ^ 32)).emit
      (.readData ((List.range 4).map (fun i => d.timebase / 2 ^ (8 * i) % 256)))))

/-- VEC_ACK_WRITE (R59): the message of a vector from 2 to 127 is sent again while the OR of its leaves is 1. -/
def execVecAckWrite (value : Word) (s : State) : Host.Outcome State Fault Refusal :=
  let v := value.toNat
  unlessMisuse (s.dev.wordMisuse .dev 0 0x7C v)
    (stay s (whenDev (fun d => !d.host.resetLow && decide (2 ≤ v) && d.vecOr v) (fun d => d.msixSend v)))

/-- MSIX_UNMASK (R59): the mask bit of a vector is cleared, and a pending message is sent. -/
def execMsixUnmask (vector : Fin 128) (s : State) : Host.Outcome State Fault Refusal :=
  stay s (whenDev (fun d => !d.host.resetLow && (d.msixWord (4 * vector.val + 3)).testBit 0) (fun d =>
    let w := 4 * vector.val + 3
    let d1 := { d with host := { d.host with msixTable := FMap.set 0 d.host.msixTable w (0 ^^^ msixReset w) } }
    if FMap.get false d1.host.msixPend vector then
      ({ d1 with host := { d1.host with msixPend := FMap.set false d1.host.msixPend vector false } }).msixSend vector
    else d1))

/-! ### Soft resets (R56) -/

/-- A write of a page's CTRL word. -/
def Dev.ctrlWrite (d : Dev) (a : Nat) (p : Page) (inst v : Nat) : Dev :=
  let d1 := d.writeFields a p inst 8 v
  match p with
  | .trunk => d1.trunkEnable inst (d.trunkOn inst)
  | .ndl => d1.ndlEnable inst (d.on (HDR.ENABLE .ndl) inst)
  | .jlane => d1.followEnables
  | .pair => d1.judgeEcho.showPair
  | _ => d1

/-- The bus matrix masters that a page's block drives (R441, R445). -/
def pageMasters (p : Page) (inst : Nat) : List Nat :=
  match p with
  | .ndl => [2 + inst / 8]
  | .hamper => [14, 15]
  | .pair => [16]
  | .bist => [17]
  | _ => []

/-- The start of a block's reset: a PORT page in RUN is stopped as CMD_PORT_STOP would; the matrix transactions of the block's masters
are aborted (R56, R445); a BIST run ends. -/
def Dev.softStart (d : Dev) (a : Nat) (p : Page) (inst v : Nat) : Dev :=
  let d1 := d.ctrlWrite a p inst v
  let d2 := match p with
    | .port => if d1.mode = .run ∧ d1.enabled inst then d1.portStop inst else d1
    | .bist => d1.bistStop
    | _ => d1
  ((pageMasters p inst).foldl (fun (d : Dev) m => d.matrixAbort m) d2).flag (HDR.SOFT_RESET p) inst 0 true

/-- The fields whose Reset value is what the flash holds of them, by a record or by the journal (R12, R64, R384, R472, R480): the reset takes
them from there again, which leaves them as they stand (log entry 32). -/
def softKept : List Field := [STARCH.CAL_COUNT, STARCH.BIN_VALID, PAIR.EPOCH]

/-- The registers of a page at their Reset values (R12, R56). -/
def Dev.softRegs (d : Dev) (p : Page) (inst : Nat) : Dev :=
  d.restoreAll ((fieldsOf p).filter (fun f => !softKept.any (fun g => g.id == f.id))) inst

/-- The commands that a block carries out itself: a swap, plays to start, extractions, a calibration run, a forced checkpoint, a
switchover. -/
def Dev.blockCmds (d : Dev) (p : Page) : List Nat :=
  match p with
  | .mangle => d.mangle.swap.toList.map (fun x => x.tag)
  | .hamper => d.hamper.playReqs.map (fun (r : PlayReq) => r.tag) ++ d.hamper.extracts.map (fun (x : Extract) => x.tag)
  | .starch => d.starch.run.toList.map (fun (r : CalRun) => r.tag)
  | .pair => d.pair.ckptForce ++ d.pair.switch.toList.filterMap (fun x => x.1)
  | _ => []

/-- The work of a block's commands ended by its reset: the commands complete as ones that a change of state ends do (log entry 32). A
calibration run that ends gives its state back. -/
def Dev.softEnd (d : Dev) (p : Page) : Dev :=
  let tags := d.blockCmds p
  if tags.isEmpty then d
  else
    let d1 := (tags.foldl (fun (d : Dev) t => d.complete t .wrongState [] true) d).dropJobs
    if p = .starch ∧ d1.mode = .cal ∧ d1.calFrom ≠ .boot then
      (if d1.calFrom = .maint then { d1 with mode := .maint } else { d1 with mode := .ready })
    else d1

/-- PAIR restarts: the mate lanes lock anew, the peer's pins are accepted anew, and the active unit drives its claim again and starts a
checkpoint. What a standby holds in its Hamper, generation numbers and the last SEQ stay (R56, log entry 32). -/
def Dev.pairRestart (d : Dev) : Dev :=
  let t := d.timebase
  let d1 := d.modPair (fun (x : PairSt) => { PairSt.reset with
    lanesDown := some t
    ckptNext := t
    ckptDue := d.pairActive
    genStart := x.genStart
    genDone := x.genDone
    slotA := x.slotA
    slotB := x.slotB
    jrnSeq := x.jrnSeq
    jrnAlive := x.jrnAlive
    jrnLost := d.pairActive
    jrnIn := x.jrnIn
    jrnAliveIn := x.jrnAliveIn
    jrnHigh := x.jrnHigh
    mateSeq := x.mateSeq
    ageFrom := x.ageFrom })
  let d2 := if d1.pairActive then d1.driveClaim true else d1
  let d3 := ([0, 1, 2].foldl (fun (d : Dev) k => d.faultCond (srcPair k) false) d2)
  d3.judgeEcho.showPair

/-- The logic of a block restarts from its registers (R56; R437 for an engine). -/
def Dev.softLogic (d0 d : Dev) (p : Page) (inst : Nat) : Dev :=
  match p with
  | .port =>
    { d with arch := { d.arch with pins := FMap.set none d.arch.pins inst none } }.setPortSt inst ((d.port inst).started d.timebase)
  | .ndl =>
    let d1 := (d.ndlSoftReset inst).modEngine inst (fun (x : EngineSt) => { x with running := none, timers := [] })
    d1.setNdlState inst (if d1.on (HDR.ENABLE .ndl) inst && d1.needle.loaded then 1 else 0)
  | .trunk => (d.trunkRestart inst).trunkEnable inst (d0.trunkOn inst)
  | .jlane =>
    let d1 := Dev.jlaneAfter d0 d inst 0x40
    let k := d1.rd JLANE.LINK inst
    if (d1.link k).mode = .disabled then d1 else d1.linkSync k
  | .afec => d.afecRestart
  | .hamper =>
    let d1 := d.streamKeys.foldl (fun (d : Dev) k => d.showStream k false) d
    let same := d0.rd HAMPER.REC_SIZE_GIB == d1.rd HAMPER.REC_SIZE_GIB
    let d2 := (d1.modHamper (fun h => { HamperSt.reset with
      mem := h.mem
      ranks := if same then h.ranks else []
      periods := if same then h.periods else []
      nextPer := h.nextPer
      perWall := h.perWall
      playCount := h.playCount })).faultCond srcHamper false
    if d0.rd (HDR.STATE .hamper) = 0 then d2 else d2.wr (HDR.STATE .hamper) 0 0 1
  | .pair => d.pairRestart
  | .starch =>
    ({ d with starch := { d.starch with
      sensors := []
      ramps := []
      window := []
      passes := [] } }).updateCaps.countDeferred.countSuspect
  | .chk => { d with service := { d.service with chk := [] } }
  | .mtx => d.modMtx (fun _ => MtxSt.reset)
  | .mangle => (d.modMangle (fun (m : MangleSt) => { m with judged := [], held := [], gen := 32767, checks := [], swap := none })).showEntries'
  | .bist =>
    let d1 := d.rollStop
    if d1.mode = .standby then
      ({ d1 with lint := { d1.lint with rollStep := 0, rollFrom := d1.timebase } }).wr BIST.ROLLING 0 0 1
    else d1
  | .lint0 =>
    let d1 := d.injRelease
    { d1 with lint := { d1.lint with shadows := [], escTimes := [] } }
  | .lint2 => d.presentCond
  | _ => d

/-- A soft reset completes: the registers return to their Reset values, the logic restarts, SOFT_RESET reads 0. -/
def Dev.softDone (d : Dev) (p : Page) (inst : Nat) : Dev :=
  let d1 := d.softEnd p
  Dev.softLogic d1 (d1.softRegs p inst) p inst

/-- The page whose CTRL word an address names, if it implements SOFT_RESET. -/
def softPage (a : Nat) : Option (Page × Nat) :=
  match region a with
  | .page p inst off => if off = 8 ∧ softResets p then some (p, inst) else none
  | _ => none

/-- SOFT_RESET_WRITE (R56): a write of a CTRL word with SOFT_RESET 1. -/
def execSoftResetWrite (addr : Fin 67108864) (value : Word) (s : State) : Host.Outcome State Fault Refusal :=
  match softPage addr with
  | some (p, inst) =>
    unlessMisuse (s.dev.wordMisuse p inst 8 value.toNat)
      (shift s (whenDev (fun d => d.writable p && value.toNat.testBit 1)
        (fun d => d.softStart (addr.val / 4 * 4) p inst value.toNat)))
  | none => shift s id

/-- SOFT_RESET_DONE (R56): a soft reset under way completes. -/
def execSoftResetDone (addr : Fin 67108864) (s : State) : Host.Outcome State Fault Refusal :=
  match softPage addr with
  | some (p, inst) => shift s (whenDev (fun d => d.on (HDR.SOFT_RESET p) inst) (fun d => d.softDone p inst))
  | none => shift s id

end Sys2Proof.Machine
end

