-- ==== Sys2Proof/Machine/Boot.lean ====
section
/-! DEFINITION. Resets, strap sampling and BOOT (R12, R15, R48, R64, R68 to R74, R96, R382, R435 to R437, R472, R499, R511). -/

namespace Sys2Proof.Machine

/-! ### Reset (R12, R15, R64, R270) -/

/-- What no reset changes: the silicon, the fuses, the PERST# pin, what was sent, and TIMEBASE. -/
def HostSt.after (h : HostSt) : HostSt :=
  { HostSt.reset with
    perst := h.perst
    siRev := h.siRev
    grade := h.grade
    keyFuse := h.keyFuse
    pcieWidth := h.pcieWidth
    pcieRate := h.pcieRate
    out := h.out
    strapFrom := none }

/-- The device while RESET_N is low. -/
def Dev.held (d : Dev) : Dev :=
  { Dev.reset with
    timebase := d.timebase
    free := d.free
    host := { d.host.after with resetLow := true } }

/-- The device after the release of RESET_N: TIMEBASE 0, strap sampling starts. -/
def Dev.released (d : Dev) : Dev :=
  { Dev.reset with
    free := d.free
    host := { d.host.after with strapFrom := some 0 } }

/-- The device under the internal reset: TIMEBASE and SYS_PHASE go on, with the frame boundaries they give; the endpoint keeps its
MSI-X table. -/
def Dev.internal (d : Dev) (at_ from_ : Option Nat) : Dev :=
  let t := d.timebase
  let p := d.sys.sysPhase
  let nf := nextAt p frameTicks (t + 1)
  { Dev.reset with
    timebase := t
    free := d.free
    host := { d.host.after with
      msixTable := d.host.msixTable
      msixPend := d.host.msixPend
      internalAt := at_
      strapFrom := from_ }
    sys := { SysSt.reset with
      sysPhase := p
      nextFrame := nf
      nextMf := nextAt p mfTicks (t + 1)
      mfStarted := false }
    mangle := { MangleSt.reset with nextWalk := nf }
    lint := { LintSt.reset with
      nextWindow := nextAt 0 32 (t + 1)
      rollFrom := t }
    starch := { StarchSt.reset with nextRead := t }
    pair := { PairSt.reset with
      lanesDown := some t
      pinsAt := t
      ckptNext := t } }

/-- RESET_N_LOW (R26, R66, R386): RESET from any state, the commands that have started completed with WRONG_STATE and ABORTED as it is
entered, the claim pins not driven. -/
def execResetNLow (s : State) : Host.Outcome State Fault Refusal :=
  shift s (whenDev (fun d => !d.host.resetLow)
    (fun d => ((({ d with mode := .reset } : Dev).abortIllegal).showIdle).held.emit (.claim false false)))

/-- RESET_N_RELEASE (R15, R74): TIMEBASE is set to 0, and strap sampling begins. -/
def execResetNRelease (s : State) : Host.Outcome State Fault Refusal :=
  if s.dev.host.resetLow then .next { s with dev := s.dev.released } else .next s

/-- INTERNAL_RESET_END (R64): 10 µs after CMD_STATE(RESET) entered RESET. -/
def execInternalResetEnd (s : State) : Host.Outcome State Fault Refusal :=
  shift s (fun d =>
    match d.host.internalAt with
    | some t => if d.passed t (usTicks 10) && !d.host.resetLow then d.internal none (some d.timebase) else d
    | none => d)

/-! ### Straps (R96) -/

/-- The value of a strap from its 100 samples: the majority; which value 50 of 100 samples give is open (log entry 31). -/
def strapValue (i ones : Nat) : Bool := if ones = 50 then Config.strapTie i else decide (50 < ones)

/-- Whether fewer than 90 samples agree. -/
def strapUnstable (ones : Nat) : Bool := decide (max ones (100 - ones) < 90)

/-- The straps latched, BOOT entered. -/
def Dev.latchStraps (d : Dev) (pcie test src role : Nat) : Dev :=
  let d1 := (((d.flag DEV.PCIE_ID 0 0 (strapValue 0 pcie)).flag DEV.TEST_MODE 0 0 (test == 100)).flag DEV.BOOT_SRC 0 0 (strapValue 2 src)).flag
    DEV.PAIR_ROLE 0 0 (strapValue 3 role)
  let d2 := if [pcie, test, src, role].any strapUnstable then d1.fault (srcDev 4) else d1
  ({ d2 with
    mode := .boot
    host := { d2.host with
      strapFrom := none
      boot := { BootSt.idle with reading := .sfdp, since := d2.timebase } } }.flag DEV.SIG_REQUIRED 0 0 d2.host.keyFuse).wr DEV.BOOT_STEP 0 0 1

/-- STRAP_FILTER_END (R96): the samples that read 1, per strap. TEST_MODE needs all 100. -/
def execStrapFilterEnd (pcie test src role : Fin 101) (s : State) : Host.Outcome State Fault Refusal :=
  shift s (fun d =>
    match d.host.strapFrom with
    | some t => if d.mode == .reset && !d.host.resetLow && d.passed t (msTicks 1) then d.latchStraps pcie test src role else d
    | none => d)

/-! ### DEVICE_CONFIG -/

/-- The instances of a page type. -/
def pageCount : Page → Nat
  | .trunk => 8 | .jlane => 48 | .port => 512 | .ndl => 96 | .trib => 16384 | .stn => 16384
  | _ => 1

/-- Every page type. -/
def allPages : List Page :=
  [.dev, .lint0, .lint1, .lint2, .starch, .pair, .hostq, .chk, .mtx, .bist, .hamper, .afec, .mangle, .trunk, .jlane, .port, .ndl, .trib, .stn]

/-- Fields marked "flash" that a record or a rule of its own sets (R38, R472, R480). -/
def notConfig : List Nat := [DEV.PROG_ACTIVE.id, DEV.PROG_TARGET.id, DEV.PROG_ADVICE.id, STARCH.CAL_COUNT.id, STARCH.BIN_VALID.id]

/-- The field element that a key of DEVICE_CONFIG names: a field whose reset value comes from flash (R12). -/
def configField (k : Nat) : Option Field :=
  let id := k / 4096 / 65536
  let f := (allPages.flatMap fieldsOf).find? (fun f => f.id == id && f.fromFlash && !notConfig.contains id)
  f.filter (fun f => decide (k / 4096 % 65536 < pageCount f.page) && decide (k % 4096 < f.count))

/-- A value of DEVICE_CONFIG taken: the field holds it, now and after a reset of its block (R12). -/
def Dev.configValue (d : Dev) (kv : Nat × Nat) : Dev :=
  match configField kv.1 with
  | some f =>
    let x := (kv.2 % 2 ^ f.width) ^^^ f.resetAt (kv.1 % 4096)
    { d with
      regs := FMap.set 0 d.regs kv.1 x
      flash := FMap.set 0 d.flash kv.1 x }
  | none => d

/-- The programme that DEVICE_CONFIG names: its voltage is requested where it differs, and BOOT waits for it (R38, R511). -/
def Dev.configProg (d : Dev) (p : Nat) : Dev :=
  if p = 0 ∨ p = 2 then
    let d1 := ((d.wr DEV.PROG_TARGET 0 0 p).wr DEV.PROG_BUSY 0 0 1).wr STARCH.AVS_TARGET 0 0 (progMv p)
    ({ d1 with
      arch := { d1.arch with prog := some ⟨4096, 1, p, .voltage d1.timebase⟩ }
      host := { d1.host with boot := { d1.host.boot with reading := .volts } } }).emit (.avs (progMv p))
  else (((d.wr DEV.PROG_ACTIVE 0 0 p).wr DEV.PROG_TARGET 0 0 p).wr DEV.PROG_ADVICE 0 0 p).bootRecord 4

/-! ### NEEDLE_IMAGE (R435 to R437) -/

/-- A section: TYPE, TARGET, START and its data words. -/
structure ImgSection where
  type   : Nat
  target : Nat
  start  : Nat
  words  : List Nat
  deriving DecidableEq, Repr

/-- The sections of a body; none where a section is not whole. -/
def imgSections : Nat → List Nat → Option (List ImgSection)
  | 0, _ => some []
  | k + 1, h :: st :: n :: r =>
    if r.length < n then none else (imgSections k (r.drop n)).map (fun ss => ⟨h / 2 ^ 24, h % 65536, st, r.take n⟩ :: ss)
  | _ + 1, _ => none

/-- The word range of a section type, and its targets (R435). -/
def imgRange : Nat → Option (Nat × Nat × Nat)
  | 1 => some (0, 0x800, 96)
  | 2 => some (0x800, 0x1000, 96)
  | 3 => some (0, 32, 96)
  | 4 => some (0, 2048, 96)
  | 5 => some (0, 16384, 12)
  | _ => none

/-- Whether a section keeps within its store and region, and names a target. -/
def ImgSection.ok (x : ImgSection) : Bool :=
  match imgRange x.type with
  | some (lo, hi, targets) => decide (lo ≤ x.start ∧ x.start + x.words.length ≤ hi) && (x.target == 0xFFFF || decide (x.target < targets))
  | none => false

/-- The sections of an image body that passes (R435). -/
def imgBody (ws : List Nat) : Option (List ImgSection) :=
  if ws.getD 0 0 = 0x4E444C49 ∧ ws.getD 1 0 = 1 ∧ 1 ≤ ws.getD 3 0 ∧ ws.getD 3 0 ≤ 256 ∧ ws.length ≤ 2 ^ 20 then
    (imgSections (ws.getD 3 0) (ws.drop 24)).filter (fun ss => ss.all ImgSection.ok)
  else none

/-- A section written into a table of `size` words per target, for each of its targets. -/
def ImgSection.put (x : ImgSection) (size targets mask flip : Nat) (m : FMap Nat) : FMap Nat :=
  let ts := if x.target = 0xFFFF then List.range targets else [x.target]
  ts.foldl (fun m t => (x.words.zipIdx).foldl (fun m w => FMap.set 0 m (t * size + x.start + w.2) ((w.1 % mask) ^^^ flip)) m) m

/-- A section applied to the stores of the image. -/
def NeedleSt.section (n : NeedleSt) (x : ImgSection) : NeedleSt :=
  match x.type with
  | 1 | 2 => { n with istore := x.put 4096 96 (2 ^ 24) 0xFFFFFF n.istore }
  | 3 => { n with imgEntry := x.put 32 96 (2 ^ 32) 0 n.imgEntry }
  | 4 => { n with imgData := x.put 2048 96 (2 ^ 20) 0 n.imgData }
  | 5 => { n with imgShared := x.put 16384 12 (2 ^ 20) 0 n.imgShared }
  | _ => n

/-- The image loaded into the engines and the shared stores: sections for all targets first, the others over them; the engines wait with
mask 0x3F (R435, R437). -/
def Dev.loadImage (d : Dev) (ws : List Nat) (crc : Nat) (ss : List ImgSection) : Dev :=
  let order := ss.filter (fun x => x.target == 0xFFFF) ++ ss.filter (fun x => x.target != 0xFFFF)
  let n := order.foldl NeedleSt.section { NeedleSt.reset with loaded := true }
  let d1 := ({ d with needle := n }).needleFromImage
  (List.range 96).foldl (fun (d : Dev) e =>
    let d2 := ((d.wr NDL.IMAGE_CRC e 0 crc).wr NDL.VENDOR_VER e 0 (ws.getD 2 0 / 65536)).wr NDL.CUST_VER e 0 (ws.getD 2 0)
    if d2.on (HDR.ENABLE .ndl) e then d2.setNdlState e 1 else d2) d1

/-! ### CAL_BINS (R472) -/

/-- The bins of a CAL_BINS body, in the form of StarchSt.bins. -/
def binsOf (bytes : List Nat) : FMap Nat :=
  (bytes.zipIdx).filterMap (fun x => if x.1 = 0xFF then none else some (x.2, 255 - x.1 % 64))

/-- BIN_VALID formed from the bins. -/
def Dev.checkBins (d : Dev) : Dev := (List.range 32).foldl (fun (d : Dev) i => d.checkBin (i / 8) (i % 8)) d

/-! ### The records (R71, R72) -/

/-- The source of a record of a step shown in BOOT_INFO (R75): 0 not loaded, 1 copy A, 2 copy B, 3 journal. -/
def Dev.bootSource (d : Dev) (step src : Nat) : Dev :=
  let old := d.rd DEV.BOOT_SRCS
  let i := 2 * (step - 3)
  d.wr DEV.BOOT_SRCS 0 0 (old - old / 2 ^ i % 4 * 2 ^ i + src * 2 ^ i)

/-- The step after a record: the next record, or the journal scan (R74). -/
def Dev.bootNext (d : Dev) (step : Nat) : Dev :=
  if step < 8 then d.bootRecord (step + 1)
  else { d with host := { d.host with boot := { d.host.boot with
    reading := .scan
    since := d.timebase } } }

/-- A record that neither copy gave (R72). -/
def Dev.recordMissing (d : Dev) (step : Nat) : Dev :=
  let d1 := d.raise .dev 0 2
  match step with
  | 3 =>
    let d2 := (d1.fault (srcDev 0)).wr DEV.BOOT_STEP 0 0 10
    ({ d2 with host := { d2.host with boot := { d2.host.boot with reading := .none } } }).enterSafe
  | 4 => (d1.fault (srcDev 6)).bootNext 4
  | 5 => (d1.fault (srcDev 7)).bootNext 5
  | 7 => (d1.fault (srcDev 8)).bootNext 7
  | _ => d1.bootNext step

/-- The little-endian value of `n` bytes from a byte offset on. -/
def bytesAt (bs : List Nat) (off n : Nat) : Nat := ((bs.drop off).take n).foldr (fun b v => b + 256 * v) 0

/-- The 32-bit words of a body. -/
def wordsOf : Nat → List Nat → List Nat
  | 0, _ => []
  | n + 1, bs => bytesAt bs 0 4 :: wordsOf n (bs.drop 4)

/-- The field values of a DEVICE_CONFIG body: after the programme code, three words each, a field's key in two and its value (the model's
layout: the spec gives none, log entry 10). -/
def configPairs : List Nat → List (Nat × Nat)
  | lo :: hi :: v :: r => (lo + hi * 2 ^ 32, v) :: configPairs r
  | _ => []

/-- A record taken from its body's bytes; none where the body fails a check of its own. `crc` is the body's CRC-32, `signed` whether the
record carries a signature that passes. -/
def Dev.recordLoad (d : Dev) (step : Nat) (bs : List Nat) (crc : Nat) (signed : Bool) : Option Dev :=
  match step with
  | 3 =>
    let ws := wordsOf (bs.length / 4) bs
    some (((configPairs (ws.drop 1)).foldl Dev.configValue d).configProg (ws.headD 0 % 4))
  | 4 =>
    let ws := wordsOf (bs.length / 4) bs
    if d.on DEV.SIG_REQUIRED && !signed then none else (imgBody ws).map (fun ss => (d.loadImage ws crc ss).bootNext 4)
  | 5 =>
    if bs.length = 65536 then some ((({ d with starch := { d.starch with bins := binsOf bs } }).checkBins).bootNext 5) else none
  | 6 =>
    if bs.length = 1648 then
      let rev := bytesAt bs 0 1
      let d1 := { d with lint := { d.lint with
        refs := (List.range 204).foldl (fun m i => FMap.set 0 m i (bytesAt bs (16 + 8 * i) 8)) []
        refsRev := some rev } }
      let ok := rev == d.host.siRev
      some (((d1.flag BIST.REV_MATCH 0 0 ok).flag BIST.REF_OK 0 0 ok).bootNext 6)
    else none
  | 7 =>
    if bs.length = 24 then
      some (({ d with host := { d.host with identity := some (bytesAt bs 0 8, bytesAt bs 8 8, bytesAt bs 16 8) } }).bootNext 7)
    else none
  | 8 => if 4 ≤ bs.length then some ((d.wr STARCH.CAL_COUNT 0 0 (bytesAt bs 0 4)).bootNext 8) else none
  | _ => none

/-! ### The layout of a copy and of a record (R70) -/

/-- The TYPE of the record of a BOOT_STEP (R70, R74). -/
def recordType (step : Nat) : Nat := step - 2

/-- Whether a copy's header passes: MAGIC, HDR_VERSION, COUNT and the CRC-32 (R70). -/
def headerGood (ws : List Nat) : Bool :=
  let n := 4 + 4 * ws.getD 2 0
  ws.getD 0 0 == 0x504E3936 && ws.getD 1 0 == 1 && decide (1 ≤ ws.getD 2 0 ∧ ws.getD 2 0 ≤ 32) && decide (n < ws.length) &&
    ws.getD n 0 == crc32Words (ws.take n)

/-- The directory of a header that passes. -/
def headerDir (ws : List Nat) : List DirEntry :=
  (List.range (ws.getD 2 0)).map (fun k =>
    let w := fun (i : Nat) => ws.getD (4 + 4 * k + i) 0
    ⟨w 0 / 65536, w 0 % 65536, w 1, w 2⟩)

/-- The body of a record, its CRC-32 and its SIGNED flag, where the record is the one its directory entry names and passes its CRC-32. -/
def recordBody (e : DirEntry) (ws : List Nat) : Option (List Nat × Nat × Bool) :=
  let len := ws.getD 1 0
  let bs := ((ws.drop 4).flatMap (leBytes 4)).take len
  if ws.getD 0 0 = e.type * 65536 + e.version ∧ bs.length = len ∧ ws.getD 2 0 = crc32 bs then
    some (bs, ws.getD 2 0, (ws.getD 3 0).testBit 0)
  else none

/-! ### Headers and copies (R71) -/

/-- The copy read first. -/
def Dev.firstCopy (d : Dev) : Bool := d.on DEV.BOOT_SRC

/-- The directory entry of a TYPE in a copy, the first that lists it. -/
def BootSt.entry (b : BootSt) (copy : Bool) (type : Nat) : Option DirEntry := (if copy then b.dirB else b.dirA).find? (fun e => e.type == type)

/-- The outcome of a copy's header. -/
def BootSt.hdr (b : BootSt) (copy : Bool) : Option Bool := if copy then b.hdrB else b.hdrA

/-- HDR_A_BAD and HDR_B_BAD: the header failed or was not read (R75). -/
def Dev.showHdr (d : Dev) : Dev :=
  (d.flag DEV.HDR_A_BAD 0 0 (d.host.boot.hdrA != some true)).flag DEV.HDR_B_BAD 0 0 (d.host.boot.hdrB != some true)

def Dev.modBoot (d : Dev) (f : BootSt → BootSt) : Dev := { d with host := { d.host with boot := f d.host.boot } }

/-- The next read starts. -/
def Dev.bootRead (d : Dev) (r : BootRead) : Dev :=
  d.modBoot (fun b => { b with
    reading := r
    since := d.timebase })

/-- A record read of a copy failed: the same TYPE is loaded from the other copy, through that copy's header. -/
def Dev.recordBad (d : Dev) (copy : Bool) : Dev :=
  let step := d.rd DEV.BOOT_STEP
  if copy != d.host.boot.use then d.recordMissing step
  else
    match d.host.boot.hdr (!copy) with
    | some true => d.bootRead (.record (!copy))
    | some false => d.recordMissing step
    | none => d.bootRead (.header (!copy))

/-- A header was read; `dir` is its directory where it passes. In step 2 a header that fails gives way to the other copy's; later it was read for one record. -/
def Dev.headerRead (d : Dev) (copy : Bool) (dir : Option (List DirEntry)) : Dev :=
  let ok := dir.isSome
  let es := dir.getD []
  let d1 := (d.modBoot (fun b => if copy then { b with hdrB := some ok, dirB := es } else { b with hdrA := some ok, dirA := es })).showHdr
  if d1.rd DEV.BOOT_STEP = 2 then
    if ok then (d1.modBoot (fun b => { b with use := copy })).bootRecord 3
    else if (d1.host.boot.hdr (!copy)).isNone then d1.bootRead (.header (!copy))
    else d1.recordMissing 3
  else if ok then d1.bootRead (.record copy)
  else d1.recordMissing (d1.rd DEV.BOOT_STEP)

/-- A record read of a copy is done: it is loaded with its source, or the other copy is tried. `sig` is the outcome of the signature
check. -/
def Dev.recordRead (d : Dev) (copy : Bool) (ws : List Nat) (sig : Bool) : Dev :=
  let step := d.rd DEV.BOOT_STEP
  let d1 := d.bootSource step (if copy then 2 else 1)
  match (d.host.boot.entry copy (recordType step)).bind (fun e => recordBody e ws) with
  | some (bs, crc, signed) =>
    (match (if copy = d.firstCopy then d1 else d1.raise .dev 0 1).recordLoad step bs crc (signed && sig) with
     | some e => e
     | none => d.recordBad copy)
  | none => d.recordBad copy

/-! ### The journal and the end of BOOT (R73, R74) -/

/-- The sequence number that the next entry of a type follows. -/
def Dev.journalFrom (d : Dev) (type seq : Nat) : Dev :=
  { d with host := { d.host with journalSeq := FMap.set 0 d.host.journalSeq type seq } }

/-- The sequence number and the payload of an entry that is valid and of a type: 64 to 4,096 bytes, its CRC-32 right (R73). -/
def journalValid (type : Nat) (ws : List Nat) : Option (Nat × List Nat) :=
  let n := ws.length
  if 16 ≤ n ∧ n ≤ 1024 ∧ ws.getD 0 0 = type ∧ ws.getD (n - 1) 0 = crc32Words (ws.take (n - 1)) then
    some (ws.getD 1 0, (ws.drop 2).take (n - 3))
  else none

/-- The valid entry of a type with the highest sequence number (R73). -/
def journalBest (type : Nat) (es : List (Nat × List Nat)) : Option (Nat × List Nat) :=
  (es.filterMap (fun e => journalValid type e.2)).foldl
    (fun b x => match b with | some y => if y.1 < x.1 then some x else some y | none => some x) none

/-- The journal's entries override the records, and the journal goes on behind the last of them (R73, R384, R473). -/
def Dev.journalTake (d : Dev) (es : List (Nat × List Nat)) : Dev :=
  let d0 := { d with host := { d.host with journalAt := match es.getLast? with | some e => e.1 + 4 * e.2.length | none => 0 } }
  let d1 := match journalBest 1 es with
    | some (seq, b :: taps) =>
      let bs := (taps.flatMap (leBytes 4)).take 2048
      if bs.length = 2048 ∧ b < 32 then
        (((bs.zipIdx).foldl (fun (d : Dev) (x : Nat × Nat) => d.setBin (b / 8) (b % 8) x.2 (x.1 % 64)) d0).checkBin (b / 8) (b % 8)).journalFrom 1 seq
      else d0
    | _ => d0
  let d2 := match journalBest 2 es with
    | some (seq, p) => ((d1.wr STARCH.CAL_COUNT 0 0 (p.headD 0)).bootSource 8 3).journalFrom 2 seq
    | none => d1
  match journalBest 3 es with
  | some (seq, p) => (d2.wr PAIR.EPOCH 0 0 (p.headD 0)).journalFrom 3 seq
  | none => d2

/-- CAL entered for power-up calibration: the claim pins are driven to not claiming, links, trunk lanes and engines follow their
registers, the Hamper trains (R74, R356, R386, R439, R478). -/
def Dev.enterCal (d : Dev) : Dev :=
  let d1 := (((({ d with
    mode := .cal
    calFrom := .boot
    starch := { d.starch with nextRead := d.timebase }
    host := { d.host with boot := { d.host.boot with reading := .none } } }).wr DEV.BOOT_STEP 0 0 9).wr STARCH.CAL_BUSY 0 0 1).wr
      (HDR.STATE .hamper) 0 0 1).emit (.claim false true)
  let d2 := ((List.range 32).foldl (fun (d : Dev) k => d.showFE k) d1).followEnables
  let d3 := (List.range 8).foldl (fun (d : Dev) l => d.trunkEnable l false) d2
  let d4 := (List.range 96).foldl (fun (d : Dev) e => d.cond .ndl e 5 (d.ndlState e == 0)) d3
  (d4.takeSources.timingUpdate.updateCaps.showPair).showIdle

/-- FLASH_RECORD_LOADED (R71, R74): the read under way ends with what it found, within its time. -/
def execFlashRecordLoaded (item : BootItem) (s : State) : Host.Outcome State Fault Refusal :=
  shift s (whenDev (fun d => d.mode == .boot) (fun d =>
    let b := d.host.boot
    match b.reading, item with
    | .sfdp, .sfdp => (d.wr DEV.BOOT_STEP 0 0 2).bootRead (.header d.firstCopy)
    | .header c, .header ws =>
      if d.timebase ≤ b.since + msTicks 10 then d.headerRead c (if headerGood ws then some (headerDir ws) else none) else d
    | .record c, .absent => if (b.entry c (recordType (d.rd DEV.BOOT_STEP))).isNone then d.recordBad c else d
    | .record c, .record ws sig =>
      if (b.entry c (recordType (d.rd DEV.BOOT_STEP))).isSome && decide (d.timebase ≤ b.since + msTicks 100) then d.recordRead c ws sig else d
    | .scan, .journal es => (d.journalTake es).enterCal
    | _, _ => d))

/-- FLASH_READ_TIMEOUT (R71): a header read takes longer than 10 ms, or a record longer than 100 ms, and fails. -/
def execFlashReadTimeout (s : State) : Host.Outcome State Fault Refusal :=
  shift s (whenDev (fun d => d.mode == .boot) (fun d =>
    let b := d.host.boot
    match b.reading with
    | .header c => if b.since + msTicks 10 < d.timebase then d.headerRead c none else d
    | .record c => if b.since + msTicks 100 < d.timebase then d.recordBad c else d
    | _ => d))

end Sys2Proof.Machine
end

