-- ==== Sys2Proof/Machine/Control.lean ====
section
/-! DEFINITION. The PCI Express endpoint, the taking of commands, device state commands, flash and journal writes, the REFCLK watchdog
(R26 to R29, R47 to R49, R61 to R67, R73, R98). -/

namespace Sys2Proof.Machine

/-! ### The endpoint (R47 to R49, R453) -/

/-- The host side of the baskets reset: rings disabled, inbound baskets flushed, commands not started discarded, started ones completing
without an item. -/
def Dev.perstReset (d : Dev) : Dev :=
  let d1 := { d with host := { d.host with
    perst := true
    inflight := (d.host.inflight.filter (fun c => c.started)).map (fun c => { c with silent := true })
    cplWait := []
    msixTable := []
    msixPend := [] } }
  let d2 := (List.range 15).foldl (fun (d : Dev) r => d.wr HOSTQ.RING_ENABLE 0 r 0) d1
  ((List.range 14).foldl (fun (d : Dev) i => d.flushBasket i) d2).countInflight

/-- PERST_ASSERT (R49). -/
def execPerstAssert (s : State) : Host.Outcome State Fault Refusal := stay s (whenDev (fun d => !d.host.perst) Dev.perstReset)

/-- PCIE_ENDPOINT_RETURN (R48, R49). -/
def execPcieEndpointReturn (s : State) : Host.Outcome State Fault Refusal :=
  stay s (whenDev (fun d => d.host.perst && !d.host.resetLow) (fun d =>
    ({ d with host := { d.host with perst := false } }).raise .dev 0 4))

/-- PCIE_LINK_CHANGE (R47, R76): the link has trained to 2^`width` lanes at the rate `rate`, or an AER error was logged. -/
def execPcieLinkChange (width : Fin 4) (rate : Fin 5) (aer : Bool) (s : State) : Host.Outcome State Fault Refusal :=
  stay s (whenDev (fun d => !d.host.resetLow && (aer || d.host.pcieWidth != 2 ^ width.val || d.host.pcieRate != rate.val)) (fun d =>
    ({ d with host := { d.host with pcieWidth := 2 ^ width.val, pcieRate := rate.val } }).raise .dev 0 12))

/-! ### Commands taken (R61 to R65) -/

/-- The item at the front of the CMD basket, while fewer than 512 commands are in flight. -/
def Dev.nextItem (d : Dev) : Option (List Nat) :=
  if d.host.inflight.length + d.host.cplWait.length < 512 then (d.basket 0).items.head? else none

/-- A command of an item (R61). -/
def Inflight.ofItem (ws : List Nat) : Inflight := ⟨ws.headD 0 % 4096, ws.headD 0 / 2 ^ 20 % 256, ws.drop 1, false, false⟩

/-- Whether a tag is that of a command in flight, one whose completion waits among them. -/
def Dev.tagUsed (d : Dev) (tag : Nat) : Bool :=
  d.host.inflight.any (fun c => c.tag == tag) || d.host.cplWait.any (fun w => w.headD 0 % 4096 == tag)

/-- An item taken: its slot is free again; a tag in use gives BUSY; an unknown code that need not wait gives WRONG_STATE. -/
def Dev.takeItem (d : Dev) (ws : List Nat) : Dev :=
  let d1 := d.setBasket 0 { d.basket 0 with items := (d.basket 0).items.drop 1 }
  let c := Inflight.ofItem ws
  if d1.tagUsed c.tag then d1.cplPush c .busy false []
  else
    let d2 := ({ d1 with host := { d1.host with inflight := d1.host.inflight ++ [c] } }).countInflight
    if knownCode c.code || d2.waits c then d2 else d2.complete c.tag .wrongState

/-- COMMAND_TAKE (R63). -/
def execCommandTake (s : State) : Host.Outcome State Fault Refusal :=
  unlessMisuse
    (match s.dev.nextItem with | some ws => headMisuse (ws.headD 0) | none => none)
    (stay s (fun d => match d.nextItem with | some ws => d.takeItem ws | none => d))

/-! ### CMD_STATE (R26, R28, R64) -/

/-- Leaving RUN by command: every port stops; a paired active unit drops its claim (R28, R386). -/
def Dev.leaveRun (d : Dev) : Dev :=
  let d1 := (d.driveClaim false).stopAll
  (d1.modPair (fun (x : PairSt) => { x with
    send := none
    ckptForce := []
    ckptDue := false
    jrnOut := []
    take := none
    switch := none
    holds := [] })).enterReady

/-- CMD_STATE(READY) in RUN, while it runs (R28): the ports stop, one being moved after its move; then the state changes and the command
completes. -/
def Dev.leaving (d : Dev) : Option Inflight :=
  if d.mode = .run then d.host.inflight.find? (fun c => c.started && c.code == 13) else none
def Dev.leaveStep (d : Dev) (tag : Nat) : Dev :=
  let d1 := d.stopStill
  if d1.enabledPorts.isEmpty then d1.leaveRun.complete tag .ok else d1

/-- The CMD_STATE that would start now. -/
def Dev.stateCmd (d : Dev) (tag : Nat) : Option Inflight :=
  (d.findCmd tag).filter (fun c => c.code == 13 && !c.started && !d.waits c)

/-- A CMD_STATE with its target: the transitions of R26 that a command causes; any other completes with WRONG_STATE. -/
def Dev.toState (d : Dev) (tag target : Nat) : Dev :=
  match Mode.ofCode target, d.mode with
  | some .reset, _ => (d.internal (some d.timebase) none).emit (.claim false false)
  | some .run, .ready => if d.paired then d.complete tag .wrongState else ((d.start tag).enterMode .run).complete tag .ok
  | some .ready, .run => (d.start tag).leaveStep tag
  | some .ready, .maint => (d.start tag).enterReady.complete tag .ok
  | some .maint, .ready =>
    ((((d.start tag).modPair (fun (x : PairSt) => { x with
      resolving := false
      waitFrom := none })).enterMode .maint).showPair).complete tag .ok
  | _, _ => d.complete tag .wrongState

/-- CMD_STATE (R26, R64). -/
def execCmdState (tag : Fin 4096) (s : State) : Host.Outcome State Fault Refusal :=
  unlessMisuse (match s.dev.stateCmd tag with | some c => if 7 < c.args.getD 0 0 then some .argRange else none | none => none)
    (shift s (fun d => match d.stateCmd tag with | some c => d.toState tag (c.args.getD 0 0) | none => d))

/-! ### Flash writes (R69, R73) -/

/-- The arguments of CMD_FLASH_WRITE: flash address, host address, length in bytes (log entry 33). -/
def flashArgsBad (a : List Nat) : Bool :=
  let addr := a.getD 0 0
  let len := a.getD 3 0
  decide (2 ^ 28 < addr + len) || decide (addr < 0x2100000 ∧ 0x2000000 < addr + max 1 len)

/-- CMD_FLASH_WRITE (R73). -/
def execCmdFlashWrite (tag : Fin 4096) (s : State) : Host.Outcome State Fault Refusal :=
  unlessMisuse (argMisuse s 12 tag flashArgsBad)
    (stay s (fun d => d.startCmd 12 tag (fun c d =>
      if d.host.flashJob.isSome then d.complete tag .busy
      else
        ({ d with host := { d.host with flashJob := some (tag.val, c.args.getD 0 0, c.args.getD 3 0) } }).emit
          (.flashWrite (c.args.getD 0 0) (c.args.getD 3 0)))))

/-- FLASH_WRITE_DONE (R73, R76): `ok` is the outcome of the read-back. -/
def execFlashWriteDone (ok : Bool) (s : State) : Host.Outcome State Fault Refusal :=
  stay s (fun d =>
    match d.host.flashJob with
    | some (tag, _, _) =>
      let d1 := { d with host := { d.host with flashJob := none } }
      (if ok then d1 else d1.raise .dev 0 11).complete tag .ok
    | none => d)

/-- JOURNAL_WRITE_DONE (R73, R76). -/
def execJournalWriteDone (ok : Bool) (s : State) : Host.Outcome State Fault Refusal :=
  stay s (fun d =>
    match d.host.journalJob with
    | _ :: r =>
      let d1 := { d with host := { d.host with journalJob := r } }
      if ok then d1 else d1.raise .dev 0 11
    | [] => d)

/-! ### REFCLK (R98) -/

/-- REFCLK_WATCHDOG (R98, R489): REFCLK_STOP, a FATAL fault, takes the device to SAFE. -/
def execRefclkWatchdog (s : State) : Host.Outcome State Fault Refusal :=
  shift s (whenDev (fun d => !d.host.resetLow) (fun d => (d.fault (srcDev 1)).enterSafe))

end Sys2Proof.Machine
end

