-- ==== Sys2Proof/Machine/Frame.lean ====
section
/-! DEFINITION. System frame and multiframe boundaries: what happens at each (R270, R271, R289, R307, R323, R383, R390, R396, R397, R425,
R470, R493). -/

namespace Sys2Proof.Machine

/-! ### Shadows (R493) -/

/-- A frame boundary passes: a reset that ends by time has ended, boundaries after the end count. -/
def Dev.shadowFrame (d : Dev) : Dev :=
  { d with lint := { d.lint with shadows := d.lint.shadows.map (fun (x : Shadow) =>
      if x.ended then { x with seen := x.seen + 1 }
      else
        match x.ends with
        | some t =>
          if t < d.timebase then { x with
            ended := true
            seen := 1 }
          else if t = d.timebase then { x with ended := true }
          else x
        | none => x) } }

/-! ### The frame boundary -/

/-- Heartbeats counted over the frame that ends (R390). -/
def Dev.heartbeat (d : Dev) : Dev :=
  d.modPair (fun (x : PairSt) => { x with
    hbMiss := if x.hbSeen then 0 else min 8 (x.hbMiss + 1)
    hbSeen := false })

/-- What a paired unit sends and judges in every frame: STATUS, journal entries, the acknowledgement of a standby, the table of R383, the
echo, a programme to follow (R383, R390, R395, R396, R406). -/
def Dev.pairFrame (d : Dev) (b : Nat) : Dev :=
  if !d.paired then d
  else
    let d1 := d.judgeWire.heartbeat.mateSend 0x01 (d.statusWords b)
    let d2 := if d1.pairActive then d1.jrnSend else d1
    let d3 := if d2.mode = .standby then d2.mateSend 0x40 ([d2.pair.jrnHigh] ++ words64 d2.ckptGen ++ [0]) else d2
    let d4 := d3.judgeRole.judgeEcho
    (if d4.mode = .standby then d4.followProg else d4).showPair

/-- What a frame boundary does to ports being moved: copies end, a held programme change begins, stops and starts that waited take effect,
a CMD_STATE(READY) goes on (R13, R28, R34, R36, R39). -/
def Dev.moveFrame (d : Dev) : Dev :=
  let d1 := d.endCopies.beginHeld.lateStops.lateStarts
  match d1.leaving with
  | some c => d1.leaveStep c.tag
  | none => d1

/-- A system frame boundary at `b`. -/
def Dev.frameBoundary (d : Dev) (b : Nat) : Dev :=
  let f := d.frameNum b
  let d0 := { d with sys := { d.sys with nextFrame := b + frameTicks } }
  if d.mode = .reset ∨ d.mode = .boot then
    { d0 with mangle := { d0.mangle with nextWalk := max d0.mangle.nextWalk (b + frameTicks) } }
  else
    let d1 := Dev.echoFollow d0 (d0.pressBoundary f)
    let d2 := if d1.on DEV.FSYNC_OUT_EN then d1.emit .fsyncOut else d1
    ((((d2.takeSources).pairFrame b).starchFrame.shadowFrame).moveFrame).lineBoundary b

/-- SYSTEM_FRAME_BOUNDARY (R270): at SYS_PHASE + 20,480 × j. -/
def execSystemFrameBoundary (s : State) : Host.Outcome State Fault Refusal :=
  shift s (whenDev (fun d => !d.host.resetLow && decide (d.sys.nextFrame ≤ d.timebase)) (fun d => d.frameBoundary d.sys.nextFrame))

/-! ### The multiframe boundary -/

/-- SIG_RX of a failed tributary reads 0 from the boundary on where SIG_FREEZE_EN is 0 (R261). -/
def Dev.sigZero (d : Dev) : Dev :=
  d.enabledPorts.foldl (fun (d : Dev) n =>
    if d.on PORT.SIG_FREEZE_EN n then d
    else (d.tribs n).foldl (fun (d : Dev) t => if d.tribFailed t then d.wr TRIB.SIG_RX t 0 0 else d) d) d

/-- The account of every engine starts anew (R425, R439). -/
def Dev.accountBoundary (d : Dev) : Dev :=
  (List.range 96).foldl (fun (d : Dev) e =>
    let x := d.engine e
    (((d.wr NDL.INSTR_MF e 0 x.executed).wr NDL.ACCT_USED e 0 x.used).wr NDL.ACCT_PEAK e 0 (max (d.rd NDL.ACCT_PEAK e) x.used)).modEngine e
      (fun (y : EngineSt) => { y with
        used := 0
        executed := 0
        spent := false })) d

/-- The record words of the multiframe that ends, of every recording stream, in MIRROR frames of at most 200 streams (R397). -/
def Dev.mirFrame (first : Nat) : Nat → List (Nat × List Nat) → Dev → Dev
  | 0, _, d => d
  | _, [], d => d
  | k + 1, ss, d =>
    let now := ss.take 200
    Dev.mirFrame first k (ss.drop 200) (d.mateSend 0x30 ([first, now.length] ++ now.flatMap (fun x => x.1 :: x.2)))

def Dev.mirrorWords (d : Dev) (mf : Nat) : Dev :=
  if d.pairActive && d.on PAIR.MIRROR_RECORD then
    let ss := d.hamper.streams.filterMap (fun e => e.2.map (fun x =>
      (e.1, (List.range 16).map (fun i => FMap.get recIdle x.words (16 * (mf % 200) + i)))))
    Dev.mirFrame (16 * mf) ss.length ss d
  else d

/-- A system multiframe boundary at `b`; MF_NUM counts on. -/
def Dev.mfBoundary (d : Dev) (b : Nat) : Dev :=
  let mf := d.sys.mfNum
  let d0 := { d with sys := { d.sys with
    mfNum := if d.sys.mfStarted then mf + 1 else 0
    mfStarted := true
    nextMf := b + mfTicks } }
  if d.mode = .reset ∨ d.mode = .boot then d0
  else
    let d1 := (d0.mirrorWords mf).pleatBoundary.sigZero.accountBoundary
    let d2 := d1.enabledPorts.foldl (fun (d : Dev) n => (d.tribLoop n).saveSignal n) d1
    d2.sortBoundary b

/-- SYSTEM_MULTIFRAME_BOUNDARY (R270): at SYS_PHASE + 327,680 × i, with the frame boundary that falls there behind it. -/
def execSystemMultiframeBoundary (s : State) : Host.Outcome State Fault Refusal :=
  stay s (whenDev (fun d => !d.host.resetLow && decide (d.sys.nextMf ≤ d.timebase)) (fun d => d.mfBoundary d.sys.nextMf))

end Sys2Proof.Machine
end

