-- ==== Sys2Proof/Machine/Perf.lean ====
section
/-! DEFINITION. The wall clock, PM seconds and PM snapshots (R75, R263 to R265). -/

namespace Sys2Proof.Machine

/-- PM_SECOND_CLASSIFY (R263): the ended second of every port is classified and its counts join those since the last snapshots. The
boundary before the first WALLCLOCK increment ends no second. -/
def Dev.pmSecondEnd (d : Dev) : Dev :=
  if d.lines.secStart.isNone then d
  else
    let d1 := d.lines.ports.foldl (fun (d : Dev) e => d.pmClassify e.1 PmSec.empty e.2.secNow) d
    let acc := d1.lines.accNew.foldl
      (fun m e => [0, 1].foldl (fun m kind => FMap.set 0 m (kind * 4096 + e.1) (satAdd 32 (FMap.get 0 m (kind * 4096 + e.1)) e.2)) m) d1.lines.acc
    let from' := [0, 1].foldl (fun m kind => FMap.set 0 m kind (FMap.get 0 m kind + 1)) d1.lines.snapFrom
    { d1 with lines := { d1.lines with acc := acc, accNew := [], snapFrom := from', secPrev := true } }

/-- WALLCLOCK advances and a PM second begins at TIMEBASE `t`; the snapshots requested take this boundary (R75, R263, R265). -/
def Dev.wallTick (d : Dev) (t : Nat) : Dev :=
  let wall := (d.rd DEV.WALLCLOCK + 1) % 2 ^ 32
  let d1 := ({ d with host := { d.host with wallAt := d.sys.mfNum } }.wr DEV.WALLCLOCK 0 0 wall).pmSecondEnd
  let ports := d1.lines.ports.map (fun e => (e.1, { e.2 with secOld := e.2.secNow, secNow := PmSec.empty }))
  let d2 := { d1 with lines := { d1.lines with
      ports := ports.foldl (fun m e => FMap.set PortSt.reset m e.1 e.2) []
      secStart := some t
      snaps := d1.lines.snaps.map (fun (x : Snapshot) => if x.at?.isNone then { x with at? := some t, wall := wall } else x) } }
  d2

/-- WALLCLOCK_TICK (R75): at the system multiframe boundary whose MF_NUM is a nonzero multiple of 500. -/
def execWallclockTick (s : State) : Host.Outcome State Fault Refusal :=
  stay s (whenDev
    (fun d => d.mode != .reset && decide (d.sys.mfNum ≠ 0) && d.sys.mfNum % 500 == 0 && d.sys.mfNum != d.host.wallAt)
    (fun d => d.wallTick (d.sys.nextMf - mfTicks)))

/-- The snapshot of a KIND copied: the bank of every port takes the counts since the one before, which restart from 0 (R265). -/
def Dev.snapCopy (d : Dev) (x : Snapshot) : Dev :=
  let f := if x.kind = 0 then PORT.SNAP1 else PORT.SNAP15
  let d1 := (List.range 512).foldl
    (fun d n => (List.range 8).foldl (fun d i => d.wr f n i (FMap.get 0 d.lines.acc ((x.kind * 512 + n) * 8 + i))) d) d
  let seq := FMap.get 0 d1.lines.snapSeq x.kind + 1
  let secs := FMap.get 0 d1.lines.snapFrom x.kind
  let t := x.at?.getD 0
  ({ d1 with lines := { d1.lines with
      acc := d1.lines.acc.filter (fun e => e.1 / 4096 != x.kind)
      snaps := d1.lines.snaps.filter (fun (y : Snapshot) => y.tag != x.tag)
      snapSeq := FMap.set 0 d1.lines.snapSeq x.kind seq
      snapFrom := FMap.set 0 d1.lines.snapFrom x.kind 0 } }).complete x.tag .ok [seq % 2 ^ 32, x.wall, t % 2 ^ 32, t / 2 ^ 32, secs % 2 ^ 32]

/-- CMD_PM_SNAPSHOT (R265). -/
def execCmdPmSnapshot (tag : Fin 4096) (s : State) : Host.Outcome State Fault Refusal :=
  unlessMisuse (argMisuse s 14 tag (fun args => decide (1 < args.headD 0)))
    (stay s (fun d => d.startCmd 14 tag (fun c d =>
      let kind := c.args.headD 0
      if d.lines.snaps.any (fun (x : Snapshot) => x.kind == kind) then d.complete tag .busy
      else { d with lines := { d.lines with snaps := d.lines.snaps ++ [⟨tag, kind, none, 0⟩] } })))

/-- PM_SNAPSHOT_COPY (R265): 48 frames after the boundary every snapshot taken at it is copied. -/
def execPmSnapshotCopy (s : State) : Host.Outcome State Fault Refusal :=
  stay s (fun d =>
    (d.lines.snaps.filter (fun (x : Snapshot) => match x.at? with | some t => d.passed t (48 * frameTicks) | none => false)).foldl
      Dev.snapCopy d)

end Sys2Proof.Machine
end

