-- ==== Sys2Proof/Machine/Dispatch.lean ====
section
/-! DEFINITION. The dispatch of exec: one arm per constructor of Instr, each one call of its meaning. -/

namespace Sys2Proof.Machine

def exec (i : Instr) (s : State) : Host.Outcome State Fault Refusal :=
  match i with
  | .resetNLow => Sys2Proof.Machine.execResetNLow s
  | .resetNRelease => Sys2Proof.Machine.execResetNRelease s
  | .strapFilterEnd pcie test src role => Sys2Proof.Machine.execStrapFilterEnd pcie test src role s
  | .flashRecordLoaded item => Sys2Proof.Machine.execFlashRecordLoaded item s
  | .flashReadTimeout => Sys2Proof.Machine.execFlashReadTimeout s
  | .powerupCalDone data => Sys2Proof.Machine.execPowerupCalDone data s
  | .internalResetEnd => Sys2Proof.Machine.execInternalResetEnd s
  | .perstAssert => Sys2Proof.Machine.execPerstAssert s
  | .pcieEndpointReturn => Sys2Proof.Machine.execPcieEndpointReturn s
  | .pcieLinkChange width rate aer => Sys2Proof.Machine.execPcieLinkChange width rate aer s
  | .registerWrite addr size value => Sys2Proof.Machine.execRegisterWrite addr size value s
  | .timebaseLoRead => Sys2Proof.Machine.execTimebaseLoRead s
  | .softResetWrite addr value => Sys2Proof.Machine.execSoftResetWrite addr value s
  | .softResetDone addr => Sys2Proof.Machine.execSoftResetDone addr s
  | .cmemHalfWrite page entry high value => Sys2Proof.Machine.execCmemHalfWrite page entry high value s
  | .vecAckWrite value => Sys2Proof.Machine.execVecAckWrite value s
  | .msixUnmask vector => Sys2Proof.Machine.execMsixUnmask vector s
  | .cmdSlotWrite word value => Sys2Proof.Machine.execCmdSlotWrite word value s
  | .commandTake => Sys2Proof.Machine.execCommandTake s
  | .cmdPageSwap tag => Sys2Proof.Machine.execCmdPageSwap tag s
  | .cmdPortStart tag => Sys2Proof.Machine.execCmdPortStart tag s
  | .cmdPortStop tag => Sys2Proof.Machine.execCmdPortStop tag s
  | .cmdProgramme tag => Sys2Proof.Machine.execCmdProgramme tag s
  | .vddCoreSettled millivolt => Sys2Proof.Machine.execVddCoreSettled millivolt s
  | .progTapWalkStep => Sys2Proof.Machine.execProgTapWalkStep s
  | .progParamApply => Sys2Proof.Machine.execProgParamApply s
  | .avsTimeout => Sys2Proof.Machine.execAvsTimeout s
  | .avsRead reading => Sys2Proof.Machine.execAvsRead reading s
  | .cmdCalRun tag => Sys2Proof.Machine.execCmdCalRun tag s
  | .calRunDone data => Sys2Proof.Machine.execCalRunDone data s
  | .cmdBist tag => Sys2Proof.Machine.execCmdBist tag s
  | .cmdCkptForce tag => Sys2Proof.Machine.execCmdCkptForce tag s
  | .cmdSwitchover tag => Sys2Proof.Machine.execCmdSwitchover tag s
  | .cmdRecExtract tag => Sys2Proof.Machine.execCmdRecExtract tag s
  | .extractDone tag ue => Sys2Proof.Machine.execExtractDone tag ue s
  | .cmdPlay tag => Sys2Proof.Machine.execCmdPlay tag s
  | .playStart tag => Sys2Proof.Machine.execPlayStart tag s
  | .cmdPlaceApply tag => Sys2Proof.Machine.execCmdPlaceApply tag s
  | .cmdFlashWrite tag => Sys2Proof.Machine.execCmdFlashWrite tag s
  | .flashWriteDone ok => Sys2Proof.Machine.execFlashWriteDone ok s
  | .journalWriteDone ok => Sys2Proof.Machine.execJournalWriteDone ok s
  | .cmdState tag => Sys2Proof.Machine.execCmdState tag s
  | .cmdPmSnapshot tag => Sys2Proof.Machine.execCmdPmSnapshot tag s
  | .pmSnapshotCopy => Sys2Proof.Machine.execPmSnapshotCopy s
  | .maintAutoExit => Sys2Proof.Machine.execMaintAutoExit s
  | .systemFrameBoundary => Sys2Proof.Machine.execSystemFrameBoundary s
  | .systemMultiframeBoundary => Sys2Proof.Machine.execSystemMultiframeBoundary s
  | .wallclockTick => Sys2Proof.Machine.execWallclockTick s
  | .downstreamMfBoundary port => Sys2Proof.Machine.execDownstreamMfBoundary port s
  | .stageFinish port stage => Sys2Proof.Machine.execStageFinish port stage s
  | .portFrameAbandon port rinsing => Sys2Proof.Machine.execPortFrameAbandon port rinsing s
  | .portMoveSwitch port => Sys2Proof.Machine.execPortMoveSwitch port s
  | .contextCopyDone port => Sys2Proof.Machine.execContextCopyDone port s
  | .laneResetStart lane => Sys2Proof.Machine.execLaneResetStart lane s
  | .laneResetEnd lane => Sys2Proof.Machine.execLaneResetEnd lane s
  | .overrunAdviceExpire => Sys2Proof.Machine.execOverrunAdviceExpire s
  | .portMissWindowClear port => Sys2Proof.Machine.execPortMissWindowClear port s
  | .jlaneEnableWrite lane value => Sys2Proof.Machine.execJlaneEnableWrite lane value s
  | .linkSyncDone link => Sys2Proof.Machine.execLinkSyncDone link s
  | .linkSyncTimeout link => Sys2Proof.Machine.execLinkSyncTimeout link s
  | .linkRetry link => Sys2Proof.Machine.execLinkRetry link s
  | .linkDown link why => Sys2Proof.Machine.execLinkDown link why s
  | .jesdCrc12Error lane => Sys2Proof.Machine.execJesdCrc12Error lane s
  | .sysrefEdge link frac => Sys2Proof.Machine.execSysrefEdge link frac s
  | .sampleFill port first count => Sys2Proof.Machine.execSampleFill port first count s
  | .afeSpiDone master rx => Sys2Proof.Machine.execAfeSpiDone master rx s
  | .fsyncInEdge lowBefore highAfter => Sys2Proof.Machine.execFsyncInEdge lowBefore highAfter s
  | .fsyncPeriodTimeout => Sys2Proof.Machine.execFsyncPeriodTimeout s
  | .refclkCountWindow refTicks jrefTicks => Sys2Proof.Machine.execRefclkCountWindow refTicks jrefTicks s
  | .refclkWatchdog => Sys2Proof.Machine.execRefclkWatchdog s
  | .gpioInputChange pin level => Sys2Proof.Machine.execGpioInputChange pin level s
  | .portGainWrite word value => Sys2Proof.Machine.execPortGainWrite word value s
  | .gainReadback port code settled => Sys2Proof.Machine.execGainReadback port code settled s
  | .gainReadbackTimeout port => Sys2Proof.Machine.execGainReadbackTimeout port s
  | .gainAdviceUpdate port => Sys2Proof.Machine.execGainAdviceUpdate port s
  | .afecHoldWrite master value => Sys2Proof.Machine.execAfecHoldWrite master value s
  | .spiHeld master => Sys2Proof.Machine.execSpiHeld master s
  | .afecRawGo value => Sys2Proof.Machine.execAfecRawGo value s
  | .rawSpiDone rx => Sys2Proof.Machine.execRawSpiDone rx s
  | .chirpSymbolRx port ctx => Sys2Proof.Machine.execChirpSymbolRx port ctx s
  | .offerActWaitExpire port => Sys2Proof.Machine.execOfferActWaitExpire port s
  | .offerUpTimeout port => Sys2Proof.Machine.execOfferUpTimeout port s
  | .burstHeaderRx port fork => Sys2Proof.Machine.execBurstHeaderRx port fork s
  | .burstPayloadRx port fork => Sys2Proof.Machine.execBurstPayloadRx port fork s
  | .burstMissed port window => Sys2Proof.Machine.execBurstMissed port window s
  | .joinTimeout port stn => Sys2Proof.Machine.execJoinTimeout port stn s
  | .stnLost port stn => Sys2Proof.Machine.execStnLost port stn s
  | .stnDrop port stn => Sys2Proof.Machine.execStnDrop port stn s
  | .stnLeave port stn => Sys2Proof.Machine.execStnLeave port stn s
  | .pamPhaseEnd port => Sys2Proof.Machine.execPamPhaseEnd port s
  | .stationToneDetected port => Sys2Proof.Machine.execStationToneDetected port s
  | .pamToneTimeout port => Sys2Proof.Machine.execPamToneTimeout port s
  | .stationMarkerAccepted port back => Sys2Proof.Machine.execStationMarkerAccepted port back s
  | .markerWindowExpire port => Sys2Proof.Machine.execMarkerWindowExpire port s
  | .pamUpTimeout port => Sys2Proof.Machine.execPamUpTimeout port s
  | .warmTimeout port => Sys2Proof.Machine.execWarmTimeout port s
  | .forceHuntWrite port value => Sys2Proof.Machine.execForceHuntWrite port value s
  | .dccMessageRx port stn => Sys2Proof.Machine.execDccMessageRx port stn s
  | .sdWindowEnd port stn => Sys2Proof.Machine.execSdWindowEnd port stn s
  | .sfWindowEnd port stn => Sys2Proof.Machine.execSfWindowEnd port stn s
  | .defectFreezeEnd port stn => Sys2Proof.Machine.execDefectFreezeEnd port stn s
  | .labelRecheck port => Sys2Proof.Machine.execLabelRecheck port s
  | .txRdiStop port => Sys2Proof.Machine.execTxRdiStop port s
  | .sourceQualified entry => Sys2Proof.Machine.execSourceQualified entry s
  | .tstateLocked => Sys2Proof.Machine.execTstateLocked s
  | .tstateUnlocked => Sys2Proof.Machine.execTstateUnlocked s
  | .alignJump => Sys2Proof.Machine.execAlignJump s
  | .holdValidSet => Sys2Proof.Machine.execHoldValidSet s
  | .slipBufferFrame buffer => Sys2Proof.Machine.execSlipBufferFrame buffer s
  | .mangleWalkStart ticks late => Sys2Proof.Machine.execMangleWalkStart ticks late s
  | .pageCopyDone => Sys2Proof.Machine.execPageCopyDone s
  | .trunkFrameRx lane words => Sys2Proof.Machine.execTrunkFrameRx lane words s
  | .trunkCdrChange lane lock => Sys2Proof.Machine.execTrunkCdrChange lane lock s
  | .tlosClear lane => Sys2Proof.Machine.execTlosClear lane s
  | .tsdWindowEnd lane => Sys2Proof.Machine.execTsdWindowEnd lane s
  | .trunkEnableWrite lane value => Sys2Proof.Machine.execTrunkEnableWrite lane value s
  | .holdOffExpire sel => Sys2Proof.Machine.execHoldOffExpire sel s
  | .wtrExpire sel => Sys2Proof.Machine.execWtrExpire sel s
  | .protCmdClear sel value => Sys2Proof.Machine.execProtCmdClear sel value s
  | .protCmdLo sel value => Sys2Proof.Machine.execProtCmdLo sel value s
  | .protCmdFs sel value => Sys2Proof.Machine.execProtCmdFs sel value s
  | .protCmdMsProt sel value => Sys2Proof.Machine.execProtCmdMsProt sel value s
  | .protCmdMsWork sel value => Sys2Proof.Machine.execProtCmdMsWork sel value s
  | .ddrTrainingDone fails => Sys2Proof.Machine.execDdrTrainingDone fails s
  | .recordPeriodBoundary => Sys2Proof.Machine.execRecordPeriodBoundary s
  | .recSizeWrite value => Sys2Proof.Machine.execRecSizeWrite value s
  | .winBaseWrite value => Sys2Proof.Machine.execWinBaseWrite value s
  | .winRemapDone => Sys2Proof.Machine.execWinRemapDone s
  | .apertureRead off len ue => Sys2Proof.Machine.execApertureRead off len ue s
  | .apertureWrite off data => Sys2Proof.Machine.execApertureWrite off data s
  | .lookupGoWrite value => Sys2Proof.Machine.execLookupGoWrite value s
  | .lookupDone => Sys2Proof.Machine.execLookupDone s
  | .delayChangeApply => Sys2Proof.Machine.execDelayChangeApply s
  | .clipCommitWrite value => Sys2Proof.Machine.execClipCommitWrite value s
  | .clipCheckDone => Sys2Proof.Machine.execClipCheckDone s
  | .ddrCorrectedError channel => Sys2Proof.Machine.execDdrCorrectedError channel s
  | .ddrUncorrectableError la => Sys2Proof.Machine.execDdrUncorrectableError la s
  | .scrubPassDone => Sys2Proof.Machine.execScrubPassDone s
  | .resolveWrite value => Sys2Proof.Machine.execResolveWrite value s
  | .claimNowWrite value => Sys2Proof.Machine.execClaimNowWrite value s
  | .resolveWaitExpire => Sys2Proof.Machine.execResolveWaitExpire s
  | .claimPinChange p n => Sys2Proof.Machine.execClaimPinChange p n s
  | .claimWirePersist => Sys2Proof.Machine.execClaimWirePersist s
  | .peerUnclaimed1ms => Sys2Proof.Machine.execPeerUnclaimed1ms s
  | .mateLaneChange lane up => Sys2Proof.Machine.execMateLaneChange lane up s
  | .mateLinkDownTimeout => Sys2Proof.Machine.execMateLinkDownTimeout s
  | .statusRx words => Sys2Proof.Machine.execStatusRx words s
  | .fatalFrameRx words => Sys2Proof.Machine.execFatalFrameRx words s
  | .ckptDataRx crcOk gen data => Sys2Proof.Machine.execCkptDataRx crcOk gen data s
  | .ckptCommitRx words => Sys2Proof.Machine.execCkptCommitRx words s
  | .journalRx words => Sys2Proof.Machine.execJournalRx words s
  | .mirrorRx crcOk seq data => Sys2Proof.Machine.execMirrorRx crcOk seq data s
  | .ackRx words => Sys2Proof.Machine.execAckRx words s
  | .nakRx words => Sys2Proof.Machine.execNakRx words s
  | .handoverRx words => Sys2Proof.Machine.execHandoverRx words s
  | .handoverReqRx words => Sys2Proof.Machine.execHandoverReqRx words s
  | .heartbeatLoss => Sys2Proof.Machine.execHeartbeatLoss s
  | .checkpointStart => Sys2Proof.Machine.execCheckpointStart s
  | .journalResendTimeout => Sys2Proof.Machine.execJournalResendTimeout s
  | .handoverTimeout => Sys2Proof.Machine.execHandoverTimeout s
  | .echoGraceExpire => Sys2Proof.Machine.execEchoGraceExpire s
  | .peerLostTimeout => Sys2Proof.Machine.execPeerLostTimeout s
  | .needleDispatch engine => Sys2Proof.Machine.execNeedleDispatch engine s
  | .alu engine => Sys2Proof.Machine.execAlu engine s
  | .jr engine => Sys2Proof.Machine.execJr engine s
  | .jalr engine => Sys2Proof.Machine.execJalr engine s
  | .addi engine => Sys2Proof.Machine.execAddi engine s
  | .subi engine => Sys2Proof.Machine.execSubi engine s
  | .andi engine => Sys2Proof.Machine.execAndi engine s
  | .ori engine => Sys2Proof.Machine.execOri engine s
  | .xori engine => Sys2Proof.Machine.execXori engine s
  | .cmpi engine => Sys2Proof.Machine.execCmpi engine s
  | .shli engine => Sys2Proof.Machine.execShli engine s
  | .shri engine => Sys2Proof.Machine.execShri engine s
  | .asri engine => Sys2Proof.Machine.execAsri engine s
  | .movi engine => Sys2Proof.Machine.execMovi engine s
  | .lui engine => Sys2Proof.Machine.execLui engine s
  | .tsti engine => Sys2Proof.Machine.execTsti engine s
  | .ld engine => Sys2Proof.Machine.execLd engine s
  | .st engine => Sys2Proof.Machine.execSt engine s
  | .xch engine => Sys2Proof.Machine.execXch engine s
  | .b engine => Sys2Proof.Machine.execB engine s
  | .call engine => Sys2Proof.Machine.execCall engine s
  | .wait engine => Sys2Proof.Machine.execWait engine s
  | .brem engine => Sys2Proof.Machine.execBrem engine s
  | .brk engine => Sys2Proof.Machine.execBrk engine s
  | .illegalInstruction engine => Sys2Proof.Machine.execIllegalInstruction engine s
  | .needleTimerFire engine timer => Sys2Proof.Machine.execNeedleTimerFire engine timer s
  | .engineEnableWrite engine value => Sys2Proof.Machine.execEngineEnableWrite engine value s
  | .matrixRequest master target id beats => Sys2Proof.Machine.execMatrixRequest master target id beats s
  | .pushHeadWrite basket value => Sys2Proof.Machine.execPushHeadWrite basket value s
  | .pushDataWrite basket value => Sys2Proof.Machine.execPushDataWrite basket value s
  | .basketFlushWrite basket value => Sys2Proof.Machine.execBasketFlushWrite basket value s
  | .ringCiWrite ring value => Sys2Proof.Machine.execRingCiWrite ring value s
  | .ringEnableWrite ring value => Sys2Proof.Machine.execRingEnableWrite ring value s
  | .chkCfgWrite unit value => Sys2Proof.Machine.execChkCfgWrite unit value s
  | .chkDataWrite unit value => Sys2Proof.Machine.execChkDataWrite unit value s
  | .chkHiWrite unit pair value => Sys2Proof.Machine.execChkHiWrite unit pair value s
  | .chkEntryDone unit => Sys2Proof.Machine.execChkEntryDone unit s
  | .chkResultLoRead unit => Sys2Proof.Machine.execChkResultLoRead unit s
  | .chkAliveSeenWrite unit value => Sys2Proof.Machine.execChkAliveSeenWrite unit value s
  | .sensorReading readings tput => Sys2Proof.Machine.execSensorReading readings tput s
  | .calRetryPass port items tone => Sys2Proof.Machine.execCalRetryPass port items tone s
  | .lintWindow bad => Sys2Proof.Machine.execLintWindow bad s
  | .shadowClose => Sys2Proof.Machine.execShadowClose s
  | .injKeyWrite value => Sys2Proof.Machine.execInjKeyWrite value s
  | .injCtrlWrite value => Sys2Proof.Machine.execInjCtrlWrite value s
  | .bistItemDone sig => Sys2Proof.Machine.execBistItemDone sig s
  | .rollingStep => Sys2Proof.Machine.execRollingStep s
  | .matrixResponse master target id => Sys2Proof.Machine.execMatrixResponse master target id s
  | .ckptSendDone => Sys2Proof.Machine.execCkptSendDone s

end Sys2Proof.Machine
end

