-- ==== Sys2Proof/Machine/Step.lean ====
section
/-! DEFINITION. One step: the command at the front of the queue, or one REFCLK tick when none waits. -/

namespace Sys2Proof.Machine

/-- One REFCLK tick: TIMEBASE counts on, modulo 2^64, while RESET_N is released (R15). -/
def Dev.tick (d : Dev) : Dev := if d.host.resetLow then d else { d with timebase := (d.timebase + 1) % 2 ^ 64 }

/-- One step. On an empty queue one tick of REFCLK passes (log entry 1). -/
def step (s : State) : Host.Outcome State Fault Refusal :=
  match s.pending with
  | [] => .next { s with dev := s.dev.tick }
  | c :: rest => exec c { s with pending := rest }

/-- The state with the command that a word spells at the front of its queue; unchanged where the word spells none. -/
def State.withFetchWord (s : State) (nbits w : Nat) : State :=
  match decodeTableWord nbits w with
  | some c => { s with pending := c :: s.pending }
  | none => s

end Sys2Proof.Machine
end

