-- ==== Sys2Proof/Machine/View.lean ====
section
/-! DEFINITION. What a host read of a register word shows (R10, R16, R42 to R54, R75): the stored fields, and the fields that follow from
the rest of the state. -/

namespace Sys2Proof.Machine

/-- Truth as a bit. -/
def bit (b : Bool) : Nat := if b then 1 else 0

/-- A 16- or 32-bit register value that saturates. -/
def upTo (w n : Nat) : Nat := min n (2 ^ w - 1)

/-- The word of DEV offset 0x0E4: the selector of the entry that DEV.QUERY_INDEX names, after the last walk (R352). -/
def Dev.queryView (d : Dev) : Nat := FMap.get 0 d.mangle.query (d.rd DEV.QUERY_INDEX)

/-- Whole ticks as a count of units. -/
def Dev.since (d : Dev) (t : Option Nat) (unit : Nat) : Nat := match t with | some a => (d.timebase - a) / unit | none => 0

/-- DEV fields that follow from the state (R43, R44, R57, R75, R295, R352). -/
def Dev.devView (d : Dev) (f : Field) (idx : Nat) : Option Nat :=
  if f = DEV.STATE then some d.mode.code
  else if f = DEV.TIMEBASE_LO then some (d.timebase % 2 ^ 32)
  else if f = DEV.LOAD_PCT then some (d.loadUnits * 100 / 16384)
  else if f = DEV.LOAD_UNITS then some d.loadUnits
  else if f = DEV.LANE_LOAD then some (d.laneLoad idx)
  else if f = DEV.PORTS then some (d.lanePorts idx).length
  else if f = DEV.MISS_WINDOW then some (upTo 8 (d.laneMisses idx).length)
  else if f = DEV.EVT_TOP_LO then some (d.evtTop % 2 ^ 32)
  else if f = DEV.EVT_TOP_HI then some (d.evtTop / 2 ^ 32)
  else if f = DEV.EVT_SUMMARY then some (d.evtSummary idx)
  else if f = DEV.HOLDOVER_SEC then some (upTo 16 (d.since d.sys.holdSince (secTicks 1)))
  else if f = DEV.Q_KIND then some (d.queryView / 2 ^ 30)
  else if f = DEV.Q_SELECTED then some (d.queryView / 2 ^ 29 % 2)
  else if f = DEV.Q_HOLDOFF_RUN then some (d.queryView / 2 ^ 28 % 2)
  else if f = DEV.Q_TOP_REQ then some (d.queryView / 2 ^ 24 % 16)
  else if f = DEV.Q_WTR_LEFT then some (d.queryView % 2 ^ 16)
  else none

/-- The fields of a port group that only a working port shows (R349). -/
def Field.ofGroup (f : Field) : Bool :=
  [PORT.TOP_REQ, PORT.LOCAL_REQ, PORT.REMOTE_REQ, PORT.SELECTED, PORT.MISMATCH, PORT.WTR_LEFT, PORT.RX_F4, PORT.RX_F5, PORT.TX_F4,
   PORT.TX_F5, PORT.SWITCHES, PORT.CMD_REFUSED, PORT.MISMATCH_COUNT].contains f

/-- PORT fields that follow from the state (R54, R114, R125, R134, R161, R166, R188, R210, R242, R343, R349). -/
def Dev.portView (d : Dev) (f : Field) (n idx : Nat) : Option Nat :=
  if f.ofGroup && !d.on PORT.PROT_EN n then some 0
  else if f = PORT.PROT_VALID then some (bit (d.groupValid n))
  else if f = HDR.STATE .port then some (d.portMode n).code
  else if f = PORT.CFG_VALID then some (bit (d.cfgValid n))
  else if f = PORT.N_SLOTS then some (if d.cfgValid n then (d.chirpGeom n).slots else 0)
  else if f = PORT.INFO_BITS then some (d.chirpGeom n).info
  else if f = PORT.DET_THRESH then some (d.detThresh n)
  else if f = PORT.COLL_ACTIVE then some (bit (d.forkMode n))
  else if f = PORT.WINDOW_SYMS then some (d.windowSyms n)
  else if f = PORT.BURST_SYMS then some (d.burstSyms n)
  else if f = PORT.TIMING_MODE then some (d.timingMode n)
  else if f = PORT.PAM_CFG_VALID then some (bit (d.pamValid n))
  else if f = PORT.PAM_SLOTS then some (if d.pamValid n then (d.pamGeom n).slots else 0)
  else if f = PORT.PAM_INFO_BITS then some (d.pamGeom n).info
  else if f = PORT.LOF_IN_WINDOW then some (min 15 (d.lofRecent n).length)
  else if f = PORT.EC_TAPS then some (if d.prog = 0 then 128 else 192)
  else if f = PORT.DARN_DELAY then some (if d.enabled n then d.darnDelay n else 0)
  else if f = PORT.TB_DEPTH then some d.traceback
  else if f = PORT.LAYER_SNR then some (if idx < 2 ^ d.rd PORT.D_CODE n then d.rd f n idx else 0)
  else if f = PORT.THRESH then some (if idx < 2 ^ d.pamBits n - 1 then d.rd f n idx else 0)
  else if f = PORT.RX_TRACE then
    some ((List.range 4).foldl (fun v b => v + (d.stn n (d.rd PORT.TRACE_SEL n)).lab.accepted.getD (4 * idx + b) 0 * 2 ^ (8 * b)) 0)
  else if f = PORT.TX_F4 then some (if d.groupValid n then (d.apsWords n).1 else 0)
  else if f = PORT.TX_F5 then some (if d.groupValid n then (d.apsWords n).2 else 0)
  else none

/-- Whether a field of a JLANE page is a link field: offsets 0x080 to 0x090 (R107). -/
def Field.ofLink (f : Field) : Bool := f.page == .jlane && decide (8 * 0x080 ≤ f.bit ∧ f.bit < 8 * 0x094)

/-- The fields of the other pages that follow from the state; link fields read 0 on other pages than the link page (R107, R352, R380, R410, R439, R481, R504). -/
def Dev.blockView (d : Dev) (f : Field) (inst idx : Nat) : Option Nat :=
  if f = TRIB.USERS then
    some (upTo 8 (d.selEntries.filter (fun c => d.entryCtx c == some inst)).length)
  else if f = HAMPER.CAPACITY_GIB then some d.capacityGib
  else if f = HAMPER.DATA_RATE then some (if d.rd HAMPER.DPC = 2 then 4400 else 4800)
  else if f = HAMPER.DELAY then some (FMap.get 0 d.hamper.dlySet (d.rd HAMPER.DLY_INDEX))
  else if f = HAMPER.DLY_USED then some (bit ((d.pageEntries d.activePage).any (fun c => c.mode == 6 && c.srcB % 4096 == d.rd HAMPER.DLY_INDEX)))
  else if f = PAIR.CKPT_AGE then some (upTo 32 (d.since d.pair.ageFrom (msTicks 1)))
  else if f = PAIR.OWN_HEALTH then some (if d.paired then d.health else 0)
  else if f = PAIR.RESOLVE then some (bit (d.on PAIR.RESOLVE && d.pair.resolving))
  else if f = NDL.PORTS then some (d.enginePorts inst).length
  else if f = NDL.QUEUE then some (d.engine inst).queue.length
  else if f = STARCH.CAL_BUSY then
    some (bit (d.on STARCH.CAL_BUSY || !d.starch.window.isEmpty || !d.starch.passes.isEmpty || !d.starch.ramps.isEmpty))
  else if f = STARCH.Q_SUSPECT then some (bit (FMap.get false d.starch.suspect (d.rd STARCH.ELEM_QUERY)))
  else if f = STARCH.Q_SAT then some (bit (FMap.get false d.starch.sat (d.rd STARCH.ELEM_QUERY)))
  else if f = STARCH.Q_REGION then some (d.rd STARCH.ELEM_QUERY / 128)
  else if f = STARCH.Q_TARGET then some (FMap.get 0 d.starch.target (d.rd STARCH.ELEM_QUERY))
  else if f = STARCH.Q_TAP then some (d.tap (d.rd STARCH.ELEM_QUERY))
  else if f.ofLink && !d.isLinkPage inst then some 0
  else if f = LINT.PRESENT then
    some ((List.range 32).foldl (fun v b => let x := d.src (32 * idx + b); if x.drives || x.failed then v + 2 ^ b else v) 0)
  else none

/-- The value a read shows of a field element. -/
def Dev.view (d : Dev) (f : Field) (inst idx : Nat) : Nat :=
  let v := match f.page with
    | .dev => d.devView f idx
    | .port => d.portView f inst idx
    | _ => d.blockView f inst idx
  v.getD (d.rd f inst idx)

/-- The number of a page instance in its header (R54). -/
def instanceOf (p : Page) (inst : Nat) : Nat := match p with | .lint1 => 1 | .lint2 => 2 | _ => inst

/-- The TYPE of a page in its header (R53, R54). -/
def typeOf (p : Page) : Nat := match p with | .lint1 | .lint2 => 2 | _ => p.code

/-- A word of a page or context; before BOOT has finished, pages other than DEV show their reset values (R48). -/
def Dev.pageRead (d : Dev) (p : Page) (inst off : Nat) : Nat :=
  if hasHeader p && off == 0 then typeOf p * 65536 + instanceOf p inst
  else if hasHeader p && off == 4 then d.host.siRev * 256 + 1
  else
    (fieldsOf p).foldl (fun v f => match f.access with
      | .wo => v
      | _ => (f.inWord off).foldl (fun v i => v + (if d.writable p then d.view f inst i else f.resetAt i) * 2 ^ f.lsb i) v) 0

/-- A 32-bit read of BAR0; write-only regions and reserved offsets read 0 (R10, R11). -/
def Dev.busRead (d : Dev) (a : Nat) : Nat :=
  match region a with
  | .page p inst off => d.pageRead p inst off
  | .msixTable w => d.msixWord w
  | .msixPba w => (List.range 32).foldl (fun v b => if FMap.get false d.host.msixPend (32 * w + b) then v + 2 ^ b else v) 0
  | .cmem g i high => if d.writable .mangle then d.cmemWord g i / (if high then 2 ^ 32 else 1) % 2 ^ 32 else if high then 0 else 15
  | .ndlData e i => if d.writable .ndl then d.rd NDL.DATA e i else 0
  | .ndlWin e i => if d.writable .ndl then d.ndlWinRead e i else 0
  | .cmd _ | .reserved => 0

/-- A read of BAR0 as the host makes it: `size` is 0 to 3 for 8, 16, 32 and 64 bits. 8 and 16 bits return the addressed bytes; 64 bits are
two 32-bit reads, the lower address first; a read of TIMEBASE_LO latches the upper half before the second (R16, R50). -/
def Dev.hostRead (d : Dev) (a size : Nat) : List Nat × Dev :=
  let word := fun (d : Dev) (a : Nat) =>
    let x := d.busRead a
    (x, match region a with | .page .dev _ 0x050 => d.wr DEV.TIMEBASE_HI 0 0 (d.timebase / 2 ^ 32) | _ => d)
  if size < 3 then
    let (w, d1) := word d (a / 4 * 4)
    (((leBytes 4 w).drop (if size = 2 then 0 else a % 4)).take (2 ^ size), d1)
  else
    let (lo, d1) := word d (a / 8 * 8)
    let (hi, d2) := word d1 (a / 8 * 8 + 4)
    (leBytes 4 lo ++ leBytes 4 hi, d2)

/-! ### Configuration space (R47, R48) -/

/-- The PCI Express capabilities of R47. -/
inductive PciCap where
  | pcie | powerD0D3hot | msix (vectors : Nat) | aer | serial
  deriving DecidableEq, Repr

/-- What the configuration space of the function shows (R47); its layout is PCI Express's. -/
structure PciConfig where
  vendor     : Nat
  device     : Nat
  subsystem  : Nat
  classCode  : Nat
  revision   : Nat
  bars       : List (Nat × Bool × Nat)   -- BAR number, prefetchable, bytes; each is 64-bit
  caps       : List PciCap
  maxPayload : Nat                       -- bytes
  tagBits    : Nat
  lanes      : Nat
  rate       : Nat
  serial     : Nat
  deriving DecidableEq, Repr

/-- The configuration space; none while PERST# holds the endpoint in reset. It answers from boot ROM whatever the device state (R47,
R48). The Device Serial Number is the unit's identity, or 0 without a PAIR_IDENTITY record. -/
def Dev.pciConfig (d : Dev) : Option PciConfig :=
  if d.host.perst then none
  else some
    { vendor := Config.vendorId, device := 0x9640, subsystem := 0x9640 + d.rd DEV.PCIE_ID, classCode := 0x118000, revision := d.host.siRev
      bars := [(0, false, 2 ^ 26), (2, true, 2 ^ 30)], caps := [.pcie, .powerD0D3hot, .msix 128, .aer, .serial], maxPayload := 512
      tagBits := 10, lanes := d.host.pcieWidth, rate := d.host.pcieRate, serial := d.identityUnit }

end Sys2Proof.Machine
end

