-- ==== Sys2Proof/WellFormed.lean ====
section
/-! DEFINITION. Well-formed commands: the data a command brings lies within the ranges the spec gives it. exec answers for every command;
statements take these bounds where a rule needs them. -/

namespace Sys2Proof

/-- Whether a number lies in the range of `w` bits in two's complement. -/
def signedIn (w : Nat) (x : Int) : Bool := decide (-(2 : Int) ^ (w - 1) ≤ x ∧ x < (2 : Int) ^ (w - 1))

/-- Port items as R465 codes them. -/
def PortItems.wf (x : PortItems) : Bool :=
  signedIn 10 x.floor && decide (0 ≤ x.noise ∧ x.noise < 256) && x.ofs.length == 7 && x.ofs.all (signedIn 10) && signedIn 10 x.dc

/-- Calibration data: taps of 0 to 63, ports of the device, 16 lanes (R465, R466, R476). -/
def CalData.wf (c : CalData) : Bool :=
  c.elemDflt.all (· ≤ 63) && c.elems.all (fun e => decide (e.1 < 2048) && e.2.all (· ≤ 63)) &&
  c.ports.all (fun p => decide (p.1 < 512) && p.2.all PortItems.wf) && signedIn 10 c.tj && c.tput.length == 16

/-- What a stage brings: 12-bit sample words (R84), at most as many as the link's LEMC count has passed. -/
def StageData.wf : StageData → Bool
  | .rinse index samples => samples.all (· < 4096) && decide (samples.length ≤ index + 1)
  | .spin | .wring | .darn | .hem | .label | .slip | .pleat | .fold | .encoder | .transmit => true

/-- The words of a mate frame: a header of two words, at most 4,099 words of payload, the CRC-32 (R388). -/
def mateWordsWf (words : List Nat) : Bool := words.all (· < 2 ^ 32) && decide (3 ≤ words.length ∧ words.length ≤ 4102)

/-- What a read of the flash found (R70, R73): 32-bit words; entries within the 1 MiB of the journal. -/
def BootItem.wf : BootItem → Bool
  | .header words | .record words _ => words.all (· < 2 ^ 32)
  | .journal entries => entries.all (fun e => decide (e.1 + 4 * e.2.length ≤ 2 ^ 20) && e.2.all (· < 2 ^ 32))
  | .sfdp | .absent => true

open Machine in
/-- A well-formed command. -/
def Instr.wf : Instr → Bool
  | .flashRecordLoaded item => item.wf
  | .powerupCalDone data => data.wf
  | .vddCoreSettled mv => decide (mv < 1024)
  | .avsRead reading => match reading with | some v => decide (v < 1024) | none => true
  | .calRunDone data => data.wf
  | .stageFinish _ stage => stage.wf
  | .afeSpiDone _ rx => decide (rx < 2 ^ 24)
  | .gainReadback _ code _ => decide (code < 64)
  | .rawSpiDone rx => decide (rx < 2 ^ 24)
  | .trunkFrameRx _ words => words.all (· < 1024) && (words.length == 16384 || words.length == 65536)
  | .apertureWrite _ data => decide (0 < data.length ∧ data.length ≤ 4096)
  | .statusRx words | .fatalFrameRx words | .ckptCommitRx words | .journalRx words | .ackRx words | .nakRx words | .handoverRx words
  | .handoverReqRx words => mateWordsWf words
  | .ckptDataRx _ gen data => decide (gen < 2 ^ 64) && (match data with | .head ws => ws.length == 11 && ws.all (· < 2 ^ 32) | .part .. => true)
  | .mirrorRx _ seq _ => decide (seq < 2 ^ 32)
  | .sensorReading readings tput => readings.length == 16 && readings.all (signedIn 10) && tput.length == 16
  | .calRetryPass _ items _ => items.wf
  | .resetNLow | .resetNRelease | .strapFilterEnd .. | .flashReadTimeout | .internalResetEnd | .perstAssert | .pcieEndpointReturn
  | .pcieLinkChange .. | .registerWrite .. | .timebaseLoRead | .softResetWrite .. | .softResetDone .. | .cmemHalfWrite ..
  | .vecAckWrite .. | .msixUnmask .. | .cmdSlotWrite .. | .commandTake | .cmdPageSwap .. | .cmdPortStart .. | .cmdPortStop ..
  | .cmdProgramme .. | .progTapWalkStep | .progParamApply | .avsTimeout | .cmdCalRun .. | .cmdBist .. | .cmdCkptForce ..
  | .cmdSwitchover .. | .cmdRecExtract .. | .extractDone .. | .cmdPlay .. | .playStart .. | .cmdPlaceApply .. | .cmdFlashWrite ..
  | .flashWriteDone .. | .journalWriteDone .. | .cmdState .. | .cmdPmSnapshot .. | .pmSnapshotCopy | .maintAutoExit
  | .systemFrameBoundary | .systemMultiframeBoundary | .wallclockTick | .downstreamMfBoundary .. | .portFrameAbandon ..
  | .portMoveSwitch .. | .contextCopyDone .. | .laneResetStart .. | .laneResetEnd .. | .overrunAdviceExpire
  | .portMissWindowClear .. | .jlaneEnableWrite .. | .linkSyncDone .. | .linkSyncTimeout .. | .linkRetry .. | .linkDown ..
  | .jesdCrc12Error .. | .sysrefEdge .. | .sampleFill .. | .fsyncInEdge .. | .fsyncPeriodTimeout | .refclkCountWindow ..
  | .refclkWatchdog | .gpioInputChange .. | .portGainWrite .. | .gainReadbackTimeout .. | .gainAdviceUpdate ..
  | .chirpSymbolRx .. | .burstHeaderRx .. | .burstPayloadRx ..
  | .afecHoldWrite .. | .spiHeld .. | .afecRawGo .. | .offerActWaitExpire .. | .offerUpTimeout .. | .burstMissed ..
  | .joinTimeout .. | .stnLost .. | .stnDrop .. | .stnLeave .. | .pamPhaseEnd .. | .stationToneDetected .. | .pamToneTimeout ..
  | .stationMarkerAccepted .. | .markerWindowExpire .. | .pamUpTimeout .. | .warmTimeout .. | .forceHuntWrite ..
  | .dccMessageRx .. | .sdWindowEnd .. | .sfWindowEnd .. | .defectFreezeEnd .. | .labelRecheck .. | .txRdiStop ..
  | .sourceQualified .. | .tstateLocked | .tstateUnlocked | .alignJump | .holdValidSet | .slipBufferFrame ..
  | .mangleWalkStart .. | .pageCopyDone | .trunkCdrChange .. | .tlosClear .. | .tsdWindowEnd .. | .trunkEnableWrite ..
  | .holdOffExpire .. | .wtrExpire .. | .protCmdClear .. | .protCmdLo .. | .protCmdFs .. | .protCmdMsProt .. | .protCmdMsWork ..
  | .ddrTrainingDone .. | .recordPeriodBoundary | .recSizeWrite .. | .winBaseWrite .. | .winRemapDone | .apertureRead ..
  | .lookupGoWrite .. | .lookupDone | .delayChangeApply | .clipCommitWrite .. | .clipCheckDone | .ddrCorrectedError ..
  | .ddrUncorrectableError .. | .scrubPassDone | .resolveWrite .. | .claimNowWrite .. | .resolveWaitExpire | .claimPinChange ..
  | .claimWirePersist | .peerUnclaimed1ms | .mateLaneChange .. | .mateLinkDownTimeout | .heartbeatLoss | .checkpointStart
  | .journalResendTimeout | .handoverTimeout | .echoGraceExpire | .peerLostTimeout | .needleDispatch .. | .alu .. | .jr ..
  | .jalr .. | .addi .. | .subi .. | .andi .. | .ori .. | .xori .. | .cmpi .. | .shli .. | .shri .. | .asri .. | .movi ..
  | .lui .. | .tsti .. | .ld .. | .st .. | .xch .. | .b .. | .call .. | .wait .. | .brem .. | .brk .. | .illegalInstruction ..
  | .needleTimerFire .. | .engineEnableWrite .. | .matrixRequest .. | .pushHeadWrite .. | .pushDataWrite ..
  | .basketFlushWrite .. | .ringCiWrite .. | .ringEnableWrite .. | .chkCfgWrite .. | .chkDataWrite .. | .chkHiWrite ..
  | .chkEntryDone .. | .chkResultLoRead .. | .chkAliveSeenWrite .. | .lintWindow .. | .shadowClose | .injKeyWrite ..
  | .injCtrlWrite .. | .bistItemDone .. | .rollingStep | .matrixResponse .. | .ckptSendDone => true

end Sys2Proof
end

