-- ==== Sys2Proof/Safety.lean ====
section
/-! DEFINITION. The terms statements are made in: what a run may meet, the invariant of a state, the state after an effect, an engine
instruction that runs within its budget. -/

namespace Sys2Proof.Machine

/-- The state after an effect that alters neither TIMEBASE nor the device state (R15, R26). -/
def State.after (s : State) (f : Dev → Dev) : State :=
  { s with dev := { f s.dev with timebase := s.dev.timebase, mode := s.dev.mode } }

/-- The state after an effect that may change the device state under R26, and does not alter TIMEBASE (R15). -/
def State.afterShift (s : State) (f : Dev → Dev) : State := { s with dev := { f s.dev with timebase := s.dev.timebase } }

/-- A step is safe where it answers a next state: no misuse of R77 and no refusal. -/
def State.safe (s : State) : Prop := ∃ t, step s = .next t

/-- The invariant of a state: TIMEBASE has 64 bits (R15), and the Hamper's memory is in its canonical form: addresses strictly rising, and no
byte listed that is 0, as an unlisted one reads. -/
def State.inv (s : State) : Bool := decide (s.dev.timebase < 2 ^ 64) && FMap.wf 0 s.dev.hamper.mem

/-- The commands that may change the device state: the causes of R26, with the register writes and the frames that the rules of R383,
R387, R396, R404 and R406 act on. -/
def movesState : Instr → Bool
  | .resetNLow | .resetNRelease | .strapFilterEnd .. | .internalResetEnd | .flashRecordLoaded _ | .flashReadTimeout | .powerupCalDone _
  | .cmdCalRun _ | .calRunDone _ | .cmdState _ | .maintAutoExit | .lintWindow _ | .refclkWatchdog | .systemFrameBoundary
  | .registerWrite .. | .softResetWrite .. | .softResetDone _ | .heartbeatLoss | .fatalFrameRx .. | .handoverRx .. | .handoverReqRx ..
  | .handoverTimeout | .statusRx .. | .ackRx .. | .trunkFrameRx .. | .echoGraceExpire | .claimPinChange .. | .claimWirePersist
  | .peerUnclaimed1ms | .mateLaneChange .. | .resolveWrite _ | .claimNowWrite _ | .resolveWaitExpire | .cmdSwitchover _ => true
  | _ => false

/-- An engine RUNNING an invocation stands at an instruction (R416, R417). -/
def Dev.fetches (d : Dev) (e : Nat) (iv : Invocation) (i : NInstr) : Prop := ∃ w, d.nfetch e = some (iv, w) ∧ ndecode w = some i

/-- One more instruction does not exhaust the account of an invocation (R424, R425). -/
def Dev.inBudget (d : Dev) (e : Nat) (iv : Invocation) : Bool :=
  match iv.ev.port with
  | some n => decide ((d.port n).used + 1 < 4000)
  | none => decide ((d.engine e).used + 1 < 4000)

/-- What an instruction that computes leaves in its engine: the result in the destination where it has one, the flags, the next PC, every
other register as before. -/
def Dev.computed (d t : Dev) (e : Nat) (r : Fin 16) (x : NResult) : Prop :=
  (∀ v, x.1 = some v → t.nreg e r = v % 2 ^ 20) ∧ (∀ q, (q ≠ r ∨ x.1 = none) → t.nreg e q = d.nreg e q) ∧ t.nflags e = x.2 ∧
    (t.engine e).pc = ((d.engine e).pc + 1) % 4096

/-! ### Device states, misuse, engine rows -/

/-- The transitions of R26's table. -/
def r26 : Mode → Mode → Bool
  | _, .reset => true
  | .reset, .boot | .boot, .cal | .boot, .safe | .cal, .ready | .ready, .cal | .maint, .cal | .cal, .maint | .ready, .run
  | .ready, .standby | .ready, .maint | .maint, .ready | .run, .ready | .run, .standby | .standby, .run | .run, .safe | .standby, .safe
  | .cal, .safe | .ready, .safe | .maint, .safe => true
  | _, _ => false

/-- What one step can do to the device state: nothing, one transition, or the way through READY of a paired unit that AUTO_RESOLVE
resolves at once (R383). -/
def Mode.moves (a b : Mode) : Bool := a == b || r26 a b || (r26 a .ready && (b == .run || b == .standby))

/-- The host writes and command starts that can be misuse (R77). -/
def mayMisuse : Instr → Bool
  | .registerWrite .. | .softResetWrite .. | .cmemHalfWrite .. | .vecAckWrite _ | .cmdSlotWrite .. | .commandTake | .cmdPageSwap _
  | .cmdPortStart _ | .cmdPortStop _ | .cmdProgramme _ | .cmdCalRun _ | .cmdBist _ | .cmdCkptForce _ | .cmdSwitchover _
  | .cmdRecExtract _ | .cmdPlay _ | .cmdPlaceApply _ | .cmdFlashWrite _ | .cmdState _ | .cmdPmSnapshot _ | .jlaneEnableWrite ..
  | .portGainWrite .. | .afecHoldWrite .. | .afecRawGo _ | .forceHuntWrite .. | .trunkEnableWrite .. | .protCmdClear ..
  | .protCmdLo .. | .protCmdFs .. | .protCmdMsProt .. | .protCmdMsWork .. | .recSizeWrite _ | .winBaseWrite _ | .apertureRead ..
  | .apertureWrite .. | .lookupGoWrite _ | .clipCommitWrite _ | .resolveWrite _ | .claimNowWrite _ | .engineEnableWrite ..
  | .pushHeadWrite .. | .pushDataWrite .. | .basketFlushWrite .. | .ringEnableWrite .. | .chkCfgWrite .. | .chkDataWrite ..
  | .chkAliveSeenWrite .. | .injKeyWrite _ | .injCtrlWrite _ => true
  | _ => false

/-- The row of the table that an engine instruction is. -/
def NInstr.row (i : NInstr) (e : Fin 96) : Instr :=
  match i with
  | .alu .. => .alu e
  | .jr _ => .jr e
  | .jalr _ => .jalr e
  | .imm op .. =>
    match op with
    | .addi => .addi e | .subi => .subi e | .andi => .andi e | .ori => .ori e | .xori => .xori e | .cmpi => .cmpi e | .shli => .shli e
    | .shri => .shri e | .asri => .asri e | .movi => .movi e | .lui => .lui e | .tsti => .tsti e
  | .mem op .. => match op with | .ld => .ld e | .st => .st e | .xch => .xch e
  | .b .. => .b e
  | .call .. => .call e
  | .wait _ => .wait e
  | .brem _ => .brem e
  | .brk => .brk e

/-! ### Frames: what a command leaves as it was -/

/-- Places in the register store: a field, and the instances and elements of it that are meant. -/
abbrev Places := List (Field × (Nat → Nat → Bool))

/-- Fields on every instance, on one instance, one element, and on the stations of a port. -/
def fieldsAll (fs : List Field) : Places := fs.map (fun f => (f, fun _ _ => true))
def fieldsAt (n : Nat) (fs : List Field) : Places := fs.map (fun f => (f, fun i _ => i == n))
def fieldsElem (u : Nat) (fs : List Field) : Places := fs.map (fun f => (f, fun _ j => j == u))
def fieldsStns (n : Nat) (fs : List Field) : Places := fs.map (fun f => (f, fun i _ => i / 32 == n))

/-- The fields that have an element in a word of a page. -/
def wordFields (p : Page) (off : Nat) : List Field := (fieldsOf p).filter (fun f => !(f.inWord off).isEmpty)

/-- What any event may alter beside its own status word: the counts of the outbound rings and HOSTQ's status (R448, R451 to R453). -/
def ringPlaces : Places := fieldsAll [HOSTQ.RING_PI, HOSTQ.RING_ITEMS, HOSTQ.RING_DROPPED, HDR.EVT_STATUS .hostq]

/-- What an event of a page may alter (R55), what a condition of it may alter, what a fault source may alter (R504). -/
def eventAt (p : Page) (n : Nat) : Places := fieldsAt n [HDR.EVT_STATUS p] ++ ringPlaces
def condAt (p : Page) (n : Nat) : Places := fieldsAt n [HDR.EVT_STATUS p, HDR.LEVEL p] ++ ringPlaces
def faultPlaces : Places := condAt .lint2 0

/-- What completions may alter: their counts and events, and the journal's (R63, R65, R396, R452). -/
def completionPlaces : Places :=
  fieldsAll [DEV.CMD_BUSY, DEV.CMD_INFLIGHT, DEV.CMD_REJECT, HDR.EVT_STATUS .dev, HOSTQ.CPL_WAIT, PAIR.JRN_OVERFLOW] ++ ringPlaces

/-- What a value out of range may alter (R52). -/
def rangePlaces : Places := fieldsAll [DEV.BUS_ADDR, DEV.RANGE, HDR.EVT_STATUS .dev] ++ ringPlaces

/-- What the write of a word may alter: its fields, the note of a value out of range (R52), the count of the journal (R395). -/
def wordAt (p : Page) (n off : Nat) : Places := fieldsAt n (wordFields p off) ++ fieldsAll [PAIR.JRN_OVERFLOW] ++ rangePlaces

/-- The parts of a device beside its registers, the clock and the device state. `signals` is what was sent: outputs, the EVT sequence
number, pending vectors; `commands` those in flight with the completions that wait; `baskets` the inbound baskets with the DCC_RX sequence
number; `faults` what LINT holds of its sources; `host` and `lint` the rest of those. -/
inductive Part where
  | calFrom | flash | free | signals | commands | baskets | host | arch | line | faults | lint | sys | starch | lines | mangle | needle
  | service | hamper | pair
  deriving DecidableEq, Repr

/-- A part that is the same in two devices. -/
def Part.same (d t : Dev) : Part → Prop
  | .calFrom => t.calFrom = d.calFrom
  | .flash => t.flash = d.flash
  | .free => t.free = d.free
  | .signals => t.host.out = d.host.out ∧ t.host.evtSeq = d.host.evtSeq ∧ t.host.msixPend = d.host.msixPend
  | .commands => t.host.inflight = d.host.inflight ∧ t.host.cplWait = d.host.cplWait
  | .baskets => t.host.baskets = d.host.baskets ∧ t.host.dccSeq = d.host.dccSeq
  | .host => t.host = { d.host with
      out := t.host.out
      evtSeq := t.host.evtSeq
      msixPend := t.host.msixPend
      inflight := t.host.inflight
      cplWait := t.host.cplWait
      baskets := t.host.baskets
      dccSeq := t.host.dccSeq }
  | .arch => t.arch = d.arch
  | .line => t.line = d.line
  | .faults => t.lint.src = d.lint.src
  | .lint => t.lint = { d.lint with src := t.lint.src }
  | .sys => t.sys = d.sys
  | .starch => t.starch = d.starch
  | .lines => t.lines = d.lines
  | .mangle => t.mangle = d.mangle
  | .needle => t.needle = d.needle
  | .service => t.service = d.service
  | .hamper => t.hamper = d.hamper
  | .pair => t.pair = d.pair

/-- Every register keeps its value but those at `fs`, every part is the same but those in `ps`. -/
def Dev.framed (fs : Places) (ps : List Part) (d t : Dev) : Prop :=
  (∀ (f : Field) (i j : Nat), i < 65536 → j < 4096 → (∀ g ∈ fs, g.1.id = f.id → g.2 i j = false) → t.rd f i j = d.rd f i j) ∧
    ∀ p, p ∉ ps → p.same d t

end Sys2Proof.Machine
end

