-- ==== Sys2Proof/Certificates/Slice0/Obligations.lean ====
section
/-! DEFINITION. The statements for the provers. -/

open Sys2Proof Sys2Proof.Machine

/-- Resets, straps and BOOT: each of these commands, where its condition holds, answers the next state that its rule gives (R15, R26,
R49, R64, R71, R74, R77, R96). RESET_N leaves the reset device from every state. The straps' TIMEBASE span is 1 ms, the internal reset's 10 µs. -/
def Obligations.ResetAndBootCommandsComplete : Prop :=
  ∀ s : State,
    (s.dev.host.resetLow = false → ∃ t, exec .resetNLow s = .next t ∧ t.dev.host.resetLow = true ∧
      { t.dev with host := HostSt.reset } = { Dev.reset with timebase := s.dev.timebase, free := s.dev.free, host := HostSt.reset }) ∧
    (s.dev.host.resetLow = true → ∃ t, exec .resetNRelease s = .next t ∧ t.pending = s.pending ∧
      t.dev = { Dev.reset with free := s.dev.free, host := { s.dev.host.after with strapFrom := some 0 } }) ∧
    (∀ (pcie test src role : Fin 101) (t0 : Nat), s.dev.host.strapFrom = some t0 → s.dev.mode = .reset → s.dev.host.resetLow = false →
      t0 + 163840 ≤ s.dev.timebase → ∃ t, exec (.strapFilterEnd pcie test src role) s = .next t ∧ t.dev.mode = .boot ∧
        t.dev.rd DEV.BOOT_STEP = 1 ∧ t.dev.host.boot.reading = .sfdp) ∧
    (s.dev.mode = .boot → s.dev.host.boot.reading = .sfdp → ∃ t, exec (.flashRecordLoaded .sfdp) s = .next t ∧
      t.dev.rd DEV.BOOT_STEP = 2 ∧ t.dev.host.boot.reading = .header (s.dev.rd DEV.BOOT_SRC != 0)) ∧
    (∀ (copy : Bool) (ws : List Nat), s.dev.mode = .boot → s.dev.host.boot.reading = .header copy → s.dev.rd DEV.BOOT_STEP = 2 →
      s.dev.timebase ≤ s.dev.host.boot.since + 1638400 → headerGood ws = true → ∃ t, exec (.flashRecordLoaded (.header ws)) s = .next t ∧
        t.dev.rd DEV.BOOT_STEP = 3 ∧ t.dev.host.boot.reading = .record copy ∧ t.dev.host.boot.hdr copy = some true) ∧
    (∀ (copy : Bool) (e : DirEntry) (ws bs : List Nat) (crc : Nat) (signed sig : Bool), s.dev.mode = .boot →
      s.dev.host.boot.reading = .record copy → s.dev.rd DEV.BOOT_STEP = 6 → s.dev.host.boot.entry copy 4 = some e →
      recordBody e ws = some (bs, crc, signed) → bs.length = 1648 → s.dev.timebase ≤ s.dev.host.boot.since + 16384000 →
      ∃ t, exec (.flashRecordLoaded (.record ws sig)) s = .next t ∧ t.dev.rd DEV.BOOT_STEP = 7 ∧
        t.dev.lint.refsRev = some (bytesAt bs 0 1)) ∧
    (∀ es : List (Nat × List Nat), s.dev.mode = .boot → s.dev.host.boot.reading = .scan →
      exec (.flashRecordLoaded (.journal es)) s = .next (s.afterShift (fun d => (d.journalTake es).enterCal))) ∧
    (∀ copy : Bool, s.dev.mode = .boot → s.dev.host.boot.reading = .header copy → s.dev.rd DEV.BOOT_STEP = 2 →
      s.dev.host.boot.hdr (!copy) = none → s.dev.host.boot.since + 1638400 < s.dev.timebase →
      ∃ t, exec .flashReadTimeout s = .next t ∧ t.dev.host.boot.reading = .header (!copy) ∧ t.dev.host.boot.hdr copy = some false) ∧
    (∀ t0 : Nat, s.dev.host.internalAt = some t0 → t0 + 1639 ≤ s.dev.timebase → s.dev.host.resetLow = false →
      ∃ t, exec .internalResetEnd s = .next t ∧ t.dev.mode = .reset ∧ t.dev.timebase = s.dev.timebase ∧
        t.dev.host.strapFrom = some s.dev.timebase ∧ t.dev.regs = []) ∧
    (s.dev.host.perst = false → ∃ t, exec .perstAssert s = .next t ∧ t.dev.host.perst = true ∧
      (∀ c ∈ t.dev.host.inflight, c.started = true ∧ c.silent = true) ∧ (∀ r < 15, t.dev.rd HOSTQ.RING_ENABLE 0 r = 0)) ∧
    (s.dev.host.perst = true → s.dev.host.resetLow = false → ∃ t, exec .pcieEndpointReturn s = .next t ∧ t.dev.host.perst = false ∧
      (t.dev.rd (HDR.EVT_STATUS .dev)).testBit 4 = true) ∧
    (∀ (width : Fin 4) (rate : Fin 5) (aer : Bool), s.dev.host.resetLow = false →
      (aer = true ∨ s.dev.host.pcieWidth ≠ 2 ^ width.val ∨ s.dev.host.pcieRate ≠ rate) →
      ∃ t, exec (.pcieLinkChange width rate aer) s = .next t ∧ (t.dev.rd (HDR.EVT_STATUS .dev)).testBit 12 = true ∧
        t.dev.host.pcieWidth = 2 ^ width.val ∧ t.dev.host.pcieRate = rate) ∧
    (s.dev.host.resetLow = false → exec .refclkWatchdog s = .next (s.afterShift (fun d => (d.fault (srcDev 1)).enterSafe)))

/-- Host accesses (R16, R50, R52, R56, R59): a 32-bit write of WALLCLOCK sets it; a read of TIMEBASE_LO latches the upper half; a soft reset
starts and completes; a masked vector is unmasked; an acknowledged vector whose leaves are still 1 is sent again. -/
def Obligations.HostAccessesComplete : Prop :=
  ∀ s : State, s.dev.host.resetLow = false →
    (∀ v : BitVec 64, ∃ t, exec (.registerWrite 0x74 2 v) s = .next t ∧ t.dev.rd DEV.WALLCLOCK = v.toNat % 2 ^ 32) ∧
    (∃ t, exec .timebaseLoRead s = .next t ∧ t.dev.rd DEV.TIMEBASE_HI = s.dev.timebase / 2 ^ 32 % 2 ^ 32 ∧
      t.dev.host.out.head? = some (.readData ((List.range 4).map (fun i => s.dev.timebase / 2 ^ (8 * i) % 256)))) ∧
    (∀ (addr : Fin 67108864) (v : Word) (p : Page) (inst : Nat), softPage addr = some (p, inst) → s.dev.writable p = true →
      v.toNat.testBit 1 = true → s.dev.wordMisuse p inst 8 v.toNat = none →
      ∃ t, exec (.softResetWrite addr v) s = .next t ∧ t.dev.on (HDR.SOFT_RESET p) inst = true) ∧
    (∀ (addr : Fin 67108864) (p : Page) (inst : Nat), softPage addr = some (p, inst) → s.dev.on (HDR.SOFT_RESET p) inst = true →
      exec (.softResetDone addr) s = .next (s.afterShift (fun d => d.softDone p inst))) ∧
    (∀ v : Word, s.dev.wordMisuse .dev 0 0x7C v.toNat = none → 2 ≤ v.toNat → s.dev.vecOr v.toNat = true →
      s.dev.host.perst = false → (s.dev.msixWord (4 * v.toNat + 3)).testBit 0 = false →
      ∃ t, exec (.vecAckWrite v) s = .next t ∧ t.dev.host.out = .msix v.toNat :: s.dev.host.out) ∧
    (∀ v : Fin 128, s.dev.host.perst = false → (s.dev.msixWord (4 * v.val + 3)).testBit 0 = true →
      FMap.get false s.dev.host.msixPend v = true →
      ∃ t, exec (.msixUnmask v) s = .next t ∧ t.dev.host.out = .msix v.val :: s.dev.host.out ∧
        (t.dev.msixWord (4 * v.val + 3)).testBit 0 = false ∧ FMap.get false t.dev.host.msixPend v = false)

/-- Commands taken, state commands, flash and journal writes (R26, R63, R64, R73): each completes where its condition holds. -/
def Obligations.CommandAndFlashRowsComplete : Prop :=
  ∀ s : State,
    (∀ ws : List Nat, s.dev.nextItem = some ws → ws.headD 0 / 2 ^ 12 % 256 = 0 → s.dev.tagUsed (ws.headD 0 % 4096) = false →
      knownCode (ws.headD 0 / 2 ^ 20 % 256) = true → ∃ t, exec .commandTake s = .next t ∧
        t.dev.host.inflight = s.dev.host.inflight ++ [Inflight.ofItem ws] ∧
        (t.dev.basket 0).items = (s.dev.basket 0).items.drop 1) ∧
    (∀ (tag : Fin 4096) (c : Inflight), s.dev.stateCmd tag = some c → c.args.getD 0 0 ≤ 7 →
      exec (.cmdState tag) s = .next (s.afterShift (fun d => d.toState tag (c.args.getD 0 0)))) ∧
    (∀ (tag : Fin 4096) (c : Inflight), s.dev.ready 12 tag = some c → flashArgsBad c.args = false → s.dev.host.flashJob = none →
      ∃ t, exec (.cmdFlashWrite tag) s = .next t ∧ t.dev.host.flashJob = some (tag.val, c.args.getD 0 0, c.args.getD 3 0) ∧
        t.dev.host.out = .flashWrite (c.args.getD 0 0) (c.args.getD 3 0) :: s.dev.host.out) ∧
    (∀ (ok : Bool) (x : Nat × Nat × Nat), s.dev.host.flashJob = some x → ∃ t, exec (.flashWriteDone ok) s = .next t ∧
      t.dev.host.flashJob = none) ∧
    (∀ (ok : Bool) (x : Nat × Nat) (r : List (Nat × Nat)), s.dev.host.journalJob = x :: r →
      ∃ t, exec (.journalWriteDone ok) s = .next t ∧ t.dev.host.journalJob = r ∧
        (ok = false → (t.dev.rd (HDR.EVT_STATUS .dev)).testBit 11 = true))

/-- Moves, lane resets, programmes and sensors (R24, R30, R34, R35, R38 to R41, R474, R477): each completes where its condition holds. -/
def Obligations.PipelineAndProgrammeRowsComplete : Prop :=
  ∀ s : State,
    (∀ port : Fin 512, s.dev.canSwitch port = true → ∃ t, exec (.portMoveSwitch port) s = .next t ∧
      t.dev.arch.moves = s.dev.arch.moves.map (fun (m : Move) =>
        if m.port = port ∧ m.running then { m with copying := some s.dev.timebase } else m)) ∧
    (∀ (port : Fin 512) (m : Move) (t0 : Nat), s.dev.arch.moves = [m] → m.port = port → m.copying = some t0 →
      s.dev.timebase ≤ t0 + copyTicks → ∃ t, exec (.contextCopyDone port) s = .next t ∧ t.dev.arch.moves = [] ∧
        t.dev.rd PORT.LANE port = m.target % 16 ∧ (t.dev.rd (HDR.EVT_STATUS .dev)).testBit 10 = true) ∧
    (∀ (port : Fin 512) (m : Move), s.dev.arch.moves.find? (fun m => m.port == port.val &&
        (match m.copying with | some t0 => decide (s.dev.timebase ≤ t0 + copyTicks) | none => false)) = some m →
      exec (.contextCopyDone port) s = .next (s.after (fun d => d.copyDone m))) ∧
    (∀ lane : Fin 16, s.dev.resetReady lane = true → ∃ t, exec (.laneResetStart lane) s = .next t ∧
      FMap.get none t.dev.arch.overrun lane = some (.resetting (s.dev.timebase + 20480)) ∧ t.dev.on DEV.LANE_RESET 0 lane = true ∧
      FMap.get [] t.dev.arch.laneMiss lane = [] ∧ ∀ n ∈ s.dev.lanePorts lane, t.dev.portMode n = .down) ∧
    (∀ (lane : Fin 16) (t0 : Nat), FMap.get none s.dev.arch.overrun lane = some (.resetting t0) → t0 ≤ s.dev.timebase →
      ∃ t, exec (.laneResetEnd lane) s = .next t ∧ FMap.get none t.dev.arch.overrun lane = none) ∧
    (s.dev.arch.advice.isSome = true → s.dev.arch.adviceEnds ≤ s.dev.timebase →
      ∃ t, exec .overrunAdviceExpire s = .next t ∧ t.dev.arch.advice = none) ∧
    (∀ port : Fin 512, s.dev.portMisses port = [] → s.dev.portMode port = .degraded → s.dev.defect port 5 = false →
      ∃ t, exec (.portMissWindowClear port) s = .next t ∧ t.dev.portMode port = .up) ∧
    (∀ (tag : Fin 4096) (c : Inflight), s.dev.ready 4 tag = some c → c.args.getD 0 0 ≤ 3 → s.dev.arch.prog = none →
      c.args.getD 0 0 ≠ s.dev.prog → withinCeiling s.dev.loadUnits (c.args.getD 0 0) = true →
      (∀ m ∈ s.dev.arch.moves, m.running = false) → ∃ t ph, exec (.cmdProgramme tag) s = .next t ∧
        t.dev.arch.prog = some ⟨tag, s.dev.prog, c.args.getD 0 0, ph⟩ ∧ t.dev.rd DEV.PROG_BUSY = 1 ∧
        t.dev.rd DEV.PROG_TARGET = c.args.getD 0 0) ∧
    (∀ (mv : Nat) (c : ProgChange) (t0 : Nat), s.dev.arch.prog = some c → c.phase = .voltage t0 → s.dev.mode ≠ .boot →
      progMv c.old < progMv c.target → progMv c.target ≤ mv + 10 → mv ≤ progMv c.target + 10 → s.dev.timebase ≤ t0 + 819200 →
      ∃ t, exec (.vddCoreSettled mv) s = .next t ∧ t.dev.arch.prog = some { c with phase := .walk s.dev.timebase }) ∧
    (∀ (c : ProgChange) (t0 : Nat), s.dev.arch.prog = some c → (c.phase = .walk t0 ∨ c.phase = .undoWalk t0) → t0 + 20480 ≤ s.dev.timebase →
      exec .progTapWalkStep s = .next (s.after (fun d => d.walkStep c))) ∧
    (∀ c : ProgChange, s.dev.arch.prog = some c → c.phase = .apply → s.dev.sys.nextMf ≤ s.dev.timebase →
      progMv c.old ≤ progMv c.target → ∃ t, exec .progParamApply s = .next t ∧ t.dev.arch.prog = none) ∧
    (∀ (c : ProgChange) (t0 : Nat), s.dev.arch.prog = some c → c.phase = .voltage t0 → s.dev.mode ≠ .boot →
      t0 + 819200 ≤ s.dev.timebase → ∃ t, exec .avsTimeout s = .next t ∧ t.dev.arch.prog = some { c with phase := .undoWalk s.dev.timebase }) ∧
    (∀ v : Nat, v ≤ s.dev.rd STARCH.AVS_TARGET + 25 → s.dev.rd STARCH.AVS_TARGET ≤ v + 25 →
      ∃ t, exec (.avsRead (some v)) s = .next t ∧ t.dev.starch.avsFar = 0 ∧ t.dev.starch.avsNear = min 3 (s.dev.starch.avsNear + 1)) ∧
    (∀ (tag : Fin 4096) (c : Inflight), s.dev.ready 11 tag = some c → s.dev.arch.placeTag = none → s.dev.pinsExceed = false →
      ∃ t, exec (.cmdPlaceApply tag) s = .next t ∧ t.dev.arch.placeTag = some tag.val ∧ t.dev.arch.placeDue = true) ∧
    (∀ (readings : List Int) (tput : List Nat), s.dev.mode ≠ .reset → s.dev.mode ≠ .boot → s.dev.starch.nextRead ≤ s.dev.timebase →
      exec (.sensorReading readings tput) s = .next (s.after (fun d => d.sensorReading readings tput)))

/-- Calibration (R27, R470, R478 to R480): the runs start and end, an untouched retry pass that agrees with the one before ends the
deferral. -/
def Obligations.CalibrationRowsComplete : Prop :=
  ∀ s : State,
    (∀ data : CalData, s.dev.mode = .cal → s.dev.calFrom = .boot → exec (.powerupCalDone data) s =
      .next (s.afterShift (fun d => ((d.powerCal data).wr DEV.BOOT_STEP 0 0 10).enterReady))) ∧
    (∀ (tag : Fin 4096) (c : Inflight), s.dev.ready 5 tag = some c → calArgsBad c.args = false → s.dev.starch.run = none →
      s.dev.on (HDR.EXPERT .starch) = true → ∃ t, exec (.cmdCalRun tag) s = .next t ∧ t.dev.mode = .cal ∧ t.dev.calFrom = s.dev.mode ∧
        t.dev.starch.run = some ⟨tag, c.args.getD 0 0, c.args.getD 1 0⟩) ∧
    (∀ (data : CalData) (r : CalRun), s.dev.starch.run = some r → s.dev.mode = .cal →
      exec (.calRunDone data) s = .next (s.afterShift (fun d => d.calRunEnd r data))) ∧
    (∀ (port : Fin 512) (x p : PortItems) (ps : List PortItems), s.dev.on PORT.CAL_DEFERRED port = true →
      s.dev.on STARCH.DEFER_RETRY = true → FMap.get 0 s.dev.starch.window port = 32 → FMap.get false s.dev.starch.touched port = false →
      FMap.get [] s.dev.starch.passes port = p :: ps → portAgree p x = true → ∃ t, exec (.calRetryPass port x false) s = .next t ∧
      t.dev.on PORT.CAL_DEFERRED port = false ∧
        t.dev.on PORT.NEVER_CAL port = false)

/-- Converter links, sample supervision and pins (R88, R89, R92, R98, R517): each completes where its condition holds. -/
def Obligations.LinkAndPinRowsComplete : Prop :=
  ∀ s : State,
    (∀ (lane : Fin 48) (v : Word), s.dev.wordMisuse .jlane lane 8 v.toNat = none → s.dev.writable .jlane = true →
      exec (.jlaneEnableWrite lane v) s = .next (s.after (fun d =>
        (d.writeFields (0x20000 + 4096 * lane.val + 8) .jlane lane 8 v.toNat).followEnables))) ∧
    (∀ link : Fin 32, (s.dev.link link).mode = .syncing → s.dev.linkSound link = true →
      ∃ t, exec (.linkSyncDone link) s = .next t ∧ (t.dev.link link).mode = .up) ∧
    (∀ link : Fin 32, (s.dev.link link).mode = .syncing →
      (s.dev.link link).since + 163840 * s.dev.linkField link JLANE.SYNC_TIMEOUT ≤ s.dev.timebase →
      ∃ t, exec (.linkSyncTimeout link) s = .next t ∧ (t.dev.link link).mode = .failed) ∧
    (∀ link : Fin 32, (s.dev.link link).mode = .failed → (s.dev.link link).since + 16384000 ≤ s.dev.timebase →
      ∃ t, exec (.linkRetry link) s = .next t ∧ (t.dev.link link).mode = .syncing ∧ (t.dev.link link).since = s.dev.timebase) ∧
    (∀ (link : Fin 32) (why : LinkLoss), (s.dev.link link).mode = .up →
      (lossDown why = true → ∃ t, exec (.linkDown link why) s = .next t ∧ (t.dev.link link).mode = .syncing) ∧
      (lossDown why = false → ∃ t, exec (.linkDown link why) s = .next t ∧ (t.dev.link link).mode = .up ∧
        t = s.after (fun d => d.laneLoss why))) ∧
    (∀ lane : Fin 48, ∃ t, exec (.jesdCrc12Error lane) s = .next t ∧
      t.dev.rd JLANE.CRC12_ERR lane = min (s.dev.rd JLANE.CRC12_ERR lane + 1) (2 ^ 32 - 1) ∧
      (t.dev.rd (HDR.EVT_STATUS .jlane) lane).testBit 2 = true) ∧
    (∀ (link : Fin 32) (frac : Fin 65536), (s.dev.link link).mode ≠ .disabled → (s.dev.link link).lemc = none →
      ∃ t, exec (.sysrefEdge link frac) s = .next t ∧ (t.dev.link link).lemc = some (s.dev.timebase * 65536 + frac.val)) ∧
    (∀ (port : Fin 512) (first count : Nat), 0 < count → s.dev.stampOf port (first + count - 1) + usTicks 2 ≤ s.dev.timebase →
      ∃ t, exec (.sampleFill port first count) s = .next t ∧ (t.dev.rinse port).fills = (s.dev.rinse port).fills ++ [(first, count)]) ∧
    (∀ refTicks jrefTicks : Nat, ∃ t, exec (.refclkCountWindow refTicks jrefTicks) s = .next t ∧
      t.dev.line.refBad = (if 163824 ≤ refTicks ∧ refTicks ≤ 163856 then 0 else min 5 (s.dev.line.refBad + 1)) ∧
      t.dev.line.jrefBad = (if ((jrefTicks : Int) - (Config.jrefKHz : Int)).natAbs * 10000 ≤ Config.jrefKHz then 0
        else min 5 (s.dev.line.jrefBad + 1))) ∧
    (∀ (pin : Fin 16) (applied : Bool), let x := FMap.get PinSt.reset s.dev.line.gpio pin
      x.level = s.dev.gpioBall pin applied → x.run = 2 → x.at_ + usTicks 10 ≤ s.dev.timebase →
      (s.dev.rd DEV.GPIO_IN).testBit pin ≠ x.level →
      ∃ t, exec (.gpioInputChange pin applied) s = .next t ∧ (t.dev.rd DEV.GPIO_IN).testBit pin = x.level ∧
        ((s.dev.rd DEV.GPIO_EVT_EN).testBit pin = true → (t.dev.rd (HDR.EVT_STATUS .dev)).testBit 13 = true)) ∧
    (∀ (pin : Fin 16) (applied : Bool), let x := FMap.get PinSt.reset s.dev.line.gpio pin
      (x.run < 2 ∨ x.level ≠ s.dev.gpioBall pin applied) → ∃ t, exec (.gpioInputChange pin applied) s = .next t ∧
        t.dev.rd DEV.GPIO_IN = s.dev.rd DEV.GPIO_IN)

/-- Gain and the AFE SPI masters (R99 to R108): each completes where its condition holds. -/
def Obligations.GainAndSpiRowsComplete : Prop :=
  ∀ s : State,
    (∀ (word : Fin 128) (v : Word), s.dev.wordMisuse .afec 0 (0x100 + 4 * word.val) v.toNat = none → s.dev.writable .afec = true →
      s.dev.mode ≠ .standby → ∃ t, exec (.portGainWrite word v) s = .next t ∧
        ∀ b < 4, t.dev.rd AFEC.PORT_GAIN 0 (4 * word.val + b) = v.toNat / 2 ^ (8 * b) % 64) ∧
    (∀ (port : Fin 512) (g : GainJob), (s.dev.rinse port).gain = some g → s.dev.readsBack port g = true → g.newest = none →
      g.code < 64 → ∃ t, exec (.gainReadback port g.code true) s = .next t ∧ t.dev.rd AFEC.GAIN_APPLIED 0 port = g.code ∧
        t.dev.rd AFEC.GAIN_STATE 0 port = 0 ∧ (t.dev.rinse port).gain = none) ∧
    (∀ (port : Fin 512) (g : GainJob), (s.dev.rinse port).gain = some g → g.since.isSome = true → g.newest = none →
      327680 ≤ g.waited s.dev.timebase → ∃ t, exec (.gainReadbackTimeout port) s = .next t ∧
        t.dev.rd AFEC.GAIN_STATE 0 port = 2 ∧ t.dev.rd AFEC.GAIN_APPLIED 0 port = s.dev.rd AFEC.GAIN_APPLIED 0 port) ∧
    (∀ port : Fin 512, 16 ≤ (s.dev.rinse port).window → ∃ t, exec (.gainAdviceUpdate port) s = .next t ∧
      t.dev.rd AFEC.GAIN_ADVICE 0 port = codeOf 8 (gainAdvice (s.dev.defect port 0 || s.dev.rd AFEC.GAIN_STATE 0 port != 0)
        (s.dev.rinse port).windowOvr (s.dev.rd AFEC.PORT_GAIN 0 port)
        (if s.dev.rd PORT.LC_ACTIVE port = 2 then s.dev.rdS AFEC.TARGET_PAM else s.dev.rdS AFEC.TARGET_CHIRP)
        (2 * sumOf (s.dev.rinse port).powers) (16 * fullScale2)) ∧
      (t.dev.rinse port).window = 0) ∧
    (∀ (m : Fin 4) (k rx : Nat), (s.dev.master m).current = some (.idRead k) → k < 32 → rx / 256 % 256 = 0x96 →
      ∃ t, exec (.afeSpiDone m rx) s = .next t ∧ (t.dev.rd AFEC.AFE_PRESENT).testBit k = true) ∧
    (∀ (m : Fin 4) (v : Word), s.dev.wordMisuse .afec 0 (0x40 + 4 * m.val) v.toNat = none → s.dev.writable .afec = true →
      ∃ t, exec (.afecHoldWrite m v) s = .next t ∧ t.dev.on AFEC.HOLD 0 m = v.toNat.testBit 16 ∧
        (v.toNat.testBit 16 = false → t.dev.on AFEC.HELD 0 m = false)) ∧
    (∀ m : Fin 4, s.dev.on AFEC.HOLD 0 m = true → s.dev.on AFEC.HELD 0 m = false → (s.dev.master m).current = none →
      ∃ t, exec (.spiHeld m) s = .next t ∧ t.dev.on AFEC.HELD 0 m = true ∧
        (t.dev.rd (HDR.EVT_STATUS .afec)).testBit (1 + m.val) = true) ∧
    (∀ v : Word, s.dev.wordMisuse .afec 0 0x60 v.toNat = none → s.dev.writable .afec = true → v.toNat.testBit 31 = true →
      s.dev.on AFEC.HELD 0 (v.toNat / 16 % 4) = true → s.dev.on AFEC.RAW_GO = false →
      ∃ t, exec (.afecRawGo v) s = .next t ∧ t.dev.on AFEC.RAW_GO = true ∧ (t.dev.master (v.toNat / 16 % 4)).raw = true) ∧
    (∀ rx : Nat, s.dev.on AFEC.RAW_GO = true → ∃ t, exec (.rawSpiDone rx) s = .next t ∧ t.dev.on AFEC.RAW_GO = false ∧
      t.dev.rd AFEC.RAW_RX = rx % 2 ^ 24)

/-- System timing (R97, R270, R274 to R278): each completes where its condition holds. -/
def Obligations.TimingRowsComplete : Prop :=
  ∀ s : State,
    (∀ lowBefore highAfter r : Nat, 8 ≤ lowBefore → 8 ≤ highAfter → s.dev.line.fsyncRef = some r → r + 20476 ≤ s.dev.timebase →
      s.dev.timebase ≤ r + 20484 → ∃ t, exec (.fsyncInEdge lowBefore highAfter) s = .next t ∧
        t.dev.line.fsyncRef = some s.dev.timebase ∧ t.dev.line.fsyncBad = 0) ∧
    (∀ r : Nat, s.dev.line.fsyncRef = some r → r + 20484 < s.dev.timebase →
      ∃ t, exec .fsyncPeriodTimeout s = .next t ∧ t.dev.line.fsyncRef = some (r + 20480) ∧ t.dev.line.fsyncGood = 0) ∧
    (∀ e : Fin 4, (s.dev.entry e).failed = false → (s.dev.entry e).qualified = false → s.dev.entryFailed e = false →
      (s.dev.entry e).since + 163840000 * s.dev.rd DEV.SRC_QUAL ≤ s.dev.timebase →
      ∃ t, exec (.sourceQualified e) s = .next t ∧ (t.dev.entry e).qualified = true) ∧
    (s.dev.rd DEV.TSTATE = 1 → s.dev.sys.okRun = 8000 → ∃ t, exec .tstateLocked s = .next t ∧ t.dev.rd DEV.TSTATE = 2 ∧
      t.dev.sys.lockedAt = some s.dev.timebase) ∧
    (s.dev.rd DEV.TSTATE = 2 → s.dev.sys.farRun = 16 → ∃ t, exec .tstateUnlocked s = .next t ∧ t.dev.rd DEV.TSTATE = 1 ∧
      t.dev.sys.lockedAt = none) ∧
    (∀ e r : Nat, s.dev.sys.jumpDue = true → s.dev.mode.mayJump = true → s.dev.tracking = true → s.dev.sys.nextFrame ≤ s.dev.timebase →
      s.dev.sys.sel = some e → s.dev.lastRef e = some r → 16 < (phaseErr s.dev.sys.sysPhase (r : Int) s.dev.effOffset).natAbs →
      ∃ t, exec .alignJump s = .next t ∧ t.dev.sys.buildOut = 0 ∧ t.dev.sys.jumpDue = false ∧
        t.dev.sys.sysPhase = (((s.dev.sys.sysPhase : Int) + phaseErr s.dev.sys.sysPhase (r : Int) s.dev.effOffset) % 327680).toNat ∧
        t.dev.rd DEV.ALIGN_JUMPS = min (s.dev.rd DEV.ALIGN_JUMPS + 1) 65535) ∧
    (∀ t0 : Nat, s.dev.sys.lockedAt = some t0 → t0 + 2785280000 ≤ s.dev.timebase →
      ∃ t, exec .holdValidSet s = .next t ∧ t.dev.on DEV.HOLD_VALID = true) ∧
    (s.dev.host.resetLow = false → s.dev.sys.nextFrame ≤ s.dev.timebase → exec .systemFrameBoundary s =
      .next (s.afterShift (fun d => d.frameBoundary d.sys.nextFrame))) ∧
    (s.dev.host.resetLow = false → s.dev.sys.nextMf ≤ s.dev.timebase → exec .systemMultiframeBoundary s =
      .next (s.after (fun d => d.mfBoundary d.sys.nextMf)))

/-- Ports started and stopped, chirp offers, PAM activation (R30, R31, R128, R179 to R181): each command completes where its condition
holds. -/
def Obligations.StartupRowsComplete : Prop :=
  ∀ s : State,
    (∀ (tag : Fin 4096) (c : Inflight), s.dev.ready 2 tag = some c → c.args.getD 0 0 ≤ 511 → s.dev.enabled (c.args.getD 0 0) = false →
      s.dev.needle.loaded = true → withinCeiling (s.dev.loadUnits + s.dev.portUnits (c.args.getD 0 0)) s.dev.prog = true →
      s.dev.on PORT.LANE_PIN (c.args.getD 0 0) = false → s.dev.startOverPins (c.args.getD 0 0) = false →
      exec (.cmdPortStart tag) s = .next (s.after (fun d => ((d.start tag).portStart (c.args.getD 0 0)).complete tag .ok))) ∧
    (∀ (tag : Fin 4096) (c : Inflight), s.dev.ready 2 tag = some c → c.args.getD 0 0 ≤ 511 → s.dev.startOverPins (c.args.getD 0 0) = false →
      exec (.cmdPortStart tag) s = .next (s.after (fun d => (d.start tag).startPort tag (c.args.getD 0 0)))) ∧
    (∀ (tag : Fin 4096) (c : Inflight), s.dev.ready 3 tag = some c → c.args.getD 0 0 ≤ 511 →
      (s.dev.inMove (c.args.getD 0 0) = false →
        exec (.cmdPortStop tag) s = .next (s.after (fun d => ((d.start tag).portStop (c.args.getD 0 0)).complete tag .ok))) ∧
      (s.dev.inMove (c.args.getD 0 0) = true → exec (.cmdPortStop tag) s = .next (s.after (fun d => d.start tag)))) ∧
    (∀ (port : Fin 512) (o : OfferSt), s.dev.offering port = true → (s.dev.port port).offer = some o → o.accepted = none →
      o.since + s.dev.actWait port < s.dev.timebase →
      exec (.offerActWaitExpire port) s = .next (s.after (fun d => d.offerFail port false))) ∧
    (∀ (port : Fin 512) (o : OfferSt) (t0 : Nat), s.dev.offering port = true → (s.dev.port port).offer = some o → o.accepted = some t0 →
      t0 + 10485760 ≤ s.dev.timebase → exec (.offerUpTimeout port) s = .next (s.after (fun d => d.offerFail port true))) ∧
    (∀ (port : Fin 512) (len : Nat), s.dev.attempting port = true → phaseTicks (s.dev.act port) = some len →
      (s.dev.port port).pam.phaseAt + len ≤ s.dev.timebase →
      exec (.pamPhaseEnd port) s = .next (s.after (fun d => d.pamNext port len))) ∧
    (∀ port : Fin 512, s.dev.attempting port = true → s.dev.act port = 2 → s.dev.timebase ≤ (s.dev.port port).pam.phaseAt + 49152000 →
      ∃ t, exec (.stationToneDetected port) s = .next t ∧ t.dev.rd PORT.ACT_STATE port = 3 ∧ (t.dev.port port).pam.phaseAt = s.dev.timebase) ∧
    (∀ port : Fin 512, s.dev.attempting port = true → s.dev.act port = 2 → (s.dev.port port).pam.phaseAt + 49152000 ≤ s.dev.timebase →
      exec (.pamToneTimeout port) s = .next (s.after (fun d => d.pamFail port))) ∧
    (∀ (port : Fin 512) (back m : Nat) (p : Int), s.dev.attempting port = true → s.dev.act port = 6 →
      (s.dev.port port).wring.eq.next = some p → back + 16 ≤ (s.dev.port port).wring.past.length → back ≤ (s.dev.port port).symbols.length →
      14 ≤ markerHits ((s.dev.port port).wring.past.drop back) → (s.dev.port port).pam.marker = some m →
      m + 163840 ≤ s.dev.ticksOf port (Int.fdiv (p - spanAt back (s.dev.port port).wring.eq.eps) 65536) →
      s.dev.ticksOf port (Int.fdiv (p - spanAt back (s.dev.port port).wring.eq.eps) 65536) ≤ m + 196608 →
      ∃ t, exec (.stationMarkerAccepted port back) s = .next t ∧ t.dev.rd PORT.ACT_STATE port = 7) ∧
    (∀ (port : Fin 512) (m : Nat), s.dev.attempting port = true → s.dev.act port = 6 → (s.dev.port port).pam.marker = some m →
      m + 196608 < s.dev.timebase → exec (.markerWindowExpire port) s = .next (s.after (fun d => d.pamFail port))) ∧
    (∀ port : Fin 512, s.dev.attempting port = true → (s.dev.port port).pam.quietAt + 245760000 ≤ s.dev.timebase →
      exec (.pamUpTimeout port) s = .next (s.after (fun d => d.pamFail port))) ∧
    (∀ (port : Fin 512) (t0 : Nat), s.dev.portMode port = .activating → s.dev.isPam port = true → s.dev.act port = 8 →
      (s.dev.port port).pam.warmAt = some t0 → t0 + 5242880 ≤ s.dev.timebase →
      ∃ t, exec (.warmTimeout port) s = .next t ∧ (t.dev.port port).pam.warmAt = none ∧ t.dev.rd PORT.ACT_STATE port = 8)

/-- Chirp symbols, bursts and the stations of a shared port (R125 to R127, R150 to R154): each command completes where its condition
holds. -/
def Obligations.SharedPortRowsComplete : Prop :=
  ∀ s : State, ∀ port : Fin 512,
    (s.dev.enabled port = true → s.dev.rd PORT.LC_ACTIVE port = 1 → s.dev.cfgBad port = false →
      (s.dev.shared port = false → exec (.chirpSymbolRx port none) s = .next (s.after (fun d => d.chirpSymbol port))) ∧
      (s.dev.shared port = true → exec (.chirpSymbolRx port none) s = .next (s.after (fun d => d.sharedSymbol port))) ∧
      (s.dev.shared port = true → ∀ fork : Bool,
        exec (.chirpSymbolRx port (some fork)) s = .next (s.after (fun d => d.contextSymbol port fork)))) ∧
    (∀ (fork : Bool) (r : Reception), s.dev.slot port fork = some r → s.dev.shared port = true → r.pwOk = true → r.accepted = false →
      r.heads.length = 2 → exec (.burstHeaderRx port fork) s = .next (s.after (fun d => d.burstHeader port fork r))) ∧
    (∀ (fork : Bool) (r : Reception), s.dev.slot port fork = some r → s.dev.shared port = true → r.accepted = true → r.len ≠ 0 →
      r.cols.length = s.dev.payloadSyms port r.frames →
      exec (.burstPayloadRx port fork) s = .next (s.after (fun d => d.burstPayload port fork r))) ∧
    (∀ (w : Fin 16) (c st : Nat) (missed : Bool), s.dev.shared port = true → s.dev.missedWindow port w = some (c, st, missed) →
      exec (.burstMissed port w) s = .next (s.after (fun d =>
        let e := d.modShared port (fun x => { x with got := x.got ++ [(c, w.val, true)] })
        if missed then (e.inc PORT.BURST_MISSED port).burstBad port st c else e.stnAbsent port st c))) ∧
    (∀ stn : Fin 16, s.dev.stnState port stn = 1 → (s.dev.stn port stn).joinAt + 10485760 ≤ s.dev.timebase →
      exec (.joinTimeout port stn) s = .next (s.after (fun d => (d.stnFree port stn).joinReject port))) ∧
    (∀ stn : Fin 16, s.dev.stnState port stn = 2 → s.dev.rd PORT.BURST_LOS port ≤ (s.dev.stn port stn).wantLost →
      exec (.stnLost port stn) s = .next (s.after (fun d => d.stationLost port stn))) ∧
    (∀ stn : Fin 16, s.dev.stnState port stn = 3 →
      (s.dev.stn port stn).lostAt + 16384000 * s.dev.rd PORT.DROP_TIME port ≤ s.dev.timebase →
      exec (.stnDrop port stn) s = .next (s.after (fun d => (d.stnFree port stn).inc PORT.STN_DROPS port))) ∧
    (∀ (stn : Fin 16) (t0 : Nat), s.dev.stnState port stn ≠ 0 → (s.dev.stn port stn).leaving = some t0 → t0 ≤ s.dev.timebase →
      exec (.stnLeave port stn) s = .next (s.after (fun d => d.stnFree port stn)))

/-- The stages of the lanes, downstream boundaries, and slip buffers (R20, R23, R234, R283): each command completes where its condition
holds. -/
def Obligations.LaneRowsComplete : Prop :=
  ∀ s : State, ∀ port : Fin 512, s.dev.enabled port = true →
    (∀ stage : StageData, exec (.stageFinish port stage) s = .next (s.after (fun d => d.stage port stage))) ∧
    (∀ f : PortFrame, (s.dev.lane port 0).find? (fun f => !f.absent) = some f → s.dev.nextDeadline port f ≤ s.dev.timebase →
      exec (.portFrameAbandon port none) s = .next (s.after (fun d => d.abandon port f))) ∧
    (s.dev.dsNext port ≤ s.dev.timebase →
      exec (.downstreamMfBoundary port) s = .next (s.after (fun d => d.dsBoundary port (s.dev.dsNext port)))) ∧
    (∀ f : PortFrame, s.dev.slipping port = true → s.dev.slipNext port = some f →
      exec (.slipBufferFrame (.port port)) s = .next (s.after (fun d => d.portSlip port f))) ∧
    (∀ l : Fin 8, exec (.slipBufferFrame (.trunk l)) s = .next (s.after (fun d => d.trunkSlip l)))

/-- Defect windows, labels, far-end indications and DCC messages (R230, R239, R249, R251, R254, R259): each command completes where its
condition holds. -/
def Obligations.DefectRowsComplete : Prop :=
  ∀ s : State, ∀ port : Fin 512,
    (∀ stn : Fin 16, s.dev.enabled port = true → s.dev.windowDone port stn 5 = true → s.dev.frozen port stn = false →
      exec (.sdWindowEnd port stn) s = .next (s.after (fun d => d.windowEnd port stn 5))) ∧
    (∀ stn : Fin 16, s.dev.enabled port = true → s.dev.windowDone port stn 6 = true → s.dev.frozen port stn = false →
      exec (.sfWindowEnd port stn) s = .next (s.after (fun d => d.windowEnd port stn 6))) ∧
    (∀ stn : Fin 16, s.dev.reached (s.dev.stn port stn).freezeEnd = true → s.dev.frozen port stn = false →
      exec (.defectFreezeEnd port stn) s =
        .next (s.after (fun d => (d.modStn port stn (fun x => { x with freezeEnd := none })).judgeAll port stn))) ∧
    (∀ t0 : Nat, s.dev.enabled port = true → (s.dev.port port).recheck = some t0 → t0 ≤ s.dev.timebase →
      exec (.labelRecheck port) s = .next (s.after (fun d => d.recheckLabels port))) ∧
    (s.dev.on PORT.TX_RDI port = true → (s.dev.on PORT.PORT_FAILED port = false ∨ s.dev.on PORT.RDI_EN port = false) →
      ((s.dev.port port).tx.rdiAt = none ∨ ∃ c, (s.dev.port port).tx.rdiAt = some c ∧ c + 16 ≤ (s.dev.port port).tx.count ∧
        (s.dev.port port).tx.count % 2 = 1) →
      ∃ t, exec (.txRdiStop port) s = .next t ∧ t.dev.on PORT.TX_RDI port = false ∧ (t.dev.port port).tx.rdiAt = none) ∧
    (∀ v : Word, s.dev.wordMisuse .port port 0x160 v.toNat = none → s.dev.writable .port = true →
      exec (.forceHuntWrite port v) s = .next (s.after (fun d =>
        let e := d.writeFields (0x100000 + 4096 * port.val + 0x160) .port port 0x160 v.toNat
        if v.toNat.testBit 8 && e.enabled port && !e.shared port then e.wr PORT.FORCE_HUNT port 0 1 else e))) ∧
    (∀ (stn : Fin 16) (m : List Nat) (inc : Bool) (r : List (List Nat × Bool)), (s.dev.stn port stn).lab.msgs = (m, inc) :: r →
      exec (.dccMessageRx port stn) s =
        .next (s.after (fun d => (d.modLab port stn (fun l => { l with msgs := r })).dccCheck port stn m inc)))

/-- The wall clock and PM snapshots (R75, R263, R265): each command completes where its condition holds. -/
def Obligations.MonitoringRowsComplete : Prop :=
  ∀ s : State,
    (s.dev.mode ≠ .reset → s.dev.sys.mfNum ≠ 0 → s.dev.sys.mfNum % 500 = 0 → s.dev.sys.mfNum ≠ s.dev.host.wallAt →
      exec .wallclockTick s = .next (s.after (fun d => d.wallTick (d.sys.nextMf - mfTicks)))) ∧
    (∀ (tag : Fin 4096) (c : Inflight), s.dev.ready 14 tag = some c → c.args.headD 0 ≤ 1 →
      (∀ x ∈ s.dev.lines.snaps, x.kind ≠ c.args.headD 0) →
      ∃ t, exec (.cmdPmSnapshot tag) s = .next t ∧ t.dev.lines.snaps = s.dev.lines.snaps ++ [⟨tag.val, c.args.headD 0, none, 0⟩]) ∧
    (∀ (x : Snapshot) (t0 : Nat), s.dev.lines.snaps = [x] → x.at? = some t0 → t0 + 983040 ≤ s.dev.timebase →
      exec .pmSnapshotCopy s = .next (s.after (fun d => d.snapCopy x))) ∧
    (∀ (x y : Snapshot) (t0 : Nat), s.dev.lines.snaps = [x, y] → x.at? = some t0 → y.at? = some t0 → t0 + 983040 ≤ s.dev.timebase →
      exec .pmSnapshotCopy s = .next (s.after (fun d => (d.snapCopy x).snapCopy y)))

/-- Connection memory, page swaps and the walk (R50, R313, R314, R317): each command completes where its condition holds. -/
def Obligations.MangleRowsComplete : Prop :=
  ∀ s : State,
    (∀ (page : Fin 2) (entry : Fin 32768) (high : Bool) (v : Word), s.dev.cmMisuse page = none → s.dev.writable .mangle = true →
      exec (.cmemHalfWrite page entry high v) s = .next (s.after (fun d => d.cmHalf page entry high v.toNat))) ∧
    (∀ (tag : Fin 4096) (c : Inflight), s.dev.ready 1 tag = some c → c.args = [] → s.dev.mangle.swap = none →
      ∃ t x, exec (.cmdPageSwap tag) s = .next t ∧ t.dev.mangle.swap = some x ∧ x.tag = tag.val ∧ x.passed = false ∧
        t.dev.rd MANGLE.SWAP_PENDING = 1 ∧ t.dev.activePage = s.dev.activePage) ∧
    (∀ x : SwapSt, s.dev.mangle.swap = some x → x.passed = true →
      exec .pageCopyDone s = .next (s.after (fun d => d.copyPage.swapDone x))) ∧
    (∀ ticks : Nat, s.dev.mode = .run → s.dev.mangle.nextWalk ≤ s.dev.timebase + 3277 → s.dev.mangle.swap = none →
      ∃ t, exec (.mangleWalkStart ticks []) s = .next t ∧ t = s.after (fun d =>
        (((d.modMangle (fun m => { m with nextWalk := m.nextWalk + frameTicks })).takeWalk d.mangle.nextWalk).playsDue
          d.mangle.nextWalk).walk d.mangle.nextWalk ticks [])) ∧
    (∀ (ticks : Nat) (late : List (Fin 1048576)), (s.dev.mode = .ready ∨ s.dev.mode = .standby) →
      s.dev.mangle.nextWalk ≤ s.dev.timebase + 3277 → s.dev.mangle.swap = none →
      ∃ t, exec (.mangleWalkStart ticks late) s = .next t ∧ t.dev.mangle.nextWalk = s.dev.mangle.nextWalk + 20480 ∧
        t.dev.mangle.dest = s.dev.mangle.dest)

/-- Trunk lanes (R325, R326, R331): each command completes where its condition holds. -/
def Obligations.TrunkRowsComplete : Prop :=
  ∀ s : State, ∀ l : Fin 8,
    (∀ ws : List Nat, s.dev.trunkOn l = true → s.dev.on TRUNK.LOOPBACK l = false → ws.length = s.dev.trunkWords l →
      exec (.trunkFrameRx l ws) s = .next (s.afterShift (fun d =>
        Dev.echoFollow d (d.trunkReceive l (if d.on TRUNK.RX_INV l then ws.map (fun w => 1023 - w % 1024) else ws))))) ∧
    (s.dev.trunkOn l = true → ∃ t, exec (.trunkCdrChange l false) s = .next t ∧ t.dev.rd TRUNK.CDR_LOCK l = 0 ∧
      t.dev.tDefect l 0 = true ∧ t.dev.on TRUNK.FAILED l = true) ∧
    (s.dev.trunkOn l = true → ∃ t, exec (.trunkCdrChange l true) s = .next t ∧ t.dev.rd TRUNK.CDR_LOCK l = 1 ∧
      (t.dev.trx l).lockFrom = some s.dev.timebase) ∧
    (∀ t0 : Nat, s.dev.tDefect l 0 = true → (s.dev.trx l).lockFrom = some t0 → t0 + 163840 ≤ s.dev.timebase →
      ∃ t, exec (.tlosClear l) s = .next t ∧ t.dev.tDefect l 0 = false) ∧
    (500 ≤ (s.dev.trx l).winSeen → s.dev.trunkFrozen l = false →
      ∃ t, exec (.tsdWindowEnd l) s = .next t ∧ (t.dev.trx l).winSeen = 0 ∧ t.dev.rd TRUNK.TSD_WIN_ERR l = 0) ∧
    (∀ v : Word, s.dev.wordMisuse .trunk l 8 v.toNat = none → s.dev.writable .trunk = true →
      exec (.trunkEnableWrite l v) s = .next (s.after (fun d =>
        (d.writeFields (0x10000 + 4096 * l.val + 8) .trunk l 8 v.toNat).trunkEnable l (d.trunkOn l))))

/-- Protection timers and commands (R335 to R337): each command completes where its condition holds. -/
def Obligations.ProtectionRowsComplete : Prop :=
  ∀ s : State,
    (∀ (sel : SelRef) (t0 : Nat), s.dev.mode = .run → (s.dev.selSt sel).workAt = some t0 → (s.dev.selSt sel).workOk = false →
      t0 + 16384000 * (s.dev.selCfg sel).holdOff ≤ s.dev.timebase →
      ∃ t, exec (.holdOffExpire sel) s = .next t ∧ (t.dev.selSt sel).workOk = true ∧
        (t.dev.selSt sel).onProt = (s.dev.selSt sel).onProt) ∧
    (∀ (sel : SelRef) (t0 : Nat), s.dev.mode = .run → (s.dev.selSt sel).protAt = some t0 → (s.dev.selSt sel).protOk = false →
      t0 + 16384000 * (s.dev.selCfg sel).holdOff ≤ s.dev.timebase →
      ∃ t, exec (.holdOffExpire sel) s = .next t ∧ (t.dev.selSt sel).protOk = true ∧
        (t.dev.selSt sel).onProt = (s.dev.selSt sel).onProt) ∧
    (∀ (sel : SelRef) (e : Nat), s.dev.mode = .run → (s.dev.selSt sel).restore = .wtr e → e ≤ s.dev.timebase →
      ∃ t, exec (.wtrExpire sel) s = .next t ∧ (t.dev.selSt sel).restore = .none ∧ (t.dev.selSt sel).localReq = 0) ∧
    (∀ (n : Fin 512) (v : Word), s.dev.wordMisuse .port n 0x324 v.toNat = none → s.dev.writable .port = true →
      (v.toNat % 8 = 0 → ∃ t, exec (.protCmdClear (.port n) v) s = .next t ∧ t.dev.rd PORT.COMMAND n = 0) ∧
      (v.toNat % 8 = 1 → ∃ t, exec (.protCmdLo (.port n) v) s = .next t ∧ t.dev.rd PORT.COMMAND n = 1) ∧
      (v.toNat % 8 = 2 → ∃ t, exec (.protCmdFs (.port n) v) s = .next t ∧ t.dev.rd PORT.COMMAND n = 2) ∧
      (v.toNat % 8 = 3 → (s.dev.groupSt n).top ≤ 7 →
        ∃ t, exec (.protCmdMsProt (.port n) v) s = .next t ∧ t.dev.rd PORT.COMMAND n = 3) ∧
      (v.toNat % 8 = 4 → (s.dev.groupSt n).top ≤ 7 →
        ∃ t, exec (.protCmdMsWork (.port n) v) s = .next t ∧ t.dev.rd PORT.COMMAND n = 4)) ∧
    (∀ (r : ProtRef) (v : Word), s.dev.wordMisuse (protWordOf r).1 (protWordOf r).2.1 (protWordOf r).2.2.1 v.toNat = none →
      s.dev.writable (protWordOf r).1 = true →
      ((protFields r).1.part (protFields r).2.2.2 v.toNat = 0 →
        exec (.protCmdClear r v) s = .next (s.after (fun d => d.protWrite r v.toNat))) ∧
      ((protFields r).1.part (protFields r).2.2.2 v.toNat = 1 →
        exec (.protCmdLo r v) s = .next (s.after (fun d => d.protWrite r v.toNat))) ∧
      ((protFields r).1.part (protFields r).2.2.2 v.toNat = 2 →
        exec (.protCmdFs r v) s = .next (s.after (fun d => d.protWrite r v.toNat))) ∧
      ((protFields r).1.part (protFields r).2.2.2 v.toNat = 3 →
        exec (.protCmdMsProt r v) s = .next (s.after (fun d => d.protWrite r v.toNat))) ∧
      ((protFields r).1.part (protFields r).2.2.2 v.toNat = 4 →
        exec (.protCmdMsWork r v) s = .next (s.after (fun d => d.protWrite r v.toNat))))

/-- The Hamper's training, record, aperture and lookup (R356, R360, R362, R371, R372, R374, R378): each command completes where its
condition holds. -/
def Obligations.HamperRowsComplete : Prop :=
  ∀ s : State,
    (s.dev.rd (HDR.STATE .hamper) = 1 → ∃ t, exec (.ddrTrainingDone []) s = .next t ∧ t.dev.hamperOnline = true) ∧
    (∀ fails : List (Fin 4), s.dev.rd (HDR.STATE .hamper) = 1 → fails ≠ [] → exec (.ddrTrainingDone fails) s = .next (s.after (fun d =>
      ((fails.foldl (fun (d : Dev) c => d.raise .hamper 0 (18 + 4 * c.val)) (d.wr (HDR.STATE .hamper) 0 0 3)).condSet .hamper 0 0).faultCond
        srcHamper true))) ∧
    (s.dev.mode ≠ .reset → s.dev.hamper.nextPer ≤ s.dev.sys.mfNum →
      exec .recordPeriodBoundary s = .next (s.after Dev.periodBoundary)) ∧
    (∀ v : Word, s.dev.wordMisuse .hamper 0 0x4C v.toNat = none → s.dev.mode = .ready →
      ∃ t, exec (.recSizeWrite v) s = .next t ∧ t.dev.rd HAMPER.REC_SIZE_GIB = s.dev.recRound (v.toNat % 4096) ∧
        (s.dev.recRound (v.toNat % 4096) ≠ s.dev.rd HAMPER.REC_SIZE_GIB → t.dev.hamper.periods = s.dev.hamper.periods ∧
          ∀ k, (FMap.get RankSt.empty t.dev.hamper.ranks k).stripes = [] ∧ (FMap.get RankSt.empty t.dev.hamper.ranks k).segs = [])) ∧
    (∀ v : Word, s.dev.wordMisuse .hamper 0 0x60 v.toNat = none → s.dev.writable .hamper = true →
      ∃ t, exec (.winBaseWrite v) s = .next t ∧ t.dev.rd HAMPER.WIN_BUSY = 1 ∧ t.dev.rd HAMPER.WIN_BASE = v.toNat % 2048) ∧
    (∃ t, exec .winRemapDone s = .next t ∧ t.dev.rd HAMPER.WIN_BUSY = 0) ∧
    (∀ (off : Fin 1073741824) (len : Fin 4097), s.dev.on HAMPER.WIN_BUSY = false →
      (s.dev.hamperOnline = false → ∀ ue, ∃ t, exec (.apertureRead off len ue) s = .next t ∧
        t.dev.host.out = .readData (List.replicate len 255) :: s.dev.host.out) ∧
      (s.dev.hamperOnline = true → s.dev.capacity < s.dev.apertureLa off + len → ∀ ue, ∃ t, exec (.apertureRead off len ue) s = .next t ∧
        t.dev.host.out = .readData (List.replicate len 255) :: s.dev.host.out ∧
        t.dev.rd HAMPER.APT_OOR = min 65535 (s.dev.rd HAMPER.APT_OOR + 1)) ∧
      (s.dev.hamperOnline = true → s.dev.apertureLa off + len ≤ s.dev.capacity → ∃ t, exec (.apertureRead off len false) s = .next t ∧
        t.dev.host.out = .readData (s.dev.apertureData (s.dev.apertureLa off) len) :: s.dev.host.out)) ∧
    (∀ (off : Fin 1073741824) (data : List Byte), s.dev.on HAMPER.WIN_BUSY = false → s.dev.hamperOnline = true →
      s.dev.apertureLa off + (data.length - 1) < s.dev.capacity →
      (s.dev.laWritable (s.dev.apertureLa off) = true → s.dev.laWritable (s.dev.apertureLa off + (data.length - 1)) = true →
        exec (.apertureWrite off data) s = .next (s.after (fun d => d.ddrWrite (d.apertureLa off) (data.map (fun b => b.toNat))))) ∧
      (s.dev.laWritable (s.dev.apertureLa off) = false → ∃ t, exec (.apertureWrite off data) s = .next t ∧
        t.dev.hamper = s.dev.hamper ∧ t.dev.rd HAMPER.APT_WR_DROP = min 65535 (s.dev.rd HAMPER.APT_WR_DROP + 1))) ∧
    (∀ v : Word, s.dev.wordMisuse .hamper 0 0x68 v.toNat = none → s.dev.writable .hamper = true → v.toNat.testBit 31 = true →
      ∃ t, exec (.lookupGoWrite v) s = .next t ∧ t.dev.rd HAMPER.LOOKUP_GO = 1 ∧ t.dev.hamper.lookup = true ∧
        t.dev.rd HAMPER.LOOKUP_TRIB = v.toNat % 16384) ∧
    (s.dev.hamper.lookup = true → ∃ t, exec .lookupDone s = .next t ∧ t.dev.rd HAMPER.LOOKUP_GO = 0 ∧ t.dev.hamper.lookup = false) ∧
    (∀ t0 : Nat, s.dev.hamper.dlyDue = some t0 → t0 ≤ s.dev.timebase → ∃ t, exec .delayChangeApply s = .next t ∧
      t.dev.hamper.dly = s.dev.hamper.dlySet ∧ t.dev.hamper.dlyDue = none) ∧
    (∀ c : Fin 4, s.dev.hamperOnline = true →
      ∃ t, exec (.ddrCorrectedError c) s = .next t ∧ t.dev.rd HAMPER.CE_COUNT 0 c = min (2 ^ 32 - 1) (s.dev.rd HAMPER.CE_COUNT 0 c + 1)) ∧
    (∀ la : Fin 2199023255552, s.dev.hamperOnline = true → la.val < s.dev.capacity → s.dev.laChannel la < 4 →
      ∃ t, exec (.ddrUncorrectableError la) s = .next t ∧ t.dev.rd HAMPER.UE_LA_LO = la.val % 2 ^ 32 ∧
        t.dev.rd HAMPER.UE_LA_HI = la.val / 2 ^ 32 ∧ (t.dev.rd (HDR.EVT_STATUS .hamper)).testBit (17 + 4 * s.dev.laChannel la) = true) ∧
    (s.dev.hamperOnline = true → s.dev.on HAMPER.SCRUB_EN = true → s.dev.hamper.scrubFrom + 14155776000000 ≤ s.dev.timebase →
      ∃ t, exec .scrubPassDone s = .next t ∧ t.dev.rd HAMPER.SCRUB_PASSES = min 65535 (s.dev.rd HAMPER.SCRUB_PASSES + 1))

/-- Clips, plays and extractions (R369, R370, R375, R376): each command completes where its condition holds. -/
def Obligations.PlayAndExtractRowsComplete : Prop :=
  ∀ s : State,
    (∀ v : Word, s.dev.wordMisuse .hamper 0 0x84 v.toNat = none → s.dev.writable .hamper = true → v.toNat.testBit 31 = true →
      ∃ t, exec (.clipCommitWrite v) s = .next t ∧ t.dev.rd HAMPER.CLIP_GO = 1 ∧ t.dev.hamper.clipJob = some (v.toNat % 4096)) ∧
    (∀ c : Nat, s.dev.hamper.clipJob = some c → ∃ t, exec .clipCheckDone s = .next t ∧ t.dev.hamper.clipJob = none ∧
      t.dev.rd HAMPER.CLIP_GO = 0 ∧ (t.dev.rd (HDR.EVT_STATUS .hamper)).testBit 2 = true) ∧
    (∀ (tag : Fin 4096) (c : Inflight), s.dev.ready 9 tag = some c → extractBad c.args = false → s.dev.hamperOnline = true →
      s.dev.hamper.extracts.length < 16 → ∃ t x, exec (.cmdRecExtract tag) s = .next t ∧
        t.dev.hamper.extracts = s.dev.hamper.extracts ++ [x] ∧ x.tag = tag.val ∧ x.dur = c.args.getD 3 0 ∧
        t.dev.rd HAMPER.EXTRACTS = s.dev.hamper.extracts.length + 1) ∧
    (∀ (tag : Fin 4096) (ue : List Nat) (x : Extract), s.dev.hamper.extracts.find? (fun x => x.tag == tag.val) = some x →
      ∃ t, exec (.extractDone tag ue) s = .next t ∧ (∀ y ∈ t.dev.hamper.extracts, y.tag ≠ tag.val)) ∧
    (∀ (tag : Fin 4096) (c : Inflight), s.dev.ready 10 tag = some c → playBad c.args = false → (c.args.getD 0 0).testBit 16 = false →
      s.dev.hamper.plays.length < 256 → ∃ t r, exec (.cmdPlay tag) s = .next t ∧ t.dev.hamper.playReqs = s.dev.hamper.playReqs ++ [r] ∧
        r.tag = tag.val ∧ r.ch = c.args.getD 0 0 % 256 ∧ r.stop = (c.args.getD 0 0).testBit 19 ∧ t.dev.hamper.plays = s.dev.hamper.plays) ∧
    (∀ (tag : Fin 4096) (r : PlayReq), s.dev.hamper.playReqs.find? (fun (r : PlayReq) => r.tag == tag.val) = some r →
      r.walk ≤ s.dev.timebase + 3277 → exec (.playStart tag) s = .next (s.after (fun d => d.playTake r)))

/-- Roles, claim pins, the mate link and switchover (R383, R385, R387, R398, R404 to R406, R409): each command completes where its
condition holds. -/
def Obligations.PairRowsComplete : Prop :=
  ∀ s : State,
    (∀ v : Word, s.dev.wordMisuse .pair 0 0x44 v.toNat = none → s.dev.writable .pair = true → v.toNat.testBit 0 = true →
      exec (.resolveWrite v) s = .next (s.afterShift (fun d => d.pairCtl v.toNat))) ∧
    (∀ v : Word, s.dev.wordMisuse .pair 0 0x44 v.toNat = none → s.dev.writable .pair = true → v.toNat.testBit 1 = true →
      exec (.claimNowWrite v) s = .next (s.afterShift (fun d => d.pairCtl v.toNat))) ∧
    (∀ t0 : Nat, s.dev.pair.waitFrom = some t0 → t0 + 327680000 ≤ s.dev.timebase →
      exec .resolveWaitExpire s = .next (s.afterShift Dev.judgeRole)) ∧
    (∀ p n : Bool, s.dev.rd PAIR.PEER_PINS ≠ 2 * p.toNat + n.toNat → s.dev.paired = false →
      ∃ t, exec (.claimPinChange p n) s = .next t ∧ t.dev.rd PAIR.PEER_PINS = 2 * p.toNat + n.toNat ∧
        t.dev.pair.pinsAt = s.dev.timebase ∧ t.dev.pair.wireFault = false) ∧
    (∀ p n : Bool, s.dev.rd PAIR.PEER_PINS ≠ 2 * p.toNat + n.toNat → s.dev.paired = true →
      exec (.claimPinChange p n) s = .next (s.afterShift (fun d => ((((((d.wr PAIR.PEER_PINS 0 0 (2 * p.toNat + n.toNat)).modPair
        (fun (x : PairSt) => { x with pinsAt := d.timebase, wireFault := false })).judgeWire).judgeIsolated).judgePins).judgeRole).showPair))) ∧
    (s.dev.paired = true → s.dev.pinsFault = true → s.dev.pair.wireFault = false → s.dev.pair.pinsAt + 327680 ≤ s.dev.timebase →
      exec .claimWirePersist s = .next (s.afterShift (fun d =>
        ((d.modPair (fun (x : PairSt) => { x with wireFault := true })).judgeIsolated).silentPeer))) ∧
    (s.dev.pinsIdle = true → s.dev.pair.pinsAt + 163840 ≤ s.dev.timebase →
      exec .peerUnclaimed1ms s = .next (s.afterShift Dev.silentPeer)) ∧
    (∀ lane : Fin 2, s.dev.paired = false → s.dev.rd PAIR.LANE_UP = 0 →
      ∃ t, exec (.mateLaneChange lane true) s = .next t ∧ t.dev.rd PAIR.LANE_UP = 2 ^ lane.val ∧ t.dev.mateUp = true ∧
        t.dev.pair.lanesDown = none) ∧
    (∀ t0 : Nat, s.dev.paired = true → s.dev.pair.lanesDown = some t0 → t0 + 163840 ≤ s.dev.timebase →
      exec .mateLinkDownTimeout s = .next (s.after (fun d => (d.cond .pair 0 2 true).faultCond (srcPair 0) true))) ∧
    (s.dev.paired = true → 8 ≤ s.dev.pair.hbMiss → s.dev.pair.hbLoss = false →
      exec .heartbeatLoss s = .next (s.afterShift (fun d =>
        (((d.modPair (fun (x : PairSt) => { x with hbLoss := true })).inc PAIR.HB_LOSS).showPair).silentPeer))) ∧
    (∀ t0 t1 : Nat, s.dev.pairActive = true → s.dev.pair.statusAt = some t0 → s.dev.pair.claimSince = some t1 →
      max t0 t1 + 163840 ≤ s.dev.timebase →
      exec .peerLostTimeout s = .next (s.after (fun d => (d.cond .pair 0 4 true).faultCond (srcPair 3) true))) ∧
    (s.dev.pairActive = true → s.dev.gracePassed = true → exec .echoGraceExpire s = .next (s.afterShift Dev.judgeEcho)) ∧
    (∀ (tag : Fin 4096) (c : Inflight), s.dev.ready 8 tag = some c → c.args = [] → s.dev.switchBusy = false → s.dev.mode = .run →
      exec (.cmdSwitchover tag) s = .next (s.afterShift (fun d => (d.start tag).switchStart (some tag.val)))) ∧
    (∀ (tag : Fin 4096) (c : Inflight), s.dev.ready 8 tag = some c → c.args = [] → s.dev.switchBusy = false → s.dev.mode = .standby →
      s.dev.mateUp = false → exec (.cmdSwitchover tag) s = .next (s.afterShift (fun d =>
        ((d.start tag).modPair (fun (x : PairSt) => { x with switch := some (some tag.val, .asked) })).takeover 3))) ∧
    (∀ (tag : Option Nat) (t0 : Nat), s.dev.pair.switch = some (tag, .drain t0) → t0 + 163840 ≤ s.dev.timebase → s.dev.pairActive = true →
      exec .handoverTimeout s = .next (s.afterShift Dev.handOver))

/-- Frames of the mate link (R388, R390, R394, R396 to R398): a frame whose CRC-32 fails is counted and has no other effect; a good one of
the type has its effect. -/
def Obligations.MateFrameRowsComplete : Prop :=
  ∀ s : State, s.dev.mateUp = true → s.dev.paired = true → s.dev.mode ≠ .reset → s.dev.mode ≠ .boot →
    (∀ ws : List Nat, mateCrcGood ws = false →
      ∀ c ∈ [Instr.statusRx ws, .fatalFrameRx ws, .ckptCommitRx ws, .journalRx ws, .ackRx ws, .nakRx ws, .handoverRx ws, .handoverReqRx ws],
        ∃ t, exec c s = .next t ∧ t.dev.pair = s.dev.pair ∧ t.dev.mode = s.dev.mode ∧
          t.dev.rd PAIR.MATE_CRC_ERR = min (2 ^ 32 - 1) (s.dev.rd PAIR.MATE_CRC_ERR + 1)) ∧
    (∀ ws p : List Nat, mateCrcGood ws = true →
      (matePayload 0x01 ws = some p → p.length = 12 → exec (.statusRx ws) s = .next (s.afterShift (fun d => d.statusTake (statusOf p)))) ∧
      (matePayload 0x02 ws = some p → p.length = 3 → words64At p 0 = s.dev.peerId → p.getD 2 0 = s.dev.rd PAIR.PEER_EPOCH →
        exec (.fatalFrameRx ws) s = .next (s.afterShift (fun d => d.takeover 0))) ∧
      (matePayload 0x50 ws = some p → p.length = 2 → p.headD 0 = s.dev.rd PAIR.PEER_EPOCH →
        exec (.handoverRx ws) s = .next (s.afterShift (fun d => d.takeover 4))) ∧
      (matePayload 0x51 ws = some p → s.dev.pairActive = true → words64At p 0 = s.dev.peerId → s.dev.switchBusy = false →
        exec (.handoverReqRx ws) s = .next (s.afterShift (fun d => d.switchStart none))) ∧
      (matePayload 0x11 ws = some p → s.dev.commits p = true →
        ∃ t, exec (.ckptCommitRx ws) s = .next t ∧ (t.dev.ckptSlot (words64At p 1)).committed = true ∧ t.dev.pair.rxGen = none ∧
          (t.dev.rd (HDR.EVT_STATUS .pair)).testBit 9 = true) ∧
      (matePayload 0x20 ws = some p → s.dev.mode = .standby → exec (.journalRx ws) s =
        .next (s.after (fun d => ((journalEntries 16 p).foldl Dev.jrnStore (d, true)).1.followProg.showPair))) ∧
      (matePayload 0x40 ws = some p → p.length = 4 → s.dev.pairActive = true → s.dev.pair.send = none → s.dev.pair.switch = none →
        ∃ t, exec (.ackRx ws) s = .next t ∧
          t.dev.pair.jrnOut = s.dev.pair.jrnOut.filter (fun e => !(e.sentAt.isSome && seqLe e.seq (p.headD 0)))) ∧
      (∀ k, matePayload 0x41 ws = some [k] → s.dev.pairActive = true →
        exec (.nakRx ws) s = .next (s.after (fun d => d.jrnResend (fun e => e.sentAt.isSome && seqLe k e.seq)))) ∧
      (∀ lo hi part, matePayload 0x41 ws = some [lo, hi, part] → s.dev.pairActive = true →
        exec (.nakRx ws) s = .next (s.after (fun d => d.ckptResend (lo + hi * 2 ^ 32) part)))) ∧
    (∀ (gen : Nat) (x : CkptData), exec (.ckptDataRx true gen x) s = .next (s.after (fun d => (d.ckptTake gen x).showPair))) ∧
    (∀ (seq : Nat) (x : MirData), s.dev.mirrorStandby = true →
      exec (.mirrorRx true seq x) s = .next (s.after (fun d => d.mirTake seq x))) ∧
    (s.dev.pairActive = true → exec .journalResendTimeout s = .next (s.after (fun d =>
      d.jrnResend (fun e => match e.sentAt with | some t => d.passed t 163840 | none => false)))) ∧
    (s.dev.pairActive = true → s.dev.pair.send = none → s.dev.pair.ckptDue = true →
      s.dev.timebase + 327680 < s.dev.sys.nextMf + 20480 → ∃ t x, exec .checkpointStart s = .next t ∧ t.dev.pair.send = some x ∧
        x.gen = (s.dev.pair.genStart + 1) % 2 ^ 64 ∧ x.jseqBase = s.dev.pair.jrnSeq ∧ x.sent = false) ∧
    (∀ x : CkptSend, s.dev.pair.send = some x → x.sent = false → ∃ t lanes ws, exec .ckptSendDone s = .next t ∧
      t.dev.pair.send = some { x with sent := true } ∧ t.dev.host.out = .mate lanes ws :: s.dev.host.out ∧ mateCrcGood ws = true ∧
      matePayload 0x11 ws = some (commitRecord x.gen (s.dev.rd PAIR.EPOCH) ((x.header (s.dev.rd PAIR.EPOCH)).getLastD 0))) ∧
    (∀ (tag : Fin 4096) (c : Inflight), s.dev.ready 7 tag = some c → c.args = [] → s.dev.pair.send = none →
      ∃ t, exec (.cmdCkptForce tag) s = .next t ∧ t.dev.pair.ckptForce = s.dev.pair.ckptForce ++ [tag.val])

/-- Engine instructions that compute (R416 to R419), executed within the budget: the destination, the flags and the PC are as the rules
give them, and the other registers keep their values. -/
def Obligations.NeedleComputeRowsComplete : Prop :=
  ∀ (s : State) (e : Fin 96) (iv : Invocation),
    (∀ (fn : AluFn) (r a b : Fin 16), s.dev.fetches e iv (.alu fn r a b) → s.dev.inBudget e iv = true →
      ∃ t, exec (.alu e) s = .next t ∧ s.dev.computed t.dev e r (alu fn (s.dev.nflags e) (s.dev.nreg e a) (s.dev.nreg e b))) ∧
    (∀ (op : ImmOp) (r a : Fin 16) (i : Fin 1024), s.dev.fetches e iv (.imm op r a i) → s.dev.inBudget e iv = true →
      ∃ t, exec (match op with
          | .addi => .addi e | .subi => .subi e | .andi => .andi e | .ori => .ori e | .xori => .xori e | .cmpi => .cmpi e
          | .shli => .shli e | .shri => .shri e | .asri => .asri e | .movi => .movi e | .lui => .lui e | .tsti => .tsti e) s = .next t ∧
        s.dev.computed t.dev e r (immOp op (s.dev.nflags e) (s.dev.nreg e a) i)) ∧
    (∀ r : Fin 16, s.dev.fetches e iv (.brem r) → s.dev.inBudget e iv = true →
      ∃ t, exec (.brem e) s = .next t ∧ s.dev.computed t.dev e r (some (s.dev.ndlLeft e iv), s.dev.nflags e))

/-- Loads, stores and exchanges in the data store and the shared store (R415, R417), executed within the budget. -/
def Obligations.NeedleMemoryRowsComplete : Prop :=
  ∀ (s : State) (e : Fin 96) (iv : Invocation) (r b : Fin 16) (o : Fin 1024), s.dev.inBudget e iv = true →
    (s.dev.fetches e iv (.mem .ld r b o) → s.dev.naddr e b o < 0x800 → ∃ t, exec (.ld e) s = .next t ∧
      s.dev.computed t.dev e r (some (s.dev.rd NDL.DATA e (s.dev.naddr e b o)), s.dev.nflags e)) ∧
    (s.dev.fetches e iv (.mem .ld r b o) → 0x4000 ≤ s.dev.naddr e b o → s.dev.naddr e b o < 0x8000 → ∃ t, exec (.ld e) s = .next t ∧
      s.dev.computed t.dev e r (some (FMap.get 0 s.dev.needle.shared (e / 8 * 16384 + (s.dev.naddr e b o - 0x4000))), s.dev.nflags e)) ∧
    (s.dev.fetches e iv (.mem .st r b o) → s.dev.naddr e b o < 0x800 → ∃ t, exec (.st e) s = .next t ∧
      t.dev.rd NDL.DATA e (s.dev.naddr e b o) = s.dev.nreg e r % 2 ^ 20 ∧ (∀ i < 2048, i ≠ s.dev.naddr e b o →
      t.dev.rd NDL.DATA e i = s.dev.rd NDL.DATA e i) ∧
      t.dev.needle.shared = s.dev.needle.shared ∧ t.dev.nflags e = s.dev.nflags e) ∧
    (s.dev.fetches e iv (.mem .xch r b o) → 0x4000 ≤ s.dev.naddr e b o → s.dev.naddr e b o < 0x8000 → ∃ t, exec (.xch e) s = .next t ∧
      s.dev.computed t.dev e r (some (FMap.get 0 s.dev.needle.shared (e / 8 * 16384 + (s.dev.naddr e b o - 0x4000))), s.dev.nflags e) ∧
      t.dev.needle.shared = FMap.set 0 s.dev.needle.shared (e / 8 * 16384 + (s.dev.naddr e b o - 0x4000)) (s.dev.nreg e r))

/-- Jumps, branches, calls, WAIT and BRK (R417, R419, R420, R427), executed within the budget; dispatch, timers, an illegal word and a
write of CTRL (R422, R426, R427, R432). -/
def Obligations.NeedleFlowRowsComplete : Prop :=
  ∀ (s : State) (e : Fin 96) (iv : Invocation),
    (∀ a : Fin 16, s.dev.fetches e iv (.jr a) → s.dev.inBudget e iv = true →
      ∃ t, exec (.jr e) s = .next t ∧ (t.dev.engine e).pc = s.dev.nreg e a % 4096 ∧ ∀ r, t.dev.nreg e r = s.dev.nreg e r) ∧
    (∀ a : Fin 16, a ≠ 15 → s.dev.fetches e iv (.jalr a) → s.dev.inBudget e iv = true →
      ∃ t, exec (.jalr e) s = .next t ∧ (t.dev.engine e).pc = s.dev.nreg e a % 4096 ∧
        t.dev.nreg e 15 = ((s.dev.engine e).pc + 1) % 4096 ∧ ∀ r, r ≠ 15 → t.dev.nreg e r = s.dev.nreg e r) ∧
    (∀ (c : Cond) (g : Fin 4096), s.dev.fetches e iv (.b c g) → s.dev.inBudget e iv = true →
      ∃ t, exec (.b e) s = .next t ∧ (∀ r, t.dev.nreg e r = s.dev.nreg e r) ∧
        (t.dev.engine e).pc = if c.holds (s.dev.nflags e) then g.val else ((s.dev.engine e).pc + 1) % 4096) ∧
    (∀ (c : Cond) (g : Fin 4096), s.dev.fetches e iv (.call c g) → s.dev.inBudget e iv = true →
      ∃ t, exec (.call e) s = .next t ∧ (t.dev.engine e).pc = (if c.holds (s.dev.nflags e) then g.val else ((s.dev.engine e).pc + 1) % 4096) ∧
        t.dev.nreg e 15 = (if c.holds (s.dev.nflags e) then ((s.dev.engine e).pc + 1) % 4096 else s.dev.nreg e 15) ∧
        ∀ r, r ≠ 15 → t.dev.nreg e r = s.dev.nreg e r) ∧
    (∀ i : Fin 1024, s.dev.fetches e iv (.wait i) → s.dev.inBudget e iv = true →
      ∃ t, exec (.wait e) s = .next t ∧ (t.dev.engine e).running = none ∧ t.dev.rd NDL.WAIT_MASK e = i % 64 ∧
        t.dev.ndlState e = if s.dev.on (HDR.ENABLE .ndl) e then 1 else 0) ∧
    (s.dev.fetches e iv .brk → s.dev.inBudget e iv = true →
      ∃ t, exec (.brk e) s = .next t ∧ (t.dev.engine e).running = none ∧ t.dev.on (HDR.ENABLE .ndl) e = false ∧ t.dev.ndlState e = 0) ∧
    (∀ w : Nat, s.dev.nfetch e = some (iv, w) → ndecode w = none →
      exec (.illegalInstruction e) s = .next (s.after (fun d => d.ndlFault e iv .illegal))) ∧
    (s.dev.ndlState e = 1 → s.dev.on (HDR.ENABLE .ndl) e = true → exec (.needleDispatch e) s = .next (s.after (fun d => d.ndlDispatch e))) ∧
    (∀ (m : Fin 16) (t0 : Nat), (FMap.get NdlTimer.off (s.dev.engine e).timers m).at? = some t0 → t0 ≤ s.dev.timebase →
      exec (.needleTimerFire e m) s = .next (s.after (fun d => d.timerFire e m))) ∧
    (∀ v : Word, s.dev.wordMisuse .ndl e 8 v.toNat = none → s.dev.writable .ndl = true →
      exec (.engineEnableWrite e v) s = .next (s.after (fun d =>
        (d.writeFields (0x400000 + 16384 * e.val + 8) .ndl e 8 v.toNat).ndlEnable e (d.on (HDR.ENABLE .ndl) e))))

/-- The bus matrix, baskets and rings (R442 to R455): each command completes where its condition holds. -/
def Obligations.MatrixAndBasketRowsComplete : Prop :=
  ∀ s : State,
    (∀ (m : Fin 18) (g : Fin 9) (i : Fin 16) (b : Fin 64), exec (.matrixRequest m g i b) s = .next (s.after (fun d =>
      (d.modMtx (fun x => { x with waiting := x.waiting ++ [⟨m, g, i, b.val + 1, d.timebase, false, false⟩] })).mtxArbitrate))) ∧
    (∀ (m : Fin 18) (g : Fin 9) (i : Fin 16) (o : MtxOut), s.dev.service.mtx.out.find?
        (fun (o : MtxOut) => decide (o.master = m.val ∧ o.target = g.val ∧ o.id = i.val ∧ o.ends ≤ s.dev.timebase)) = some o →
      exec (.matrixResponse m g i) s = .next (s.after (fun d =>
        (d.modMtx (fun x => { x with out := x.out.erase o })).mtxArbitrate))) ∧
    (s.dev.writable .hostq = true →
      (∀ (w : Fin 4096) (v : Word), s.dev.creditMisuse 0 (s.dev.slotCompletes w v.toNat) = none →
        exec (.cmdSlotWrite w v) s = .next (s.after (fun d => d.slotWrite w v.toNat))) ∧
      (∀ (b : Fin 14) (v : Word), b.val ≠ 0 → v.toNat / 2 ^ 12 % 256 = 0 → 1 ≤ v.toNat / 2 ^ 28 → (s.dev.basket b).open? = none →
        ∃ t, exec (.pushHeadWrite b v) s = .next t ∧ (t.dev.basket b).open? = some [v.toNat]) ∧
      (∀ (b : Fin 14) (v : Word), b.val ≠ 0 → (s.dev.basket b).open? = none →
        ∃ t, exec (.pushDataWrite b v) s = .next t ∧ (t.dev.basket b).open? = none ∧ (t.dev.basket b).items = (s.dev.basket b).items) ∧
      (∀ (b : Fin 14) (v : Word) (ws : List Nat), b.val ≠ 0 → (s.dev.basket b).open? = some ws →
        ws.length + 1 < itemLen (ws.headD 0) → ∃ t, exec (.pushDataWrite b v) s = .next t ∧ (t.dev.basket b).open? = some (ws ++ [v.toNat])) ∧
      (∀ (b : Fin 29) (v : Word), b.val < 2 → s.dev.wordMisuse .hostq 0 (0x100 + 16 * b.val) v.toNat = none → v.toNat.testBit 31 = true →
        ∃ t, exec (.basketFlushWrite b v) s = .next t ∧ t.dev.basket b = Basket.empty ∧
          t.dev.rd HOSTQ.IN_CREDIT 0 b = basketSlots b ∧ t.dev.rd HOSTQ.IN_GEN 0 b = (s.dev.rd HOSTQ.IN_GEN 0 b + 1) % 256) ∧
      (∀ (r : Fin 15) (v : Word), r.val ≠ 0 →
        (v.toNat / 65536 + 65536 - s.dev.rd HOSTQ.RING_CI 0 r) % 65536 ≤
          (s.dev.rd HOSTQ.RING_PI 0 r + 65536 - s.dev.rd HOSTQ.RING_CI 0 r) % 65536 →
        ∃ t, exec (.ringCiWrite r v) s = .next t ∧ t.dev.rd HOSTQ.RING_CI 0 r = v.toNat / 65536) ∧
      (∀ (r : Fin 15) (v : Word), s.dev.wordMisuse .hostq 0 (0x208 + 32 * r.val) v.toNat = none →
        exec (.ringEnableWrite r v) s = .next (s.after (fun d => d.ringCtrl r v.toNat))))

/-- CHK units (R457 to R462): each command completes where its condition holds. -/
def Obligations.ChkRowsComplete : Prop :=
  ∀ (s : State) (u : Fin 16),
    (s.dev.writable .chk = true →
      (∀ v : Word, s.dev.wordMisuse .chk 0 (0x118 + 0x80 * u.val) v.toNat = none →
        exec (.chkCfgWrite u v) s = .next (s.after (fun d => (d.chkUse u 0 0x18 v.toNat).chkCfg u v.toNat))) ∧
      (∀ v : Word, s.dev.chkMisuse u 0 0x1C = none → ∃ t, exec (.chkDataWrite u v) s = .next t ∧
        (t.dev.chkUnit u).queue = (s.dev.chkUnit u).queue ++ [.data v.toNat] ∧
        t.dev.on CHK.U_BUSY 0 u = true ∧ t.dev.on CHK.U_VALID 0 u = false) ∧
      (∀ (p : Fin 5) (v : Word), ∃ t, exec (.chkHiWrite u p v) s = .next t ∧
        (t.dev.chkUnit u).queue = (s.dev.chkUnit u).queue ++ [.pair p (FMap.get 0 (s.dev.chkUnit u).staged p) v.toNat]) ∧
      (∀ v : Word, v.toNat < 16 → s.dev.on CHK.U_FIRST 0 u = true → ∃ t, exec (.chkAliveSeenWrite u v) s = .next t ∧
        t.dev.rd CHK.U_EXPECTED 0 u = (v.toNat + 1) % 16 ∧ t.dev.rd CHK.U_LAST 0 u = v.toNat ∧ t.dev.on CHK.U_FIRST 0 u = false)) ∧
    (∀ (e : ChkEntry) (r : List ChkEntry), (s.dev.chkUnit u).queue = e :: r →
      ∃ t, exec (.chkEntryDone u) s = .next t ∧ (t.dev.chkUnit u).queue = r) ∧
    (s.dev.host.resetLow = false → ∃ t, exec (.chkResultLoRead u) s = .next t ∧
      t.dev.rd CHK.U_RESULT_HI 0 u = (s.dev.chkUnit u).hi % 2 ^ 32 ∧
      t.dev.rd CHK.U_LSTATUS 0 u = s.dev.chkStatusWord u % 2 ^ 32)

/-- LINT, injection and self-test (R26, R483 to R503): each command completes where its condition holds. -/
def Obligations.LintAndBistRowsComplete : Prop :=
  ∀ s : State,
    (∀ bad : List (Fin 11136), s.dev.mode ≠ .reset → s.dev.lint.nextWindow ≤ s.dev.timebase →
      exec (.lintWindow bad) s = .next (s.afterShift (fun d => d.lintWindow (bad.map (fun n => n.val))))) ∧
    (∃ t, exec .shadowClose s = .next t ∧ t.dev.lint.shadows = s.dev.lint.shadows.filter (fun x => !s.dev.shadowOver x)) ∧
    (s.dev.writable .lint0 = true → s.dev.on DEV.TEST_MODE = true →
      (∃ t, exec (.injKeyWrite 0xC0DE) s = .next t ∧ t.dev.on LINT.INJ_ARMED = true) ∧
      (∀ v : Word, v.toNat < 65536 → v.toNat ≠ 0xC0DE → ∃ t, exec (.injKeyWrite v) s = .next t ∧ t.dev.on LINT.INJ_ARMED = false ∧
        t.dev.lint.injRail = none) ∧
      (∀ (n mode : Nat), (srcClass n).isSome = true → n < 2 ^ 14 → mode < 3 → s.dev.on LINT.INJ_ARMED = true →
        ∃ t, exec (.injCtrlWrite (BitVec.ofNat 32 (2 ^ 30 + mode * 2 ^ 28 + n))) s = .next t ∧ t.dev.lint.injRail = some (n, mode) ∧
          t.dev.on LINT.INJ_ACTIVE = true ∧ t.dev.rd LINT.INJ_SOURCE = n)) ∧
    (∀ (tag : Fin 4096) (c : Inflight), s.dev.ready 6 tag = some c → 1 ≤ c.args.getD 0 0 → c.args.getD 0 0 ≤ 3 → c.args.getD 1 0 < 2 ^ 23 →
      s.dev.lint.run = none → c.args.getD 0 0 ≠ 2 →
      ∃ t r, exec (.cmdBist tag) s = .next t ∧ t.dev.lint.run = some r ∧ r.tag = tag.val ∧
        r.items = bistItems (c.args.getD 0 0) (c.args.getD 1 0) ∧ t.dev.rd BIST.RUNNING = 1) ∧
    (∀ (sig : BitVec 64) (r : BistRun) (i : Nat) (rest : List Nat), s.dev.lint.run = some r → r.items = i :: rest →
      exec (.bistItemDone sig) s = .next (s.after (fun d => d.runItemDone r i sig.toNat))) ∧
    (∀ (sig : BitVec 64) (i : Nat), s.dev.lint.run = none → s.dev.lint.rollItem = some i →
      exec (.bistItemDone sig) s = .next (s.after (fun d => d.rollItemDone i sig.toNat))) ∧
    (s.dev.mode = .standby → s.dev.lint.rollItem = none → s.dev.lint.rollFrom + 8192000 * s.dev.lint.rollStep ≤ s.dev.timebase →
      ∃ t, exec .rollingStep s = .next t ∧ t.dev.lint.rollItem = some s.dev.lint.rollStep) ∧
    (s.dev.mode = .maint → s.dev.lint.exitDue = true → s.dev.host.inflight = [] → s.dev.host.cplWait = [] →
      exec .maintAutoExit s = .next (s.afterShift Dev.enterReady))

/-- A step with a command at the front of the queue is exec of it on the state with the rest. -/
def Obligations.StepRunsFrontCommand : Prop :=
  ∀ (s : State) (c : Instr) (rest : List Instr), s.pending = c :: rest → step s = exec c { s with pending := rest }

/-- MODEL'S CHOICE (log entry 1): on an empty queue one tick of REFCLK passes; only TIMEBASE changes, and not while RESET_N is low. -/
def Obligations.EmptyQueueTicks : Prop :=
  ∀ s : State, s.pending = [] →
    step s = .next { s with dev := { s.dev with timebase := if s.dev.host.resetLow then s.dev.timebase else (s.dev.timebase + 1) % 2 ^ 64 } }

/-- What reset leaves (R12, R15, R26, R75, R447, R483): TIMEBASE 0, the state RESET, no command waiting, every port DISABLED, full credits,
the leaf vectors, no port under an engine; and the invariant of a state holds there. -/
def Obligations.ResetLeaves : Prop :=
  State.reset.pending = [] ∧ State.reset.dev.timebase = 0 ∧ State.reset.dev.mode = .reset ∧ State.reset.inv = true ∧
    State.reset.dev.enabledPorts = [] ∧ (∀ n : Fin 512, State.reset.dev.portMode n = .disabled) ∧
    (∀ i : Fin 14, State.reset.dev.rd HOSTQ.IN_CREDIT 0 i = if i = 0 then 256 else 64) ∧
    (∀ l : Fin 1280, State.reset.dev.rd DEV.LEAF_VEC 0 l = 2 + l / 32) ∧ (∀ r : Fin 15, State.reset.dev.on HOSTQ.RING_ENABLE 0 r = false) ∧
    (∀ e : Fin 96, State.reset.dev.on (HDR.ENABLE .ndl) e = true ∧ State.reset.dev.ndlState e = 0)

/-- TIMEBASE over every step (R15): RESET_N's release sets it to 0, no other command, soft reset or state change alters it. That a step on an
empty queue is one tick, which counts it on, is the MODEL'S CHOICE (log entry 1). -/
def Obligations.TimebaseOfEveryStep : Prop :=
  ∀ s t : State, step s = .next t →
    t.dev.timebase = match s.pending with
      | [] => if s.dev.host.resetLow then s.dev.timebase else (s.dev.timebase + 1) % 2 ^ 64
      | c :: _ => if c = .resetNRelease ∧ s.dev.host.resetLow = true then 0 else s.dev.timebase

/-- The invariant of a state, TIMEBASE below 2^64 (R15) and the Hamper's memory in its canonical form (R358), is kept by every step. -/
def Obligations.InvariantKept : Prop :=
  ∀ s t : State, s.inv = true → step s = .next t → t.inv = true

/-- The device state moves only as R26's table says, in every step from every state; one step may pass through READY (Mode.moves). -/
def Obligations.ModeFollowsR26 : Prop :=
  ∀ s t : State, step s = .next t → s.dev.mode.moves t.dev.mode = true

/-- What every command leaves: the queue behind it; and the device state, unless the command carries a cause of R26 or a rule of pairing. -/
def Obligations.EveryCommandLeaves : Prop :=
  ∀ (c : Instr) (s t : State), exec c s = .next t → t.pending = s.pending ∧ (movesState c = false → t.dev.mode = s.dev.mode)

/-- No command is refused, and only host writes and command starts can end in misuse (R77): every other command answers a next state in
every state. -/
def Obligations.OnlyHostWritesStop : Prop :=
  ∀ (c : Instr) (s : State), (∀ r, exec c s ≠ .refused r) ∧ (mayMisuse c = false → ∃ t, exec c s = .next t)

/-- Writes that reach no field (R11, R50, R76): of a reserved offset a nonzero write is misuse, a write of 0 changes nothing, and it reads 0;
an access of 8 or 16 bits is dropped, sets SUBWORD and BUS_ERR, and notes its address. -/
def Obligations.WritesThatReachNoField : Prop :=
  ∀ (s : State) (addr : Fin 67108864) (size : Fin 4) (v : BitVec 64), s.dev.host.resetLow = false →
    (region (addr.val / 4 * 4) = .reserved →
      (v.toNat % 2 ^ 32 ≠ 0 → exec (.registerWrite addr 2 v) s = .fault (.misuse .reservedWrite)) ∧
      (v.toNat % 2 ^ 32 = 0 → exec (.registerWrite addr 2 v) s = .next s) ∧
      s.dev.busRead (addr.val / 4 * 4) = 0) ∧
    (size.val < 2 → ∃ t, exec (.registerWrite addr size v) s = .next t ∧ t.dev.on DEV.SUBWORD = true ∧
      t.dev.rd DEV.BUS_ADDR = addr.val % 2 ^ DEV.BUS_ADDR.width ∧ (t.dev.rd (HDR.EVT_STATUS .dev)).testBit 3 = true ∧
      s.dev.framed (fieldsAll [DEV.SUBWORD, DEV.BUS_ADDR] ++ eventAt .dev 0) [.signals] t.dev)

/-- TIMEBASE read by the host (R16): the read of TIMEBASE_LO answers the lower 32 bits and latches the upper, and the pair forms one
64-bit value; nothing else that a read shows changes. -/
def Obligations.TimebaseReadsConsistently : Prop :=
  ∀ s : State, s.dev.host.resetLow = false → s.dev.timebase < 2 ^ 64 →
    ∃ t, exec .timebaseLoRead s = .next t ∧
      (∃ b0 b1 b2 b3 : Nat, t.dev.host.out = .readData [b0, b1, b2, b3] :: s.dev.host.out ∧ b0 < 256 ∧ b1 < 256 ∧ b2 < 256 ∧ b3 < 256 ∧
        b0 + 2 ^ 8 * b1 + 2 ^ 16 * b2 + 2 ^ 24 * b3 + 2 ^ 32 * t.dev.rd DEV.TIMEBASE_HI = s.dev.timebase)

/-- The outcomes of ALIVE_SEEN (R462), the first row of its table that applies, sums modulo 16. -/
def Obligations.AliveSeenTable : Prop :=
  ∀ (s : State) (u : Fin 16) (v : Word), v.toNat < 16 → s.dev.writable .chk = true →
    let seen := v.toNat
    let old (f : Field) := s.dev.rd f 0 u
    ∃ t, exec (.chkAliveSeenWrite u v) s = .next t ∧
      (s.dev.on CHK.U_FIRST 0 u = true → t.dev.on CHK.U_FIRST 0 u = false ∧ t.dev.on CHK.U_GAP 0 u = false ∧
        t.dev.on CHK.U_REPEAT 0 u = false ∧ t.dev.rd CHK.U_EXPECTED 0 u = (seen + 1) % 16 ∧ t.dev.rd CHK.U_LAST 0 u = seen) ∧
      (s.dev.on CHK.U_FIRST 0 u = false → t.dev.on CHK.U_FIRST 0 u = false ∧
        (seen = old CHK.U_LAST → t.dev.on CHK.U_REPEAT 0 u = true ∧ t.dev.on CHK.U_GAP 0 u = false ∧
          (t.dev.rd CHK.UNIT_EVT_STATUS).testBit (2 * u.val + 1) = true ∧ t.dev.rd CHK.U_EXPECTED 0 u = old CHK.U_EXPECTED ∧
          t.dev.rd CHK.U_LAST 0 u = old CHK.U_LAST) ∧
        (seen ≠ old CHK.U_LAST → seen = old CHK.U_EXPECTED → t.dev.on CHK.U_REPEAT 0 u = false ∧ t.dev.on CHK.U_GAP 0 u = false ∧
          t.dev.rd CHK.U_EXPECTED 0 u = (seen + 1) % 16 ∧ t.dev.rd CHK.U_LAST 0 u = seen) ∧
        (seen ≠ old CHK.U_LAST → seen ≠ old CHK.U_EXPECTED → t.dev.on CHK.U_REPEAT 0 u = false ∧ t.dev.on CHK.U_GAP 0 u = true ∧
          (t.dev.rd CHK.UNIT_EVT_STATUS).testBit (2 * u.val) = true ∧ t.dev.rd CHK.U_EXPECTED 0 u = (seen + 1) % 16 ∧
          t.dev.rd CHK.U_LAST 0 u = seen))

/-- Arming of injection (R495): in test mode the key arms and any other value disarms and releases; RESET disarms; out of test mode writes
of INJ_KEY and INJ_CTRL change nothing. -/
def Obligations.InjectionArming : Prop :=
  ∀ s : State,
    (∀ v : Word, v.toNat < 65536 → s.dev.writable .lint0 = true →
      (s.dev.on DEV.TEST_MODE = true → ∃ t, exec (.injKeyWrite v) s = .next t ∧
        (v.toNat = 0xC0DE → t.dev.on LINT.INJ_ARMED = true) ∧
        (v.toNat ≠ 0xC0DE → t.dev.on LINT.INJ_ARMED = false ∧ t.dev.lint.injRail = none ∧ t.dev.on LINT.INJ_ACTIVE = false)) ∧
      (s.dev.on DEV.TEST_MODE = false → exec (.injKeyWrite v) s = .next s)) ∧
    (∀ v : Word, s.dev.on DEV.TEST_MODE = false → s.dev.wordMisuse .lint0 0 0x84 v.toNat = none → exec (.injCtrlWrite v) s = .next s) ∧
    (∀ t, exec .resetNLow s = .next t → s.dev.host.resetLow = false → t.dev.on LINT.INJ_ARMED = false ∧ t.dev.lint.injRail = none)

/-- The load ceiling at a port's start (R31): above the ceiling of the programme in effect the command completes with BUSY, sets
LOAD_REFUSED with its event (R76), and has no side effect; within it the port is started, where a pinned port finds room in its lane. -/
def Obligations.PortStartKeepsTheCeiling : Prop :=
  ∀ (s : State) (tag : Fin 4096) (c : Inflight), s.dev.ready 2 tag = some c → c.args.getD 0 0 ≤ 511 →
    s.dev.enabled (c.args.getD 0 0) = false → s.dev.needle.loaded = true → s.dev.startOverPins (c.args.getD 0 0) = false →
    (16384 * ceilingPct s.dev.prog < (s.dev.loadUnits + s.dev.portUnits (c.args.getD 0 0)) * 100 →
      ∃ t, exec (.cmdPortStart tag) s = .next t ∧ t.dev.on DEV.LOAD_REFUSED = true ∧
        (t.dev.rd (HDR.EVT_STATUS .dev)).testBit 10 = true ∧
        s.dev.framed (completionPlaces ++ fieldsAll [DEV.LOAD_REFUSED]) [.signals, .commands] t.dev ∧
        t.dev.rd DEV.CMD_BUSY = min (2 ^ DEV.CMD_BUSY.width - 1) (s.dev.rd DEV.CMD_BUSY + 1) ∧ t.dev.findCmd tag = none) ∧
    ((s.dev.loadUnits + s.dev.portUnits (c.args.getD 0 0)) * 100 ≤ 16384 * ceilingPct s.dev.prog →
      (s.dev.on PORT.LANE_PIN (c.args.getD 0 0) = false ∨ (s.dev.lanePorts (s.dev.laneOf (c.args.getD 0 0))).length < 64) →
      ∃ t, exec (.cmdPortStart tag) s = .next t ∧ t.dev.enabled (c.args.getD 0 0) = true ∧ t.dev.findCmd tag = none)

/-- Commands that are not legal in the device state (R65): they complete with WRONG_STATE, which DEV.CMD_REJECT counts and CMD_REJECTED shows,
and they have no side effect. -/
def Obligations.IllegalCommandsAreRejected : Prop :=
  ∀ (s : State) (tag : Fin 4096) (c : Inflight), s.dev.findCmd tag = some c → c.started = false → s.dev.waits c = false →
    legalIn c.code s.dev.mode = false →
    ∀ i ∈ [(1, Instr.cmdPageSwap tag), (2, .cmdPortStart tag), (3, .cmdPortStop tag), (4, .cmdProgramme tag), (9, .cmdRecExtract tag),
      (10, .cmdPlay tag), (11, .cmdPlaceApply tag), (12, .cmdFlashWrite tag), (14, .cmdPmSnapshot tag)],
      i.1 = c.code → ∃ t, exec i.2 s = .next t ∧ (t.dev.rd (HDR.EVT_STATUS .dev)).testBit 0 = true ∧
        min (2 ^ DEV.CMD_REJECT.width - 1) (s.dev.rd DEV.CMD_REJECT + 1) ≤ t.dev.rd DEV.CMD_REJECT ∧
        (∀ x ∈ t.dev.host.inflight, x.tag ≠ c.tag) ∧ s.dev.framed completionPlaces [.signals, .commands] t.dev

/-- A write of 1 clears an event bit and leaves the others, and a condition still present does not set it again (R55): EVT_STATUS of a
PORT page. -/
def Obligations.EventBitsClearByOne : Prop :=
  ∀ (s : State) (n : Fin 512) (v : Word), s.dev.host.resetLow = false → s.dev.writable .port = true →
    s.dev.wordMisuse .port n 0x10 v.toNat = none →
    ∃ t, exec (.registerWrite (Fin.ofNat _ (0x100000 + 4096 * n.val + 0x10)) 2 (v.zeroExtend 64)) s = .next t ∧
      t.dev.rd (HDR.EVT_STATUS .port) n = s.dev.rd (HDR.EVT_STATUS .port) n - (s.dev.rd (HDR.EVT_STATUS .port) n &&& v.toNat) ∧
      t.dev.rd (HDR.LEVEL .port) n = s.dev.rd (HDR.LEVEL .port) n

/-- The words of the instructions of R416 and R417 read back: encoded and decoded, every instruction is itself, and the word has 24 bits. -/
def Obligations.NeedleDecodeOfEncode : Prop :=
  ∀ i : NInstr, ndecode (nencode i) = some i ∧ nencode i < 2 ^ 24

/-- The results of opcode 0x00 (R418) on 20-bit words. A shift goes by the whole of b, as this model reads the rule (DEDUCED, log entry 88). -/
def Obligations.NeedleFunctions : Prop :=
  ∀ (f : NFlags) (a b : W20),
    let r (fn : AluFn) := (alu fn f a.toNat b.toNat).1
    r .add = some (a + b).toNat ∧ r .adc = some (a + b + (BitVec.ofBool f.c).zeroExtend 20).toNat ∧ r .sub = some (a - b).toNat ∧
    r .sbc = some (a - b - (BitVec.ofBool (!f.c)).zeroExtend 20).toNat ∧ r .and = some (a &&& b).toNat ∧ r .or = some (a ||| b).toNat ∧
    r .xor = some (a ^^^ b).toNat ∧ r .not = some (~~~a).toNat ∧ r .shl = some (a <<< b.toNat).toNat ∧ r .shr = some (a >>> b.toNat).toNat ∧
    r .asr = some (a.sshiftRight b.toNat).toNat ∧ r .rol = some (a.rotateLeft (b.toNat % 32 % 20)).toNat ∧ r .mul = some (a * b).toNat ∧
    r .mulh = some (a.toNat * b.toNat / 2 ^ 20) ∧ r .min = some (if b.slt a then b else a).toNat ∧
    r .max = some (if a.slt b then b else a).toNat ∧ r .cmp = none ∧ r .tst = none ∧ r .mov = some a.toNat ∧
    (∃ v, r .brev10 = some v ∧ v < 1024 ∧ ∀ i < 10, v.testBit i = a.getLsbD (9 - i)) ∧
    r .popc = some ((List.range 20).countP (fun i => a.getLsbD i)) ∧
    (∃ k, r .clz = some k ∧ k ≤ 20 ∧ a.toNat < 2 ^ (20 - k) ∧ (k < 20 → 2 ^ (19 - k) ≤ a.toNat)) ∧
    r .gray = some (a ^^^ (a >>> 1)).toNat ∧ (∃ g : W20, r .ungray = some g.toNat ∧ g ^^^ (g >>> 1) = a) ∧
    r .parity = some ((List.range 20).countP (fun i => a.getLsbD i) % 2)

/-- The flags of opcode 0x00 (R419): Z, C and N of each function. -/
def Obligations.NeedleFlags : Prop :=
  ∀ (f : NFlags) (a b : W20),
    let x (fn : AluFn) := (alu fn f a.toNat b.toNat).2
    (∀ fn v, (alu fn f a.toNat b.toNat).1 = some v → (x fn).z = (v == 0) ∧ (x fn).n = v.testBit 19) ∧
    (x .add).c = decide (2 ^ 20 ≤ a.toNat + b.toNat) ∧ (x .adc).c = decide (2 ^ 20 ≤ a.toNat + b.toNat + f.c.toNat) ∧
    (x .sub).c = decide (b.toNat ≤ a.toNat) ∧ (x .sbc).c = decide (b.toNat + (!f.c).toNat ≤ a.toNat) ∧
    x .cmp = ⟨a == b, decide (b.toNat ≤ a.toNat), a.slt b⟩ ∧ x .tst = ⟨a &&& b == 0, f.c, (a &&& b).msb⟩ ∧
    (∀ fn ∈ [AluFn.and, .or, .xor, .not, .mul, .mulh, .min, .max, .mov, .brev10, .popc, .clz, .gray, .ungray, .parity], (x fn).c = f.c) ∧
    (b.toNat = 0 → ∀ fn ∈ [AluFn.shl, .shr, .asr, .rol], (x fn).c = f.c) ∧
    (0 < b.toNat → b.toNat ≤ 20 → (x .shl).c = a.getLsbD (20 - b.toNat) ∧ (x .shr).c = a.getLsbD (b.toNat - 1) ∧
      (x .asr).c = a.getLsbD (b.toNat - 1))

/-- What an engine instruction leaves as it was (R413, R415, R417): the other registers, stores, engines, ports and every other part of the
device; the engine's PC and accounts move on. Addresses outside the data store and the shared store are not meant; of WAIT and BRK, which end the
invocation, the last two clauses speak. -/
def Obligations.NeedleFrames : Prop :=
  (∀ (s t : State) (e : Fin 96) (iv : Invocation) (i : NInstr), s.dev.fetches e iv i → s.dev.inBudget e iv = true →
    (∀ m, i ≠ .wait m) → i ≠ .brk →
    (∀ op r b o, i = .mem op r b o → (0x4000 ≤ s.dev.naddr e b o ∧ s.dev.naddr e b o < 0x8000) ∨ (op ≠ .xch ∧ s.dev.naddr e b o < 0x800)) →
    exec (i.row e) s = .next t →
      s.dev.framed (fieldsAt e [NDL.N, NDL.FLAGS, NDL.DATA]) [.needle, .lines] t.dev ∧
      (∀ q, q ≠ e.val → t.dev.engine q = s.dev.engine q) ∧
      t.dev.engine e = { s.dev.engine e with
        pc := (t.dev.engine e).pc
        executed := (s.dev.engine e).executed + 1
        used := (s.dev.engine e).used + if iv.ev.port = none then 1 else 0 } ∧
      t.dev.needle = { s.dev.needle with
        engines := t.dev.needle.engines
        shared := t.dev.needle.shared } ∧
      (∀ n, t.dev.port n = { s.dev.port n with used := (s.dev.port n).used + if iv.ev.port = some n then 1 else 0 }) ∧
      t.dev.lines = { s.dev.lines with ports := t.dev.lines.ports } ∧
      ((∀ r b o, i ≠ .mem .st r b o) → ∀ a < 2048, t.dev.rd NDL.DATA e a = s.dev.rd NDL.DATA e a) ∧
      ((∀ op r b o, i = .mem op r b o → op = .ld) → t.dev.needle.shared = s.dev.needle.shared) ∧
      (∀ op r b o a, i = .mem op r b o → a ≠ e.val / 8 * 16384 + (s.dev.naddr e b o - 0x4000) →
        FMap.get 0 t.dev.needle.shared a = FMap.get 0 s.dev.needle.shared a)) ∧
  (∀ (s t : State) (e : Fin 96) (iv : Invocation) (m : Fin 1024), s.dev.fetches e iv (.wait m) → s.dev.inBudget e iv = true →
    exec (.wait e) s = .next t →
      s.dev.framed (condAt .ndl e ++ fieldsAt e [HDR.STATE .ndl, NDL.PC, NDL.WAIT_MASK]) [.signals, .needle, .lines] t.dev ∧
      (∀ q, q ≠ e.val → t.dev.engine q = s.dev.engine q) ∧ t.dev.needle.shared = s.dev.needle.shared) ∧
  (∀ (s t : State) (e : Fin 96) (iv : Invocation), s.dev.fetches e iv .brk → s.dev.inBudget e iv = true → exec (.brk e) s = .next t →
      s.dev.framed (condAt .ndl e ++ fieldsAt e [HDR.ENABLE .ndl, HDR.STATE .ndl, NDL.NF_CAUSE, NDL.NF_CUST, NDL.NF_PC, NDL.NF_PORT,
        NDL.NF_VALID, NDL.PC]) [.signals, .needle, .lines] t.dev ∧
      (∀ q, q ≠ e.val → t.dev.engine q = s.dev.engine q) ∧ t.dev.needle.shared = s.dev.needle.shared)

/-- A write through the aperture and the read back (R357, R358, R371): the bytes written are read, every other byte of the Hamper keeps its
value, and the memory keeps its canonical form. -/
def Obligations.ApertureStores : Prop :=
  ∀ (s : State) (off : Fin 1073741824) (data : List Byte), data ≠ [] → data.length ≤ 4096 → s.dev.on HAMPER.WIN_BUSY = false →
    s.dev.hamperOnline = true → s.dev.apertureLa off + data.length ≤ s.dev.capacity → s.dev.laWritable (s.dev.apertureLa off) = true →
    s.dev.laWritable (s.dev.apertureLa off + (data.length - 1)) = true →
    ∃ t, exec (.apertureWrite off data) s = .next t ∧
      (∀ len : Fin 4097, len.val = data.length → ∃ r, exec (.apertureRead off len false) t = .next r ∧
        r.dev.host.out = .readData (data.map (fun b => b.toNat)) :: s.dev.host.out) ∧
      (∀ a, a < s.dev.apertureLa off ∨ s.dev.apertureLa off + data.length ≤ a → t.dev.ddrByte a = s.dev.ddrByte a) ∧
      (FMap.wf 0 s.dev.hamper.mem = true → FMap.wf 0 t.dev.hamper.mem = true)

/-- The rate-1/2 code of R190: the coded bits of an input bit from the six before it, the newest in bit 0 of the state. -/
def Obligations.EncoderFollowsGenerators : Prop :=
  ∀ (u u1 u2 u3 u4 u5 u6 : Bool),
    let s := u1.toNat + 2 * u2.toNat + 4 * u3.toNat + 8 * u4.toNat + 16 * u5.toNat + 32 * u6.toNat
    convBits s u = (u ^^ u1 ^^ u2 ^^ u3 ^^ u6, u ^^ u2 ^^ u3 ^^ u5 ^^ u6) ∧
      convNext s u = u.toNat + 2 * u1.toNat + 4 * u2.toNat + 8 * u3.toNat + 16 * u4.toNat + 32 * u5.toNat ∧
      (encode [u] 0 0 s).1 = [(convBits s u).1, (convBits s u).2]

/-- Host accesses, baskets and rings (R16, R49, R50, R53, R59, R61, R446 to R456): what each of these commands leaves as it was. -/
def Obligations.HostFrames : Prop :=
  ∀ s t : State,
    (exec .timebaseLoRead s = .next t → s.dev.framed (fieldsAll [DEV.TIMEBASE_HI]) [.signals] t.dev) ∧
    (∀ (value : Word), exec (.vecAckWrite value) s = .next t → s.dev.framed ([]) [.signals] t.dev) ∧
    (∀ (vector : Fin 128), exec (.msixUnmask vector) s = .next t → s.dev.framed ([]) [.signals, .host] t.dev) ∧
    (∀ (page : Fin 2) (entry : Fin 32768) (high : Bool) (value : Word), exec (.cmemHalfWrite page entry high value) s = .next t →
      s.dev.framed (eventAt .mangle 0 ++ fieldsAll [MANGLE.CM_WR_DROP, MANGLE.ENTRIES, PAIR.JRN_OVERFLOW]) [.signals, .host, .mangle,
      .pair] t.dev) ∧
    (∀ (word : Fin 4096) (value : Word), exec (.cmdSlotWrite word value) s = .next t → s.dev.framed (fieldsAll [HDR.EVT_STATUS .ndl] ++
      ringPlaces ++ fieldsAll [HOSTQ.DCC_TX_DROP, HOSTQ.IN_CREDIT, HOSTQ.IN_FLUSH_DISCARD, HOSTQ.IN_ITEM_ABORT, HOSTQ.MBX_CHK_ERR,
      NDL.HOOK_DROP, NDL.QUEUE, PORT.HOOKS_SKIPPED]) [.signals, .baskets, .lines, .needle] t.dev) ∧
    (∀ (basket : Fin 14) (value : Word), exec (.pushHeadWrite basket value) s = .next t → s.dev.framed (fieldsAll [HDR.EVT_STATUS .ndl] ++
      ringPlaces ++ fieldsAll [HOSTQ.DCC_TX_DROP, HOSTQ.IN_CREDIT, HOSTQ.IN_ITEM_ABORT, HOSTQ.MBX_CHK_ERR, NDL.HOOK_DROP, NDL.QUEUE,
      PORT.HOOKS_SKIPPED]) [.signals, .baskets, .lines, .needle] t.dev) ∧
    (∀ (basket : Fin 14) (value : Word), exec (.pushDataWrite basket value) s = .next t → s.dev.framed (fieldsAll [HDR.EVT_STATUS .ndl] ++
      ringPlaces ++ fieldsAll [HOSTQ.DCC_TX_DROP, HOSTQ.IN_CREDIT, HOSTQ.IN_FLUSH_DISCARD, HOSTQ.MBX_CHK_ERR, NDL.HOOK_DROP, NDL.QUEUE,
      PORT.HOOKS_SKIPPED]) [.signals, .baskets, .lines, .needle] t.dev) ∧
    (∀ (ring : Fin 15) (value : Word), exec (.ringCiWrite ring value) s = .next t → s.dev.framed (fieldsAll [DEV.CMD_INFLIGHT, HOSTQ.CPL_WAIT,
      HOSTQ.RING_CI, HOSTQ.RING_ITEMS, HOSTQ.RING_PI]) [.signals, .commands] t.dev) ∧
    (∀ (ring : Fin 15) (value : Word), exec (.ringEnableWrite ring value) s = .next t → s.dev.framed (wordAt .hostq 0 (0x200 + 32 * ring.val) ++
      fieldsAll [DEV.CMD_INFLIGHT, HOSTQ.CPL_WAIT, HOSTQ.RING_CI, HOSTQ.RING_GEN]) [.signals, .commands, .baskets, .pair] t.dev) ∧
    (exec .commandTake s = .next t → s.dev.framed (completionPlaces ++ fieldsAll [HOSTQ.IN_CREDIT]) [.signals, .commands, .baskets,
      .pair] t.dev) ∧
    (exec .perstAssert s = .next t → s.dev.framed (fieldsAll [DEV.CMD_INFLIGHT, HOSTQ.CPL_WAIT, HOSTQ.IN_CREDIT, HOSTQ.IN_GEN,
      HOSTQ.RING_ENABLE, NDL.QUEUE]) [.signals, .commands, .baskets, .host, .needle] t.dev) ∧
    (exec .pcieEndpointReturn s = .next t → s.dev.framed (eventAt .dev 0) [.signals, .host] t.dev) ∧
    (∀ (width : Fin 4) (rate : Fin 5) (aer : Bool), exec (.pcieLinkChange width rate aer) s = .next t →
      s.dev.framed (eventAt .dev 0) [.signals, .host] t.dev)

/-- Command starts and their ends (R63 to R67): what each of these commands leaves as it was. -/
def Obligations.CommandFrames : Prop :=
  ∀ s t : State,
    (∀ (tag : Fin 4096), exec (.cmdPageSwap tag) s = .next t → s.dev.framed (completionPlaces ++ fieldsAll [MANGLE.SWAP_PENDING]) [.signals,
      .commands, .mangle, .pair] t.dev) ∧
    (∀ (tag : Fin 4096), exec (.cmdPortStart tag) s = .next t → s.dev.framed (completionPlaces ++ fieldsAll [HDR.EVT_STATUS .port,
      HDR.LEVEL .port] ++ ringPlaces ++ fieldsAll [DEV.LOAD_REFUSED, DEV.LOAD_UNITS, PORT.ACQ_STATE, PORT.ACT_STATE, PORT.ENGINE, PORT.LANE,
      PORT.LC_ACTIVE, PORT.NDL_PEAK, PORT.NO_ANSWER, PORT.OFFERS, PORT.PAM_FAILS, PORT.PORT_FAILED, PORT.SD_CLR, PORT.SD_CLR_K,
      PORT.SD_DECL, PORT.SD_K, PORT.SF_CLR, PORT.SF_CLR_K, PORT.SF_DECL, PORT.SF_K, PORT.STN_FAILED, PORT.TOTAL, TRIB.BANK, TRIB.SD_TRIG,
      TRIB.TRIB_FAILED]) [.free, .signals, .commands, .arch, .line, .sys, .lines, .needle, .pair] t.dev) ∧
    (∀ (tag : Fin 4096), exec (.cmdPortStop tag) s = .next t → s.dev.framed (completionPlaces ++ faultPlaces ++ fieldsAll [DEV.LOAD_UNITS,
      DEV.MIG_BUSY, PORT.FORCE_HUNT, HDR.LEVEL .port, NDL.QUEUE, PORT.ACQ_STATE, PORT.ACTIVE_MASK, PORT.ACT_STATE, PORT.LC_ACTIVE,
      PORT.PORT_FAILED, PORT.STN_AIS,
      PORT.STN_FAILED, PORT.STN_LOF, PORT.STN_LOMF, PORT.STN_LOS, PORT.STN_PLM, PORT.STN_RDI, PORT.STN_SD, PORT.STN_SF, PORT.STN_TIM,
      PORT.STN_UNEQ, PORT.TOTAL, PORT.TX_RDI, STN.STN_STATE, TRIB.SD_TRIG, TRIB.TRIB_FAILED, TRIB.T_PLM, TRIB.T_UNEQ]) [.signals, .commands,
      .arch, .faults, .sys, .lines, .needle, .pair] t.dev) ∧
    (∀ (tag : Fin 4096), exec (.cmdCalRun tag) s = .next t → s.dev.framed (completionPlaces ++ fieldsAll [STARCH.CAL_BUSY]) [.calFrom, .signals,
      .commands, .starch, .pair] t.dev) ∧
    (∀ (tag : Fin 4096), exec (.cmdBist tag) s = .next t → s.dev.framed (completionPlaces ++ eventAt .bist 0 ++ condAt .pair 0 ++
      fieldsAll [BIST.FAIL_ITEM, BIST.ITEM, BIST.LAST_RUN_TB, BIST.PART_FAILED, BIST.RUNNING, BIST.SLICES_FAILED, BIST.SLICES_RUN,
      DEV.TSTATE, HDR.STATE .hamper, JLANE.CDR_LOCK, JLANE.EMB_LOCK, JLANE.LINK_STATE, JLANE.SH_LOCK, PAIR.CKPT_GEN_HI, PAIR.CKPT_GEN_LO,
      PAIR.HB_OK, PAIR.JSEQ, PAIR.LANE_UP, PAIR.MATE_UP, PAIR.OWN_HEALTH, PAIR.PEER_CLAIMS, PAIR.ROLE, PAIR.SYNCED]) [.signals, .commands,
      .line, .lint, .sys, .pair] t.dev) ∧
    (∀ (tag : Fin 4096), exec (.cmdCkptForce tag) s = .next t → s.dev.framed (completionPlaces) [.signals, .commands, .pair] t.dev) ∧
    (∀ (tag : Fin 4096), exec (.cmdRecExtract tag) s = .next t → s.dev.framed (completionPlaces ++ fieldsAll [HAMPER.EXTRACTS]) [.signals,
      .commands, .hamper, .pair] t.dev) ∧
    (∀ (tag : Fin 4096) (ue : List Nat), exec (.extractDone tag ue) s = .next t → s.dev.framed (completionPlaces ++
      fieldsAll [HAMPER.EXTRACTS]) [.signals, .commands, .hamper, .pair] t.dev) ∧
    (∀ (tag : Fin 4096), exec (.cmdPlay tag) s = .next t → s.dev.framed (completionPlaces) [.signals, .commands, .hamper, .pair] t.dev) ∧
    (∀ (tag : Fin 4096), exec (.playStart tag) s = .next t → s.dev.framed (completionPlaces ++ eventAt .hamper 0 ++ fieldsAll [HAMPER.PLAYS,
      HAMPER.PLAY_ERR]) [.signals, .commands, .hamper, .pair] t.dev) ∧
    (∀ (tag : Fin 4096), exec (.cmdPlaceApply tag) s = .next t → s.dev.framed (completionPlaces) [.signals, .commands, .arch, .pair] t.dev) ∧
    (∀ (tag : Fin 4096), exec (.cmdFlashWrite tag) s = .next t → s.dev.framed (completionPlaces) [.signals, .commands, .host, .pair] t.dev) ∧
    (∀ (ok : Bool), exec (.flashWriteDone ok) s = .next t → s.dev.framed (completionPlaces) [.signals, .commands, .host, .pair] t.dev) ∧
    (∀ (ok : Bool), exec (.journalWriteDone ok) s = .next t → s.dev.framed (eventAt .dev 0) [.signals, .host] t.dev) ∧
    (∀ (tag : Fin 4096), exec (.cmdPmSnapshot tag) s = .next t → s.dev.framed (completionPlaces) [.signals, .commands, .lines, .pair] t.dev) ∧
    (exec .pmSnapshotCopy s = .next t → s.dev.framed (completionPlaces ++ fieldsAll [PORT.SNAP1, PORT.SNAP15]) [.signals, .commands, .lines,
      .pair] t.dev)

/-- Programme changes, moves and lane resets (R24, R33, R39 to R41): what each of these commands leaves as it was. -/
def Obligations.ProgrammeFrames : Prop :=
  ∀ s t : State,
    (∀ (tag : Fin 4096), exec (.cmdProgramme tag) s = .next t → s.dev.framed (completionPlaces ++ fieldsAll [DEV.PROG_BUSY, DEV.PROG_TARGET,
      STARCH.AVS_TARGET]) [.signals, .commands, .arch, .pair] t.dev) ∧
    (∀ (millivolt : Nat), exec (.vddCoreSettled millivolt) s = .next t → s.dev.framed (completionPlaces ++ faultPlaces ++ eventAt .starch 0 ++
      fieldsAll [DEV.BOOT_STEP, DEV.LANE_CAP, DEV.PROG_ACTIVE, DEV.PROG_ADVICE, DEV.PROG_BUSY, DEV.PROG_TARGET, STARCH.AVS_READ,
      STARCH.AVS_TARGET, STARCH.AVS_TIMEOUTS]) [.signals, .commands, .host, .arch, .faults, .lines, .pair] t.dev) ∧
    (exec .progTapWalkStep s = .next t → s.dev.framed (completionPlaces ++ fieldsAll [DEV.PROG_ADVICE, DEV.PROG_BUSY,
      STARCH.AVS_TARGET]) [.signals, .commands, .arch, .starch, .pair] t.dev) ∧
    (exec .progParamApply s = .next t → s.dev.framed (completionPlaces ++ fieldsAll [DEV.LANE_CAP, DEV.PROG_ACTIVE, DEV.PROG_ADVICE,
      DEV.PROG_BUSY]) [.signals, .commands, .arch, .lines, .pair] t.dev) ∧
    (exec .avsTimeout s = .next t → s.dev.framed (faultPlaces ++ eventAt .dev 0 ++ eventAt .starch 0 ++ fieldsAll [DEV.BOOT_STEP, DEV.LANE_CAP,
      DEV.PROG_ACTIVE,
      DEV.PROG_ADVICE, DEV.PROG_BUSY, DEV.PROG_TARGET, STARCH.AVS_TARGET, STARCH.AVS_TIMEOUTS]) [.signals, .host, .arch, .faults,
      .lines] t.dev) ∧
    (∀ (reading : Option Nat), exec (.avsRead reading) s = .next t → s.dev.framed (faultPlaces ++ condAt .starch 0 ++
      fieldsAll [STARCH.AVS_CRC_ERR, STARCH.AVS_READ]) [.signals, .faults, .starch] t.dev) ∧
    (∀ (port : Fin 512), exec (.contextCopyDone port) s = .next t → s.dev.framed (completionPlaces ++ fieldsAll [DEV.MIG_BUSY, DEV.MIG_COUNT,
      DEV.PROG_BUSY, DEV.PROG_TARGET, STARCH.AVS_TARGET] ++ fieldsAt port [PORT.LANE]) [.signals, .commands, .arch, .pair] t.dev) ∧
    (∀ (port : Fin 512), exec (.portMoveSwitch port) s = .next t → s.dev.framed ([]) [.arch] t.dev) ∧
    (∀ (lane : Fin 16), exec (.laneResetStart lane) s = .next t → s.dev.framed (ringPlaces ++ fieldsAll [DEV.LANE_RESET, DEV.MISS_WINDOW,
      LINT.SHADOWS, PORT.ACT_STATE, PORT.CRC_NONE_MF, PORT.SIG_HELD, TRIB.SIG_RX]) [.signals, .arch, .line, .lint, .lines] t.dev) ∧
    (∀ (lane : Fin 16), exec (.laneResetEnd lane) s = .next t → s.dev.framed (fieldsAll [LINT.SHADOWS]) [.arch, .lint] t.dev) ∧
    (exec .overrunAdviceExpire s = .next t → s.dev.framed (eventAt .dev 0 ++ fieldsAll [DEV.PROG_ADVICE]) [.signals, .arch] t.dev) ∧
    (∀ (port : Fin 512), exec (.portMissWindowClear port) s = .next t → s.dev.framed ([]) [.arch] t.dev)

/-- Links, pins, gains and the SPI masters (R78 to R105): what each of these commands leaves as it was. -/
def Obligations.LineSideFrames : Prop :=
  ∀ s t : State,
    (∀ (lane : Fin 48) (value : Word), exec (.jlaneEnableWrite lane value) s = .next t → s.dev.framed (wordAt .jlane lane 8 ++
      fieldsAll [JLANE.CDR_LOCK, JLANE.E, JLANE.EMB_LOCK, JLANE.F, JLANE.LINK_STATE, JLANE.SH_LOCK]) [.signals, .line, .pair] t.dev) ∧
    (∀ (link : Fin 32), exec (.linkSyncDone link) s = .next t → s.dev.framed (fieldsAll [HDR.EVT_STATUS .jlane] ++ ringPlaces ++
      fieldsAll [AFEC.BUSY, JLANE.CDR_LOCK, JLANE.EMB_LOCK, JLANE.LINK_STATE, JLANE.SH_LOCK]) [.signals, .line] t.dev) ∧
    (∀ (link : Fin 32), exec (.linkSyncTimeout link) s = .next t → s.dev.framed (faultPlaces ++ fieldsAll [HDR.EVT_STATUS .jlane] ++
      ringPlaces ++ fieldsAll [JLANE.CDR_LOCK, JLANE.EMB_LOCK, JLANE.LINK_STATE, JLANE.SH_LOCK]) [.signals, .line, .faults] t.dev) ∧
    (∀ (link : Fin 32), exec (.linkRetry link) s = .next t → s.dev.framed (fieldsAll [JLANE.CDR_LOCK, JLANE.EMB_LOCK, JLANE.LINK_STATE,
      JLANE.SH_LOCK]) [.line] t.dev) ∧
    (∀ (link : Fin 32) (why : LinkLoss), exec (.linkDown link why) s = .next t → s.dev.framed (faultPlaces ++
      fieldsAll [HDR.EVT_STATUS .jlane] ++ ringPlaces ++ fieldsAll [JLANE.CDR_LOCK, JLANE.EMB_LOCK, JLANE.LINK_STATE, JLANE.SH_ERR,
      JLANE.SH_LOCK]) [.signals, .line, .faults] t.dev) ∧
    (∀ (lane : Fin 48), exec (.jesdCrc12Error lane) s = .next t → s.dev.framed (eventAt .jlane lane ++
      fieldsAt lane [JLANE.CRC12_ERR]) [.signals] t.dev) ∧
    (∀ (link : Fin 32) (frac : Fin 65536), exec (.sysrefEdge link frac) s = .next t → s.dev.framed (faultPlaces ++
      fieldsAll [HDR.EVT_STATUS .jlane] ++
      ringPlaces ++ fieldsAll [JLANE.CDR_LOCK, JLANE.EMB_LOCK, JLANE.LINK_STATE, JLANE.SH_LOCK, JLANE.SYSREF_MISALIGN]) [.signals, .line,
      .faults] t.dev) ∧
    (∀ (port : Fin 512) (first count : Nat), exec (.sampleFill port first count) s = .next t → s.dev.framed ([]) [.line] t.dev) ∧
    (∀ (master : Fin 4) (rx : Nat), exec (.afeSpiDone master rx) s = .next t → s.dev.framed (fieldsAll [AFEC.AFE_PRESENT, AFEC.BUSY]) [.signals,
      .line] t.dev) ∧
    (∀ (refTicks jrefTicks : Nat), exec (.refclkCountWindow refTicks jrefTicks) s = .next t → s.dev.framed (faultPlaces) [.signals,
      .line, .faults] t.dev) ∧
    (∀ (pin : Fin 16) (applied : Bool), exec (.gpioInputChange pin applied) s = .next t → s.dev.framed (eventAt .dev 0 ++
      fieldsAll [DEV.GPIO_CHANGED, DEV.GPIO_IN]) [.signals, .line] t.dev) ∧
    (∀ (word : Fin 128) (value : Word), exec (.portGainWrite word value) s = .next t → s.dev.framed (faultPlaces ++ eventAt .afec 0 ++
      fieldsAll [HDR.EVT_STATUS .port] ++ ringPlaces ++ fieldsAll [AFEC.BUSY, AFEC.GAIN_STATE, AFEC.GF_CAUSE, AFEC.GF_PORT, AFEC.GF_VALID,
      AFEC.PORT_GAIN, PAIR.JRN_OVERFLOW]) [.signals, .line, .faults, .pair] t.dev) ∧
    (∀ (port : Fin 512) (code : Nat) (settled : Bool), exec (.gainReadback port code settled) s = .next t → s.dev.framed (faultPlaces ++
      eventAt .afec 0 ++ eventAt .port port ++ fieldsAll [AFEC.BUSY, AFEC.GF_CAUSE, AFEC.GF_PORT, AFEC.GF_VALID] ++
      fieldsElem port [AFEC.GAIN_APPLIED, AFEC.GAIN_STATE]) [.signals, .line, .faults] t.dev) ∧
    (∀ (port : Fin 512), exec (.gainReadbackTimeout port) s = .next t → s.dev.framed (faultPlaces ++ eventAt .afec 0 ++ eventAt .port port ++
      fieldsAll [AFEC.BUSY, AFEC.GF_CAUSE, AFEC.GF_PORT, AFEC.GF_VALID] ++ fieldsElem port [AFEC.GAIN_STATE]) [.signals, .line,
      .faults] t.dev) ∧
    (∀ (port : Fin 512), exec (.gainAdviceUpdate port) s = .next t →
      s.dev.framed (fieldsElem port [AFEC.GAIN_ADVICE]) [.line] t.dev) ∧
    (∀ (master : Fin 4) (value : Word), exec (.afecHoldWrite master value) s = .next t → s.dev.framed (wordAt .afec 0 (0x40 + 4 * master.val) ++
      fieldsAll [AFEC.BUSY, AFEC.HELD, AFEC.HOLD]) [.signals, .line, .pair] t.dev) ∧
    (∀ (master : Fin 4), exec (.spiHeld master) s = .next t → s.dev.framed (eventAt .afec 0 ++ fieldsAll [AFEC.HELD]) [.signals, .line] t.dev) ∧
    (∀ (value : Word), exec (.afecRawGo value) s = .next t → s.dev.framed (wordAt .afec 0 0x60 ++ fieldsAll [AFEC.BUSY, AFEC.RAW_GO]) [.signals,
      .line, .pair] t.dev) ∧
    (∀ (rx : Nat), exec (.rawSpiDone rx) s = .next t → s.dev.framed (fieldsAll [AFEC.BUSY, AFEC.HELD, AFEC.HOLD, AFEC.RAW_GO,
      AFEC.RAW_RX]) [.signals, .line] t.dev)

/-- Port startup and shared ports (R124 to R165, R166 to R188): what each of these commands leaves as it was. -/
def Obligations.StartupFrames : Prop :=
  ∀ s t : State,
    (∀ (port : Fin 512) (ctx : Option Bool), exec (.chirpSymbolRx port ctx) s = .next t → s.dev.framed (eventAt .port port ++
      fieldsAll [TRIB.SIG_RX] ++ fieldsAt port [PORT.ABSENT_FRAMES, PORT.ACQ_STATE, PORT.ACTIVE_MASK, PORT.CAPTURED, PORT.COLL_A_STN,
      PORT.COLL_A_VALID, PORT.COLL_B_STN,
      PORT.COLL_B_VALID, PORT.COLL_DELTA, PORT.COLL_IGNORED, PORT.COLL_OUTCOME, PORT.COLL_TIME, PORT.COLL_WINDOW, PORT.CRC_NONE_MF,
      PORT.FALSE_DET,
      PORT.FORK_BOTH, PORT.FORK_NONE, PORT.FORK_ONE, PORT.JOIN_OK, PORT.JOIN_REJECT, PORT.LOST_DET, PORT.PRE_DET, PORT.PW_LAST,
      PORT.PW_REJECT, PORT.RX_FRAME_PHASE, PORT.SIG_HELD] ++ fieldsStns port [STN.JOINS, STN.NONCE, STN.STN_STATE, STN.S_WINDOW,
      STN.TA]) [.signals, .starch, .lines] t.dev) ∧
    (∀ (port : Fin 512), ∀ c ∈ [Instr.offerActWaitExpire port, .offerUpTimeout port], exec c s = .next t → s.dev.framed (eventAt .port port ++
      fieldsAt port [PORT.ACQ_STATE, PORT.FALLBACK_BLOCKED, PORT.NO_ANSWER, PORT.OFFERS, PORT.OFFER_FAIL]) [.signals, .arch, .lines] t.dev) ∧
    (∀ (port : Fin 512), exec (.pamPhaseEnd port) s = .next t → s.dev.framed (fieldsAt port [PORT.ACT_STATE, PORT.THRESH]) [.lines] t.dev) ∧
    (∀ (port : Fin 512), exec (.stationToneDetected port) s = .next t → s.dev.framed (fieldsAt port [PORT.ACT_STATE]) [.lines] t.dev) ∧
    (∀ (port : Fin 512), ∀ c ∈ [Instr.pamToneTimeout port, .markerWindowExpire port, .pamUpTimeout port], exec c s = .next t →
      s.dev.framed (condAt .port port ++ fieldsAll [TRIB.SIG_RX] ++ fieldsAt port [PORT.ACQ_STATE, PORT.ACT_STATE, PORT.CRC_NONE_MF,
      PORT.LC_ACTIVE, PORT.OFFERS, PORT.PAM_ACT_FAIL,
      PORT.PAM_FAILS, PORT.SIG_HELD]) [.signals, .arch, .line, .lines] t.dev) ∧
    (∀ (port : Fin 512) (back : Nat), exec (.stationMarkerAccepted port back) s = .next t → s.dev.framed (fieldsAll [TRIB.SIG_RX] ++
      fieldsAt port [PORT.ABSENT_FRAMES, PORT.ACT_STATE, PORT.CRC_NONE_MF, PORT.RX_FRAME_PHASE, PORT.SIG_HELD]) [.lines] t.dev) ∧
    (∀ (port : Fin 512), exec (.warmTimeout port) s = .next t → s.dev.framed ([]) [.lines] t.dev) ∧
    (∀ (port : Fin 512) (fork : Bool), exec (.burstHeaderRx port fork) s = .next t →
      s.dev.framed (eventAt .port port ++ fieldsAt port [PORT.ACTIVE_MASK, PORT.CAPTURED, PORT.COLL_A_STN, PORT.COLL_A_VALID,
      PORT.COLL_B_STN, PORT.COLL_B_VALID, PORT.COLL_DELTA, PORT.COLL_IGNORED, PORT.COLL_OUTCOME, PORT.COLL_TIME, PORT.COLL_WINDOW,
      PORT.FALSE_DET, PORT.FORK_BOTH, PORT.FORK_NONE, PORT.FORK_ONE, PORT.HDR_ERR, PORT.JOIN_OK, PORT.JOIN_REJECT, PORT.LOST_DET,
      PORT.RANGE_ERR, PORT.WRONG_WINDOW] ++ fieldsStns port [STN.JOINS, STN.LAST_OFFSET, STN.NONCE, STN.STN_STATE, STN.S_WINDOW,
      STN.TA]) [.signals, .lines] t.dev) ∧
    (∀ (port : Fin 512) (fork : Bool), exec (.burstPayloadRx port fork) s = .next t →
      s.dev.framed (fieldsAll [HDR.EVT_STATUS .ndl] ++ ringPlaces ++ condAt .port port ++ fieldsAll [NDL.HOOK_DROP, NDL.QUEUE,
      PORT.HOOKS_SKIPPED, TRIB.SD_TRIG,
      TRIB.TRIB_FAILED] ++ fieldsAt port [PORT.ACTIVE_MASK, PORT.ACT_STATE, PORT.ALIGN_COUNT, PORT.ALIGN_STATE, PORT.AMBIG_COUNT,
      PORT.BIT_POS, PORT.BURST_CHK_ERR, PORT.BURST_OK, PORT.CAPTURED, PORT.COLL_A_STN, PORT.COLL_A_VALID, PORT.COLL_B_STN,
      PORT.COLL_B_VALID, PORT.COLL_DELTA, PORT.COLL_IGNORED, PORT.COLL_OUTCOME, PORT.COLL_TIME, PORT.COLL_WINDOW, PORT.CRC_ERR_MF,
      PORT.CRC_GOOD_MF, PORT.CRC_NONE_MF, PORT.FALLBACK_BLOCKED, PORT.FALSE_DET, PORT.FAW_ERR, PORT.FORCE_HUNT, PORT.FA_LOSS, PORT.FORK_BOTH,
      PORT.FORK_NONE,
      PORT.FORK_ONE, PORT.JOIN_OK, PORT.JOIN_REJECT, PORT.LOST_DET, PORT.MFA_ERR, PORT.MFA_LOSS, PORT.NO_ANSWER,
      PORT.PAM_FAILS, PORT.PORT_FAILED, PORT.SD_WIN_ERR, PORT.SF_WIN_ERR, PORT.STN_CV, PORT.STN_FAILED, PORT.STN_LOF,
      PORT.STN_LOMF, PORT.STN_LOS, PORT.STN_SD, PORT.STN_SF, PORT.SURVIVORS,
      PORT.TOTAL] ++ fieldsStns port [STN.BURST_SNR, STN.JOINS, STN.NONCE, STN.STN_BURST_BAD, STN.STN_BURST_OK, STN.STN_STATE, STN.S_WINDOW,
      STN.TA, STN.TA_ADJUSTS]) [.free, .signals, .arch, .lines, .needle] t.dev) ∧
    (∀ (port : Fin 512) (window : Fin 16), exec (.burstMissed port window) s = .next t → s.dev.framed (fieldsAll [HDR.EVT_STATUS .ndl] ++
      ringPlaces ++ condAt .port port ++ fieldsAll [NDL.HOOK_DROP, NDL.QUEUE, PORT.HOOKS_SKIPPED, TRIB.SD_TRIG, TRIB.TRIB_FAILED] ++
      fieldsAt port [PORT.ACT_STATE, PORT.ALIGN_COUNT, PORT.ALIGN_STATE, PORT.AMBIG_COUNT, PORT.BIT_POS, PORT.BURST_MISSED, PORT.CRC_ERR_MF,
      PORT.CRC_GOOD_MF, PORT.CRC_NONE_MF, PORT.FALLBACK_BLOCKED, PORT.FAW_ERR, PORT.FORCE_HUNT, PORT.FA_LOSS, PORT.MFA_ERR,
      PORT.MFA_LOSS, PORT.NO_ANSWER, PORT.PAM_FAILS, PORT.PORT_FAILED, PORT.SD_WIN_ERR, PORT.SF_WIN_ERR, PORT.STN_CV,
      PORT.STN_FAILED, PORT.STN_LOF, PORT.STN_LOMF, PORT.STN_SD, PORT.STN_SF, PORT.SURVIVORS, PORT.TOTAL] ++
      fieldsStns port [STN.STN_BURST_BAD]) [.signals, .arch, .lines, .needle] t.dev) ∧
    (∀ (port : Fin 512) (stn : Fin 16), exec (.joinTimeout port stn) s = .next t → s.dev.framed (condAt .port port ++ fieldsAll [TRIB.SD_TRIG,
      TRIB.TRIB_FAILED, TRIB.T_PLM, TRIB.T_UNEQ] ++ fieldsAt port [PORT.ACTIVE_MASK, PORT.FALLBACK_BLOCKED, PORT.JOIN_REJECT,
      PORT.NO_ANSWER, PORT.PORT_FAILED, PORT.STN_AIS, PORT.STN_FAILED, PORT.STN_LOF, PORT.STN_LOMF, PORT.STN_LOS, PORT.STN_PLM,
      PORT.STN_RDI, PORT.STN_SD, PORT.STN_SF, PORT.STN_TIM, PORT.STN_UNEQ, PORT.TOTAL] ++ fieldsStns port [STN.STN_STATE]) [.signals, .arch,
      .lines] t.dev) ∧
    (∀ (port : Fin 512) (stn : Fin 16), exec (.stnLost port stn) s = .next t → s.dev.framed (fieldsAll [HDR.EVT_STATUS .ndl] ++ ringPlaces ++
      condAt .port port ++ fieldsAll [NDL.HOOK_DROP, NDL.QUEUE, PORT.HOOKS_SKIPPED, TRIB.SD_TRIG, TRIB.TRIB_FAILED] ++
      fieldsAt port [PORT.ACTIVE_MASK,
      PORT.FALLBACK_BLOCKED, PORT.NO_ANSWER, PORT.PORT_FAILED, PORT.STN_FAILED, PORT.STN_LOS, PORT.TOTAL] ++
      fieldsStns port [STN.STN_STATE]) [.signals, .arch, .lines, .needle] t.dev) ∧
    (∀ (port : Fin 512) (stn : Fin 16), exec (.stnDrop port stn) s = .next t → s.dev.framed (condAt .port port ++ fieldsAll [TRIB.SD_TRIG,
      TRIB.TRIB_FAILED, TRIB.T_PLM, TRIB.T_UNEQ] ++ fieldsAt port [PORT.ACTIVE_MASK, PORT.FALLBACK_BLOCKED, PORT.NO_ANSWER,
      PORT.PORT_FAILED, PORT.STN_AIS, PORT.STN_DROPS, PORT.STN_FAILED, PORT.STN_LOF, PORT.STN_LOMF, PORT.STN_LOS, PORT.STN_PLM,
      PORT.STN_RDI, PORT.STN_SD, PORT.STN_SF, PORT.STN_TIM, PORT.STN_UNEQ, PORT.TOTAL] ++ fieldsStns port [STN.STN_STATE]) [.signals, .arch,
      .lines] t.dev) ∧
    (∀ (port : Fin 512) (stn : Fin 16), exec (.stnLeave port stn) s = .next t → s.dev.framed (condAt .port port ++ fieldsAll [TRIB.SD_TRIG,
      TRIB.TRIB_FAILED, TRIB.T_PLM, TRIB.T_UNEQ] ++ fieldsAt port [PORT.ACTIVE_MASK, PORT.FALLBACK_BLOCKED, PORT.NO_ANSWER,
      PORT.PORT_FAILED, PORT.STN_AIS, PORT.STN_FAILED, PORT.STN_LOF, PORT.STN_LOMF, PORT.STN_LOS, PORT.STN_PLM, PORT.STN_RDI, PORT.STN_SD,
      PORT.STN_SF, PORT.STN_TIM, PORT.STN_UNEQ, PORT.TOTAL] ++ fieldsStns port [STN.STN_STATE]) [.signals, .arch, .lines] t.dev)

/-- Defects, overhead and abandoned frames (R23, R218 to R258): what each of these commands leaves as it was. -/
def Obligations.MonitoringFrames : Prop :=
  ∀ s t : State,
    (∀ (port : Fin 512) (rinsing : Option Nat), exec (.portFrameAbandon port rinsing) s = .next t → s.dev.framed (faultPlaces ++
      eventAt .dev 0 ++ condAt .port port ++ fieldsAll [DEV.DL_ABANDON, DEV.DL_DIR, DEV.DL_LANE, DEV.DL_MIGRATE, DEV.DL_MISS_TOTAL,
      DEV.DL_PORT, DEV.DL_STAGE, DEV.LANE_MISS, DEV.MISS_WINDOW, DEV.OVERRUN, DEV.PROG_ADVICE] ++ fieldsElem port [AFEC.RX_LEVEL] ++
      fieldsAt port [PORT.EC_ERLE, PORT.ERASURES_MF, PORT.LAYER_SNR, PORT.PAM_SNR,
      PORT.PRE_BITS_MF, PORT.PRE_ERR_MF, PORT.PRE_ERR_TOTAL, PORT.PRE_RATE, PORT.RX_LEVEL_NEC, PORT.SLIPS, PORT.SNR_EST, PORT.TOTAL,
      PORT.WANDER_HIT]) [.free, .signals, .arch, .line, .faults, .sys, .lines] t.dev) ∧
    (∀ (port : Fin 512) (stn : Fin 16), exec (.dccMessageRx port stn) s = .next t → s.dev.framed (fieldsAll [HDR.EVT_STATUS .ndl] ++
      ringPlaces ++ eventAt .port port ++ fieldsAll [NDL.HOOK_DROP, NDL.QUEUE, PORT.HOOKS_SKIPPED] ++ fieldsAt port [PORT.ALIVE_GAP,
      PORT.ALIVE_REPEAT,
      PORT.DCCL_CAUSE, PORT.DCCL_STN, PORT.DCCL_TYPE, PORT.DCC_CRC_ERR, PORT.DCC_FMT_ERR, PORT.DCC_RX_OK]) [.signals,
      .baskets, .lines, .needle] t.dev) ∧
    (∀ (port : Fin 512) (value : Word), exec (.forceHuntWrite port value) s = .next t → s.dev.framed (wordAt .port port 0x160 ++
      fieldsAt port [PORT.FORCE_HUNT]) [.signals, .pair] t.dev) ∧
    (∀ (port : Fin 512) (stn : Fin 16), ∀ c ∈ [Instr.sdWindowEnd port stn, .sfWindowEnd port stn], exec c s = .next t →
      s.dev.framed (fieldsAll [HDR.EVT_STATUS .ndl] ++ ringPlaces ++ condAt .port port ++ fieldsAll [NDL.HOOK_DROP, NDL.QUEUE,
      PORT.HOOKS_SKIPPED, TRIB.SD_TRIG,
      TRIB.TRIB_FAILED] ++ fieldsAt port [PORT.FALLBACK_BLOCKED, PORT.NO_ANSWER, PORT.PORT_FAILED, PORT.SD_WIN_ERR,
      PORT.SF_WIN_ERR, PORT.STN_FAILED, PORT.STN_SD,
      PORT.STN_SF, PORT.TOTAL]) [.signals, .arch, .lines, .needle] t.dev) ∧
    (∀ (port : Fin 512) (stn : Fin 16), exec (.defectFreezeEnd port stn) s = .next t → s.dev.framed (fieldsAll [HDR.EVT_STATUS .ndl] ++
      ringPlaces ++ fieldsAll [HDR.EVT_STATUS .port, HDR.LEVEL .port, NDL.HOOK_DROP, NDL.QUEUE, PORT.HOOKS_SKIPPED, PORT.PORT_FAILED,
      PORT.STN_FAILED, PORT.TOTAL, TRIB.SD_TRIG, TRIB.TRIB_FAILED, TRIB.T_PLM, TRIB.T_UNEQ] ++
      fieldsAt port [PORT.FALLBACK_BLOCKED, PORT.NO_ANSWER, PORT.STN_PLM, PORT.STN_TIM, PORT.STN_UNEQ]) [.signals, .arch, .lines,
      .needle] t.dev) ∧
    (∀ (port : Fin 512), exec (.labelRecheck port) s = .next t → s.dev.framed (fieldsAll [HDR.EVT_STATUS .ndl] ++ ringPlaces ++
      fieldsAll [HDR.EVT_STATUS .port, HDR.LEVEL .port, NDL.HOOK_DROP, NDL.QUEUE, PORT.HOOKS_SKIPPED, PORT.PORT_FAILED, PORT.STN_FAILED,
      PORT.TOTAL, TRIB.SD_TRIG, TRIB.TRIB_FAILED, TRIB.T_PLM, TRIB.T_UNEQ] ++
      fieldsAt port [PORT.FALLBACK_BLOCKED, PORT.NO_ANSWER, PORT.STN_PLM, PORT.STN_TIM]) [.signals, .arch, .lines, .needle] t.dev) ∧
    (∀ (port : Fin 512), exec (.txRdiStop port) s = .next t → s.dev.framed (fieldsAt port [PORT.TX_RDI]) [.lines] t.dev)

/-- Timing, trunk lanes and the connection memory (R268 to R290, R299 to R330): what each of these commands leaves as it was. -/
def Obligations.TimingFrames : Prop :=
  ∀ s t : State,
    (∀ (lowBefore highAfter : Nat), exec (.fsyncInEdge lowBefore highAfter) s = .next t → s.dev.framed (faultPlaces ++ eventAt .dev 0 ++
      fieldsAll [DEV.HOLD_FREQ, DEV.NCO_OFFSET, DEV.PHASE_ERR, DEV.SEL_ENTRY, DEV.SRC_FAILED, DEV.SRC_QUALIFIED, DEV.SRC_SWITCHES,
      DEV.TSTATE]) [.signals, .line, .faults, .sys] t.dev) ∧
    (exec .fsyncPeriodTimeout s = .next t → s.dev.framed (faultPlaces ++ eventAt .dev 0 ++ fieldsAll [DEV.HOLD_FREQ, DEV.NCO_OFFSET,
      DEV.SEL_ENTRY, DEV.SRC_FAILED, DEV.SRC_QUALIFIED, DEV.SRC_SWITCHES, DEV.TSTATE]) [.signals, .line, .faults, .sys] t.dev) ∧
    (∀ (entry : Fin 4), exec (.sourceQualified entry) s = .next t → s.dev.framed (eventAt .dev 0 ++ fieldsAll [DEV.HOLD_FREQ, DEV.NCO_OFFSET,
      DEV.SEL_ENTRY, DEV.SRC_FAILED, DEV.SRC_QUALIFIED, DEV.SRC_SWITCHES, DEV.TSTATE]) [.signals, .sys] t.dev) ∧
    (∀ c ∈ [Instr.tstateLocked, .tstateUnlocked], exec c s = .next t → s.dev.framed (fieldsAll [DEV.TSTATE]) [.sys] t.dev) ∧
    (exec .alignJump s = .next t → s.dev.framed (fieldsAll [DEV.ALIGN_JUMPS]) [.sys, .mangle] t.dev) ∧
    (exec .holdValidSet s = .next t → s.dev.framed (fieldsAll [DEV.HOLD_VALID]) [] t.dev) ∧
    (exec .wallclockTick s = .next t → s.dev.framed (fieldsAll [DEV.WALLCLOCK, PORT.TOTAL]) [.host, .lines] t.dev) ∧
    (∀ (buffer : SlipRef), exec (.slipBufferFrame buffer) s = .next t → s.dev.framed (fieldsAll [HDR.EVT_STATUS .trunk] ++ ringPlaces ++
      fieldsAll [DEV.PLEAT_HIT, DEV.TRK_FILL, DEV.TRUNK_SLIPS, PORT.SLIPS, PORT.SLIP_DROP, PORT.SLIP_FILL, PORT.SLIP_REPEAT]) [.signals,
      .arch, .sys, .lines, .mangle] t.dev) ∧
    (exec .pageCopyDone s = .next t → s.dev.framed (completionPlaces ++ eventAt .mangle 0 ++ fieldsAll [MANGLE.COPY_BUSY, MANGLE.SWAP_COUNT,
      MANGLE.SWAP_PENDING]) [.signals, .commands, .mangle, .pair] t.dev) ∧
    (∀ (ticks : Nat) (late : List (Fin 1048576)), exec (.mangleWalkStart ticks late) s = .next t → s.dev.framed (completionPlaces ++
      faultPlaces ++ eventAt .hamper 0 ++ eventAt .mangle 0 ++ fieldsAll [DEV.PAIR_COMMAND, DEV.PAIR_SELECTED, DEV.PAIR_SWITCHES,
      DEV.PAIR_TOP_REQ, DEV.PAIR_WTR_LEFT, HAMPER.PLAYS, HAMPER.PLAY_ERR, MANGLE.ACTIVE_PAGE, MANGLE.BAD_CAUSE, MANGLE.BAD_INDEX,
      MANGLE.BAD_PAGE, MANGLE.BAD_VALID, MANGLE.BIT_ERR, MANGLE.CM_BAD, MANGLE.COPY_BUSY, MANGLE.DUP_DST, MANGLE.ENTRIES, MANGLE.SWAP_COUNT,
      MANGLE.SWAP_PENDING, MANGLE.SYNC, MANGLE.SYNC_LOSS, MANGLE.USED, MANGLE.WALK_LAST, MANGLE.WALK_LATE, MANGLE.WALK_MAX, PAIR.GAP_FRAMES,
      PORT.COMMAND, PORT.LOCAL_REQ, PORT.REMOTE_REQ, PORT.SELECTED, PORT.SWITCHES, PORT.TOP_REQ, PORT.WTR_LEFT,
      TRIB.COMMAND, TRIB.PLEAT_SLIPS, TRIB.SWITCHES]) [.signals, .commands, .arch, .faults, .sys, .mangle, .hamper, .pair] t.dev) ∧
    (∀ (lane : Fin 8) (lock : Bool), exec (.trunkCdrChange lane lock) s = .next t → s.dev.framed (condAt .trunk lane ++
      fieldsAt lane [TRUNK.CDR_LOCK, TRUNK.DEFECTS, TRUNK.FAILED]) [.signals, .mangle] t.dev) ∧
    (∀ (lane : Fin 8), exec (.tlosClear lane) s = .next t → s.dev.framed (condAt .trunk lane ++ fieldsAt lane [TRUNK.DEFECTS,
      TRUNK.FAILED]) [.signals, .mangle] t.dev) ∧
    (∀ (lane : Fin 8), exec (.tsdWindowEnd lane) s = .next t → s.dev.framed (condAt .trunk lane ++ fieldsAt lane [TRUNK.DEFECTS, TRUNK.FAILED,
      TRUNK.TSD_WIN_ERR]) [.signals, .mangle] t.dev) ∧
    (∀ (lane : Fin 8) (value : Word), exec (.trunkEnableWrite lane value) s = .next t → s.dev.framed (wordAt .trunk lane 8 ++
      fieldsAll [DEV.HOLD_FREQ, DEV.NCO_OFFSET, DEV.SEL_ENTRY, DEV.SRC_FAILED, DEV.SRC_QUALIFIED, DEV.SRC_SWITCHES, DEV.TSTATE] ++
      fieldsAt lane [HDR.LEVEL .trunk, TRUNK.ALIGN, TRUNK.DEFECTS, TRUNK.FAILED, TRUNK.TSD_WIN_ERR]) [.signals, .sys, .mangle, .pair] t.dev)

/-- The Hamper (R354 to R380): what each of these commands leaves as it was. -/
def Obligations.HamperFrames : Prop :=
  ∀ s t : State,
    (∀ (fails : List (Fin 4)), exec (.ddrTrainingDone fails) s = .next t → s.dev.framed (faultPlaces ++ condAt .hamper 0 ++
      fieldsAll [HDR.STATE .hamper]) [.signals, .faults, .hamper] t.dev) ∧
    (exec .recordPeriodBoundary s = .next t → s.dev.framed (eventAt .hamper 0 ++ fieldsAll [HAMPER.REC_BLOCKS, HAMPER.REC_REFUSED,
      HAMPER.REC_RETENTION, HAMPER.REC_STREAMS, HAMPER.SEG_DROPS, TRIB.REC_ACTIVE, TRIB.REC_ACTIVE2, TRIB.REC_CH, TRIB.REC_RANK,
      TRIB.REC_REFUSED]) [.free, .signals, .hamper, .pair] t.dev) ∧
    (∀ (value : Word), exec (.recSizeWrite value) s = .next t → s.dev.framed (fieldsAll [HAMPER.REC_SIZE_GIB]) [.hamper] t.dev) ∧
    (∀ (value : Word), exec (.winBaseWrite value) s = .next t → s.dev.framed (wordAt .hamper 0 0x60 ++ fieldsAll [HAMPER.WIN_BUSY]) [.signals,
      .pair] t.dev) ∧
    (exec .winRemapDone s = .next t → s.dev.framed (fieldsAll [HAMPER.WIN_BUSY]) [] t.dev) ∧
    (∀ (off : Fin 1073741824) (len : Fin 4097) (ue : Bool), exec (.apertureRead off len ue) s = .next t →
      s.dev.framed (fieldsAll [HAMPER.APT_OOR]) [.signals] t.dev) ∧
    (∀ (off : Fin 1073741824) (data : List Byte), exec (.apertureWrite off data) s = .next t →
      s.dev.framed (fieldsAll [HAMPER.APT_WR_DROP]) [.hamper] t.dev) ∧
    (∀ (value : Word), exec (.lookupGoWrite value) s = .next t → s.dev.framed (wordAt .hamper 0 0x68 ++ fieldsAll [HAMPER.LOOKUP_GO]) [.signals,
      .hamper, .pair] t.dev) ∧
    (exec .lookupDone s = .next t → s.dev.framed (fieldsAll [HAMPER.LOOKUP_GO, HAMPER.LOOKUP_LA_HI, HAMPER.LOOKUP_LA_LO,
      HAMPER.LOOKUP_STATUS]) [.hamper] t.dev) ∧
    (exec .delayChangeApply s = .next t → s.dev.framed ([]) [.hamper] t.dev) ∧
    (∀ (value : Word), exec (.clipCommitWrite value) s = .next t → s.dev.framed (wordAt .hamper 0 0x84 ++ fieldsAll [HAMPER.CLIP_GO]) [.signals,
      .hamper, .pair] t.dev) ∧
    (exec .clipCheckDone s = .next t → s.dev.framed (eventAt .hamper 0 ++ fieldsAll [HAMPER.CLIP_GO, HAMPER.VERIFIED]) [.signals,
      .hamper] t.dev) ∧
    (∀ (channel : Fin 4), exec (.ddrCorrectedError channel) s = .next t → s.dev.framed (eventAt .hamper 0 ++
      fieldsAll [HAMPER.CE_COUNT]) [.signals, .hamper] t.dev) ∧
    (∀ (la : Fin 2199023255552), exec (.ddrUncorrectableError la) s = .next t → s.dev.framed (eventAt .hamper 0 ++ fieldsAll [HAMPER.UE_COUNT,
      HAMPER.UE_LA_HI, HAMPER.UE_LA_LO]) [.signals] t.dev) ∧
    (exec .scrubPassDone s = .next t → s.dev.framed (fieldsAll [HAMPER.SCRUB_PASSES]) [.hamper] t.dev)

/-- Frames and timers of the pair that change no role (R390 to R403): what each of these commands leaves as it was. -/
def Obligations.PairFrames : Prop :=
  ∀ s t : State,
    (∀ c ∈ [Instr.mateLinkDownTimeout, .peerLostTimeout], exec c s = .next t → s.dev.framed (faultPlaces ++ condAt .pair 0) [.signals,
      .faults] t.dev) ∧
    (∀ (crcOk : Bool) (gen : Nat) (data : CkptData), exec (.ckptDataRx crcOk gen data) s = .next t → s.dev.framed (condAt .pair 0 ++
      fieldsAll [PAIR.CKPT_GEN_HI, PAIR.CKPT_GEN_LO, PAIR.HB_OK, PAIR.JSEQ, PAIR.MATE_CRC_ERR, PAIR.MATE_UP, PAIR.OWN_HEALTH,
      PAIR.PEER_CLAIMS, PAIR.ROLE, PAIR.SYNCED]) [.signals, .pair] t.dev) ∧
    (∀ (ws : List Nat), exec (.ckptCommitRx ws) s = .next t →
      s.dev.framed (condAt .pair 0 ++ fieldsAll [PAIR.CKPT_GEN_HI, PAIR.CKPT_GEN_LO, PAIR.HB_OK, PAIR.JSEQ, PAIR.MATE_CRC_ERR, PAIR.MATE_UP,
      PAIR.OWN_HEALTH, PAIR.PEER_CLAIMS, PAIR.ROLE, PAIR.SYNCED]) [.signals, .pair] t.dev) ∧
    (∀ (crcOk : Bool) (seq : Nat) (data : MirData), exec (.mirrorRx crcOk seq data) s = .next t → s.dev.framed (fieldsAll [HAMPER.REC_BLOCKS,
      PAIR.MATE_CRC_ERR, PAIR.MIRROR_GAP]) [.hamper, .pair] t.dev) ∧
    (∀ (ws : List Nat), exec (.nakRx ws) s = .next t →
      s.dev.framed (fieldsAll [PAIR.CKPT_NAK, PAIR.JRN_RESEND, PAIR.MATE_CRC_ERR]) [.signals, .pair] t.dev) ∧
    (∀ c ∈ [Instr.checkpointStart, .ckptSendDone], exec c s = .next t → s.dev.framed ([]) [.signals, .pair] t.dev) ∧
    (exec .journalResendTimeout s = .next t → s.dev.framed (fieldsAll [PAIR.JRN_RESEND]) [.signals, .pair] t.dev)

/-- The bus matrix, the CHK units and the engines' events (R422, R426, R427, R432, R441 to R445,
R457 to R463): what each of these commands leaves as it was. -/
def Obligations.ServiceFrames : Prop :=
  ∀ s t : State,
    (∀ (master : Fin 18) (target : Fin 9) (id : Fin 16) (beats : Fin 64), exec (.matrixRequest master target id beats) s = .next t →
      s.dev.framed (fieldsAll [MTX.HOLD_ORDER, MTX.HOLD_RESERVE, MTX.OUTSTANDING, MTX.OUT_M]) [.service] t.dev) ∧
    (∀ (master : Fin 18) (target : Fin 9) (id : Fin 16), exec (.matrixResponse master target id) s = .next t →
      s.dev.framed (fieldsAll [MTX.HOLD_ORDER, MTX.HOLD_RESERVE, MTX.OUTSTANDING, MTX.OUT_M]) [.service] t.dev) ∧
    (∀ (unit : Fin 16) (value : Word), exec (.chkCfgWrite unit value) s = .next t → s.dev.framed (rangePlaces ++ fieldsElem unit [CHK.U_BUSY,
      CHK.U_MATCH, CHK.U_VALID]) [.signals, .service] t.dev) ∧
    (∀ (unit : Fin 16) (value : Word), exec (.chkDataWrite unit value) s = .next t → s.dev.framed (fieldsElem unit [CHK.U_BUSY, CHK.U_MATCH,
      CHK.U_VALID]) [.service] t.dev) ∧
    (∀ (unit : Fin 16) (pair : Fin 5) (value : Word), exec (.chkHiWrite unit pair value) s = .next t →
      s.dev.framed (fieldsElem unit [CHK.U_BUSY, CHK.U_MATCH, CHK.U_VALID]) [.service] t.dev) ∧
    (∀ (unit : Fin 16), exec (.chkEntryDone unit) s = .next t → s.dev.framed (fieldsElem unit [CHK.U_BE, CHK.U_BITS, CHK.U_BUSY, CHK.U_CHECK_HI,
      CHK.U_CHECK_LO, CHK.U_INIT_HI, CHK.U_INIT_LO, CHK.U_MATCH, CHK.U_POLY_HI, CHK.U_POLY_LO, CHK.U_REFIN, CHK.U_REFOUT, CHK.U_RESULT_LO,
      CHK.U_RESULT_SEQ, CHK.U_RUNNING_HI, CHK.U_RUNNING_LO, CHK.U_VALID, CHK.U_WIDTH, CHK.U_XOROUT_HI, CHK.U_XOROUT_LO]) [.service] t.dev) ∧
    (∀ (unit : Fin 16), exec (.chkResultLoRead unit) s = .next t → s.dev.framed (fieldsElem unit [CHK.U_LSTATUS,
      CHK.U_RESULT_HI]) [.signals] t.dev) ∧
    (∀ (unit : Fin 16) (value : Word), exec (.chkAliveSeenWrite unit value) s = .next t → s.dev.framed (ringPlaces ++
      fieldsAll [CHK.UNIT_EVT_STATUS] ++ fieldsElem unit [CHK.U_EXPECTED, CHK.U_FIRST, CHK.U_GAP, CHK.U_LAST,
      CHK.U_REPEAT]) [.signals] t.dev) ∧
    (∀ (engine : Fin 96) (timer : Fin 16), exec (.needleTimerFire engine timer) s = .next t → s.dev.framed (eventAt .ndl engine ++
      fieldsAll [PORT.HOOKS_SKIPPED] ++ fieldsAt engine [NDL.HOOK_DROP, NDL.QUEUE]) [.signals, .needle] t.dev) ∧
    (∀ (engine : Fin 96) (value : Word), exec (.engineEnableWrite engine value) s = .next t → s.dev.framed (wordAt .ndl engine 8 ++
      condAt .ndl engine ++ fieldsAt engine [HDR.STATE .ndl]) [.signals, .pair] t.dev) ∧
    (∀ (engine : Fin 96), exec (.illegalInstruction engine) s = .next t → s.dev.framed (faultPlaces ++ condAt .ndl engine ++
      fieldsAll [NDL.QUEUE, PORT.HOOKS_SKIPPED, PORT.NDL_OVERRUNS] ++ fieldsAt engine [HDR.STATE .ndl, NDL.FAULTS, NDL.NF_CAUSE, NDL.NF_CUST,
      NDL.NF_PC, NDL.NF_PORT, NDL.NF_VALID, NDL.PC]) [.signals, .faults, .lines, .needle] t.dev)

/-- Calibration in service, LINT and BIST (R465 to R482, R493 to R502): what each of these commands leaves as it was. -/
def Obligations.CareFrames : Prop :=
  ∀ s t : State,
    (∀ (readings : List Int) (tput : List Nat), exec (.sensorReading readings tput) s = .next t → s.dev.framed (faultPlaces ++ eventAt .dev 0 ++
      condAt .starch 0 ++ fieldsAll [DEV.LANE_CAP, DEV.PROG_ADVICE, STARCH.SENSOR_BAD, STARCH.SENSOR_READING, STARCH.SENSOR_V,
      STARCH.SENSOR_VALID, STARCH.TJ_MAX, STARCH.WALK_STEPS]) [.signals, .arch, .faults, .starch] t.dev) ∧
    (∀ (port : Fin 512) (items : PortItems) (touched : Bool), exec (.calRetryPass port items touched) s = .next t →
      s.dev.framed (condAt .starch 0 ++ fieldsAll [STARCH.DEFERRED_PORTS] ++ fieldsAt port [PORT.CAL_DEFERRED, PORT.NEVER_CAL,
      PORT.PORT_CAL_TB, PORT.RETRIES]) [.signals, .starch] t.dev) ∧
    (exec .shadowClose s = .next t → s.dev.framed (fieldsAll [LINT.SHADOWS]) [.lint] t.dev) ∧
    (∀ (value : Word), exec (.injKeyWrite value) s = .next t → s.dev.framed (condAt .lint0 0 ++ fieldsAll [LINT.INJ_ACTIVE,
      LINT.INJ_ARMED]) [.signals, .faults, .lint] t.dev) ∧
    (∀ (value : Word), exec (.injCtrlWrite value) s = .next t → s.dev.framed (rangePlaces ++ fieldsAll [LINT.INJ_ACTIVE, LINT.INJ_MODE,
      LINT.INJ_SOURCE]) [.signals, .faults, .lint] t.dev) ∧
    (exec .rollingStep s = .next t → s.dev.framed (fieldsAll [BIST.ITEM]) [.lint] t.dev)

/-- Protection selectors (R332 to R353): what the timers and commands of a selector leave as it was. -/
def Obligations.ProtectionFrames : Prop :=
  ∀ s t : State,
    (∀ n : Fin 512, ∀ c ∈ [Instr.holdOffExpire (.group n), .wtrExpire (.group n)], exec c s = .next t →
      s.dev.framed (fieldsAt n [PORT.LOCAL_REQ, PORT.REMOTE_REQ, PORT.SELECTED, PORT.TOP_REQ, PORT.WTR_LEFT]) [.mangle] t.dev) ∧
    (∀ i : Fin 32768, ∀ c ∈ [Instr.holdOffExpire (.entry i), .wtrExpire (.entry i)], exec c s = .next t →
      s.dev.framed [] [.mangle] t.dev) ∧
    (∀ p : Fin 4, ∀ c ∈ [Instr.holdOffExpire (.pair p), .wtrExpire (.pair p)], exec c s = .next t →
      s.dev.framed (fieldsElem p [DEV.PAIR_TOP_REQ, DEV.PAIR_WTR_LEFT]) [.mangle] t.dev) ∧
    (∀ (n : Fin 512) (v : Word), ∀ c ∈ [Instr.protCmdClear (.port n) v, .protCmdLo (.port n) v, .protCmdFs (.port n) v,
      .protCmdMsProt (.port n) v, .protCmdMsWork (.port n) v], exec c s = .next t →
      s.dev.framed (wordAt .port n 0x324 ++ fieldsAt n [PORT.COMMAND, PORT.CMD_REFUSED]) [.signals, .pair] t.dev) ∧
    (∀ (r : Fin 16384) (v : Word), ∀ c ∈ [Instr.protCmdClear (.trib r) v, .protCmdLo (.trib r) v, .protCmdFs (.trib r) v,
      .protCmdMsProt (.trib r) v, .protCmdMsWork (.trib r) v], exec c s = .next t →
      s.dev.framed (wordAt .trib r 0x14 ++ fieldsAt r [TRIB.COMMAND, TRIB.CMD_REFUSED]) [.signals, .pair] t.dev) ∧
    (∀ (p : Fin 4) (v : Word), ∀ c ∈ [Instr.protCmdClear (.pair p) v, .protCmdLo (.pair p) v, .protCmdFs (.pair p) v,
      .protCmdMsProt (.pair p) v, .protCmdMsWork (.pair p) v], exec c s = .next t →
      s.dev.framed (wordAt .dev 0 (0x940 + 16 * p.val) ++ fieldsElem p [DEV.PAIR_COMMAND, DEV.PAIR_CMD_REFUSED]) [.signals, .pair] t.dev)

/-- Commands with wide effects: the parts of the device that each of them leaves as it was. -/
def Obligations.WideFrames : Prop :=
  ∀ s t : State,
    (∀ (pcie test src role : Fin 101), exec (.strapFilterEnd pcie test src role) s = .next t → ∀ p ∈ [Part.calFrom, .flash, .free, .commands,
      .baskets, .arch, .line, .lint, .sys, .starch, .lines, .mangle, .needle, .service, .hamper, .pair], p.same s.dev t.dev) ∧
    (∀ item : BootItem, exec (.flashRecordLoaded item) s = .next t → ∀ p ∈ [Part.free, .service], p.same s.dev t.dev) ∧
    (∀ c ∈ [Instr.flashReadTimeout, .refclkWatchdog, .echoGraceExpire], exec c s = .next t → ∀ p ∈ [Part.calFrom, .flash, .free, .baskets,
      .service], p.same s.dev t.dev) ∧
    (∀ (data : CalData), ∀ c ∈ [Instr.powerupCalDone data, .calRunDone data], exec c s = .next t → ∀ p ∈ [Part.calFrom, .flash, .free, .baskets,
      .sys, .needle, .service], p.same s.dev t.dev) ∧
    (∀ (addr : Fin 67108864) (size : Fin 4) (value : BitVec 64), exec (.registerWrite addr size value) s = .next t → ∀ p ∈ [Part.calFrom,
      .flash, .free, .baskets], p.same s.dev t.dev) ∧
    (∀ (addr : Fin 67108864) (value : Word), exec (.softResetWrite addr value) s = .next t → ∀ p ∈ [Part.calFrom, .flash, .free, .baskets],
      p.same s.dev t.dev) ∧
    (∀ (addr : Fin 67108864), exec (.softResetDone addr) s = .next t → ∀ p ∈ [Part.calFrom, .flash, .free], p.same s.dev t.dev) ∧
    (∀ (tag : Fin 4096), exec (.cmdSwitchover tag) s = .next t → ∀ p ∈ [Part.calFrom, .flash, .service], p.same s.dev t.dev) ∧
    (∀ c ∈ [Instr.maintAutoExit, .resolveWaitExpire], exec c s = .next t → ∀ p ∈ [Part.calFrom, .flash, .free, .baskets, .sys, .needle,
      .service], p.same s.dev t.dev) ∧
    (exec .systemFrameBoundary s = .next t → ∀ p ∈ [Part.calFrom, .flash, .baskets, .service], p.same s.dev t.dev) ∧
    (∀ c ∈ [Instr.claimWirePersist, .peerUnclaimed1ms, .heartbeatLoss], exec c s = .next t → ∀ p ∈ [Part.calFrom, .flash, .service],
      p.same s.dev t.dev) ∧
    (exec .systemMultiframeBoundary s = .next t → ∀ p ∈ [Part.calFrom, .flash, .baskets, .host, .line, .faults, .lint, .starch, .mangle,
      .service, .hamper], p.same s.dev t.dev) ∧
    (∀ (port : Fin 512), exec (.downstreamMfBoundary port) s = .next t → ∀ p ∈ [Part.calFrom, .flash, .free, .baskets, .host, .faults, .lint, .sys,
      .starch, .mangle, .needle, .service, .hamper], p.same s.dev t.dev) ∧
    (∀ (port : Fin 512) (stage : StageData), exec (.stageFinish port stage) s = .next t → ∀ p ∈ [Part.calFrom, .flash, .commands, .baskets,
      .host, .lint, .starch, .mangle, .service, .hamper, .pair], p.same s.dev t.dev) ∧
    (∀ (lane : Fin 8) (ws : List Nat), exec (.trunkFrameRx lane ws) s = .next t → ∀ p ∈ [Part.calFrom, .flash, .free, .baskets, .service],
      p.same s.dev t.dev) ∧
    (∀ (value : Word), ∀ c ∈ [Instr.resolveWrite value, .claimNowWrite value], exec c s = .next t → ∀ p ∈ [Part.calFrom, .flash, .free,
      .baskets, .sys, .needle, .service], p.same s.dev t.dev) ∧
    (∀ (p : Bool) (n : Bool), exec (.claimPinChange p n) s = .next t → ∀ p ∈ [Part.calFrom, .flash, .free, .baskets, .service],
      p.same s.dev t.dev) ∧
    (∀ (lane : Fin 2) (up : Bool), exec (.mateLaneChange lane up) s = .next t → ∀ p ∈ [Part.calFrom, .flash, .service],
      p.same s.dev t.dev) ∧
    (∀ (ws : List Nat), exec (.statusRx ws) s = .next t → ∀ p ∈ [Part.calFrom, .flash, .free, .baskets, .service],
      p.same s.dev t.dev) ∧
    (∀ (ws : List Nat), exec (.fatalFrameRx ws) s = .next t → ∀ p ∈ [Part.calFrom, .flash, .service], p.same s.dev t.dev) ∧
    (∀ (ws : List Nat), exec (.journalRx ws) s = .next t → ∀ p ∈ [Part.calFrom, .flash, .free,
      .commands, .baskets, .host, .line, .faults, .lint, .starch, .lines, .mangle, .needle, .service, .hamper], p.same s.dev t.dev) ∧
    (∀ (ws : List Nat), exec (.ackRx ws) s = .next t → ∀ p ∈ [Part.calFrom, .flash, .free, .baskets, .service], p.same s.dev t.dev) ∧
    (∀ (ws : List Nat), exec (.handoverRx ws) s = .next t → ∀ p ∈ [Part.calFrom, .flash, .service], p.same s.dev t.dev) ∧
    (∀ (ws : List Nat), exec (.handoverReqRx ws) s = .next t → ∀ p ∈ [Part.calFrom, .flash, .free, .baskets, .service], p.same s.dev t.dev) ∧
    (exec .handoverTimeout s = .next t → ∀ p ∈ [Part.calFrom, .flash, .free, .baskets, .service], p.same s.dev t.dev) ∧
    (∀ (engine : Fin 96), exec (.needleDispatch engine) s = .next t → ∀ p ∈ [Part.calFrom, .flash, .free, .commands, .host, .line, .faults,
      .lint, .sys, .starch, .service, .hamper, .pair], p.same s.dev t.dev) ∧
    (∀ (basket : Fin 29) (value : Word), exec (.basketFlushWrite basket value) s = .next t → ∀ p ∈ [Part.calFrom, .flash, .free, .host, .arch,
      .line, .faults, .lint, .sys, .starch, .lines, .mangle, .service, .hamper], p.same s.dev t.dev) ∧
    (∀ (bad : List (Fin 11136)), exec (.lintWindow bad) s = .next t → ∀ p ∈ [Part.calFrom, .flash], p.same s.dev t.dev) ∧
    (∀ (sig : BitVec 64), exec (.bistItemDone sig) s = .next t → ∀ p ∈ [Part.calFrom, .flash, .free, .baskets, .host, .arch, .starch, .lines,
      .service, .hamper], p.same s.dev t.dev)
end

