-- ==== Sys2Proof/Laws/FMap.lean ====
section
/-! SUPPORT. Laws of sparse tables: reading after writing, and the canonical form. -/

namespace Sys2Proof.Machine

variable {α : Type}

@[simp] theorem FMap.get_nil (d : α) (k : Nat) : FMap.get d [] k = d := rfl

theorem FMap.get_erase_same (d : α) (m : FMap α) (k : Nat) : FMap.get d (FMap.erase m k) k = d := by
  induction m with
  | nil => rfl
  | cons e r ih =>
    obtain ⟨k', v⟩ := e
    by_cases h : k = k' <;> simp [FMap.erase, FMap.get, h]
    · simpa [h] using ih
    · exact ih

theorem FMap.get_erase_ne (d : α) (m : FMap α) {k j : Nat} (h : j ≠ k) : FMap.get d (FMap.erase m k) j = FMap.get d m j := by
  induction m with
  | nil => rfl
  | cons e r ih =>
    obtain ⟨k', v⟩ := e
    by_cases hk : k = k'
    · subst hk; simp [FMap.erase, FMap.get, h, ih]
    · by_cases hj : j = k' <;> simp [FMap.erase, FMap.get, hk, hj, ih]

theorem FMap.get_insert_same (d : α) (m : FMap α) (k : Nat) (v : α) (hm : ∀ w, (k, w) ∉ m) : FMap.get d (FMap.insert m k v) k = v := by
  induction m with
  | nil => simp [FMap.insert, FMap.get]
  | cons e r ih =>
    obtain ⟨k', w⟩ := e
    have hne : k ≠ k' := fun h => hm w (by simp [h])
    by_cases h : k < k'
    · simp [FMap.insert, FMap.get, h]
    · simp [FMap.insert, FMap.get, h, hne]
      exact ih (fun w hw => hm w (by simp [hw]))

theorem FMap.get_insert_ne (d : α) (m : FMap α) {k j : Nat} (v : α) (h : j ≠ k) : FMap.get d (FMap.insert m k v) j = FMap.get d m j := by
  induction m with
  | nil => simp [FMap.insert, FMap.get, h]
  | cons e r ih =>
    obtain ⟨k', w⟩ := e
    by_cases hk : k < k'
    · simp [FMap.insert, FMap.get, hk, h]
    · by_cases hj : j = k' <;> simp [FMap.insert, FMap.get, hk, hj, ih]

theorem FMap.not_mem_erase (m : FMap α) (k : Nat) (w : α) : (k, w) ∉ FMap.erase m k := by
  induction m with
  | nil => simp [FMap.erase]
  | cons e r ih =>
    obtain ⟨k', v⟩ := e
    by_cases h : k = k'
    · simpa [FMap.erase, h] using h ▸ ih
    · simp [FMap.erase, h, ih]

variable [DecidableEq α]

/-- A key reads as it was written. -/
@[simp] theorem FMap.get_set_same (d : α) (m : FMap α) (k : Nat) (v : α) : FMap.get d (FMap.set d m k v) k = v := by
  unfold FMap.set
  split
  · next h => rw [h]; exact FMap.get_erase_same d m k
  · exact FMap.get_insert_same d _ k v (FMap.not_mem_erase m k)

/-- A write leaves every other key alone. -/
theorem FMap.get_set_ne (d : α) (m : FMap α) {k j : Nat} (v : α) (h : j ≠ k) : FMap.get d (FMap.set d m k v) j = FMap.get d m j := by
  unfold FMap.set
  split
  · exact FMap.get_erase_ne d m h
  · rw [FMap.get_insert_ne d _ v h, FMap.get_erase_ne d m h]

/-- Reading after writing. -/
theorem FMap.get_set (d : α) (m : FMap α) (k j : Nat) (v : α) :
    FMap.get d (FMap.set d m k v) j = if j = k then v else FMap.get d m j := by
  by_cases h : j = k
  · simp [h]
  · simp [h, FMap.get_set_ne d m v h]

omit [DecidableEq α] in
theorem FMap.sortedFrom_mono {lo lo' : Nat} (h : lo' ≤ lo) (m : FMap α) (hm : FMap.sortedFrom lo m = true) :
    FMap.sortedFrom lo' m = true := by
  cases m with
  | nil => rfl
  | cons e r =>
    simp [FMap.sortedFrom] at hm ⊢
    exact ⟨by omega, hm.2⟩

omit [DecidableEq α] in
theorem FMap.sortedFrom_erase (m : FMap α) (k lo : Nat) (hm : FMap.sortedFrom lo m = true) :
    FMap.sortedFrom lo (FMap.erase m k) = true := by
  induction m generalizing lo with
  | nil => rfl
  | cons e r ih =>
    obtain ⟨k', v⟩ := e
    simp [FMap.sortedFrom] at hm
    by_cases h : k = k'
    · simp [FMap.erase, h]
      exact h ▸ FMap.sortedFrom_mono (by omega) _ (ih _ hm.2)
    · simp [FMap.erase, FMap.sortedFrom, h]
      exact ⟨hm.1, ih _ hm.2⟩

omit [DecidableEq α] in
theorem FMap.sortedFrom_insert (m : FMap α) (k lo : Nat) (v : α) (hlo : lo ≤ k) (hk : ∀ w, (k, w) ∉ m)
    (hm : FMap.sortedFrom lo m = true) : FMap.sortedFrom lo (FMap.insert m k v) = true := by
  induction m generalizing lo with
  | nil => simp [FMap.insert, FMap.sortedFrom, hlo]
  | cons e r ih =>
    obtain ⟨k', w⟩ := e
    simp [FMap.sortedFrom] at hm
    by_cases h : k < k'
    · simp only [FMap.insert, h, if_true, FMap.sortedFrom, Bool.and_eq_true, decide_eq_true_eq]
      exact ⟨hlo, by omega, hm.2⟩
    · have hne : k ≠ k' := fun q => hk w (by simp [q])
      simp [FMap.insert, FMap.sortedFrom, h]
      exact ⟨hm.1, ih (k' + 1) (by omega) (fun w hw => hk w (by simp [hw])) hm.2⟩

omit [DecidableEq α] in
theorem FMap.mem_erase (m : FMap α) (k : Nat) (e : Nat × α) (h : e ∈ FMap.erase m k) : e ∈ m := by
  induction m with
  | nil => simp [FMap.erase] at h
  | cons a r ih =>
    obtain ⟨k', v⟩ := a
    by_cases hk : k = k'
    · simp [FMap.erase, hk] at h
      exact List.mem_cons_of_mem _ (ih (by simpa [hk] using h))
    · simp [FMap.erase, hk] at h
      rcases h with h | h
      · simp [h]
      · exact List.mem_cons_of_mem _ (ih h)

omit [DecidableEq α] in
theorem FMap.mem_insert (m : FMap α) (k : Nat) (v : α) (e : Nat × α) (h : e ∈ FMap.insert m k v) : e = (k, v) ∨ e ∈ m := by
  induction m with
  | nil => simpa [FMap.insert] using h
  | cons a r ih =>
    obtain ⟨k', w⟩ := a
    by_cases hk : k < k'
    · simpa [FMap.insert, hk] using h
    · simp [FMap.insert, hk] at h
      rcases h with h | h
      · simp [h]
      · rcases ih h with q | q
        · exact .inl q
        · exact .inr (List.mem_cons_of_mem _ q)

/-- A write keeps the canonical form. -/
theorem FMap.wf_set (d : α) (m : FMap α) (k : Nat) (v : α) (hm : FMap.wf d m = true) : FMap.wf d (FMap.set d m k v) = true := by
  simp only [FMap.wf, Bool.and_eq_true, List.all_eq_true, decide_eq_true_eq] at hm ⊢
  unfold FMap.set
  split
  · exact ⟨FMap.sortedFrom_erase m k 0 hm.1, fun e he => hm.2 e (FMap.mem_erase m k e he)⟩
  · next hv =>
    refine ⟨FMap.sortedFrom_insert _ k 0 v (Nat.zero_le _) (FMap.not_mem_erase m k) (FMap.sortedFrom_erase m k 0 hm.1), ?_⟩
    intro e he
    rcases FMap.mem_insert _ k v e he with q | q
    · rw [q]; exact hv
    · exact hm.2 e (FMap.mem_erase m k e q)

end Sys2Proof.Machine
end

