-- ==== Sys2Proof/Laws/State.lean ====
section
/-! SUPPORT. Laws of the state: what each update of a register, of an output, of a part of the device leaves in every field. -/

namespace Sys2Proof.Machine

variable (d : Dev)

/-! ### A register written -/

/-- A field element reads as it was written, in its width. -/
@[simp] theorem Dev.rd_wr_same (f : Field) (inst idx v : Nat) : (d.wr f inst idx v).rd f inst idx = v % 2 ^ f.width := by
  rw [Dev.rd, Dev.wr, FMap.get_set_same, Nat.xor_assoc, Nat.xor_self, Nat.xor_zero]

/-- A write leaves every other field element alone. -/
theorem Dev.rd_wr_key_ne (f g : Field) (inst idx i j v : Nat) (h : g.key i j ≠ f.key inst idx) : (d.wr f inst idx v).rd g i j = d.rd g i j := by
  simp [Dev.rd, Dev.wr, FMap.get_set_ne _ _ _ h]

/-- Elements of different fields have different keys, as do different elements of one field. -/
theorem Field.key_ne (f g : Field) (inst idx i j : Nat) (hi : inst < 65536) (hx : idx < 4096) (hi' : i < 65536) (hx' : j < 4096)
    (h : g.id ≠ f.id ∨ i ≠ inst ∨ j ≠ idx) : g.key i j ≠ f.key inst idx := by
  unfold Field.key; omega

/-- A write leaves the elements of every other field alone. -/
theorem Dev.rd_wr_ne (f g : Field) (inst idx i j v : Nat) (h : g.id ≠ f.id) (hi : inst < 65536 := by omega) (hx : idx < 4096 := by omega)
    (hi' : i < 65536 := by omega) (hx' : j < 4096 := by omega) : (d.wr f inst idx v).rd g i j = d.rd g i j :=
  Dev.rd_wr_key_ne d f g inst idx i j v (Field.key_ne f g inst idx i j hi hx hi' hx' (.inl h))

@[simp] theorem Dev.rd_flag_same (f : Field) (inst idx : Nat) (b : Bool) (hw : 1 ≤ f.width) :
    (d.flag f inst idx b).rd f inst idx = b.toNat := by
  have h : (1 : Nat) < 2 ^ f.width := Nat.one_lt_two_pow (by omega)
  cases b <;> simp [Dev.flag, Nat.mod_eq_of_lt h]

@[simp] theorem Dev.on_flag_same (f : Field) (inst idx : Nat) (b : Bool) (hw : 1 ≤ f.width) : (d.flag f inst idx b).on f inst idx = b := by
  cases b <;> simp [Dev.on, Dev.rd_flag_same, hw]

/-- A saturating counter after counting. -/
theorem Dev.rd_inc_same (f : Field) (inst idx n : Nat) : (d.inc f inst idx n).rd f inst idx = min (2 ^ f.width - 1) (d.rd f inst idx + n) := by
  have h : 0 < 2 ^ f.width := Nat.two_pow_pos _
  simp only [Dev.inc, Dev.rd_wr_same, satAdd]
  rw [Nat.min_comm]
  exact Nat.mod_eq_of_lt (by omega)

/-- A write keeps the canonical form of the register store. -/
theorem Dev.wr_wf (f : Field) (inst idx v : Nat) (h : FMap.wf 0 d.regs = true) : FMap.wf 0 (d.wr f inst idx v).regs = true :=
  FMap.wf_set 0 _ _ _ h

section
variable (f : Field) (inst idx v : Nat)
@[simp] theorem Dev.wr_timebase : (d.wr f inst idx v).timebase = d.timebase := rfl
@[simp] theorem Dev.wr_mode : (d.wr f inst idx v).mode = d.mode := rfl
@[simp] theorem Dev.wr_calFrom : (d.wr f inst idx v).calFrom = d.calFrom := rfl
@[simp] theorem Dev.wr_flash : (d.wr f inst idx v).flash = d.flash := rfl
@[simp] theorem Dev.wr_free : (d.wr f inst idx v).free = d.free := rfl
@[simp] theorem Dev.wr_host : (d.wr f inst idx v).host = d.host := rfl
@[simp] theorem Dev.wr_arch : (d.wr f inst idx v).arch = d.arch := rfl
@[simp] theorem Dev.wr_line : (d.wr f inst idx v).line = d.line := rfl
@[simp] theorem Dev.wr_lint : (d.wr f inst idx v).lint = d.lint := rfl
@[simp] theorem Dev.wr_sys : (d.wr f inst idx v).sys = d.sys := rfl
@[simp] theorem Dev.wr_starch : (d.wr f inst idx v).starch = d.starch := rfl
@[simp] theorem Dev.wr_lines : (d.wr f inst idx v).lines = d.lines := rfl
@[simp] theorem Dev.wr_mangle : (d.wr f inst idx v).mangle = d.mangle := rfl
@[simp] theorem Dev.wr_needle : (d.wr f inst idx v).needle = d.needle := rfl
@[simp] theorem Dev.wr_service : (d.wr f inst idx v).service = d.service := rfl
@[simp] theorem Dev.wr_hamper : (d.wr f inst idx v).hamper = d.hamper := rfl
@[simp] theorem Dev.wr_pair : (d.wr f inst idx v).pair = d.pair := rfl
end

/-! ### The other parts -/

section
variable (o : Output)
@[simp] theorem Dev.emit_out : (d.emit o).host.out = o :: d.host.out := rfl
@[simp] theorem Dev.emit_regs : (d.emit o).regs = d.regs := rfl
@[simp] theorem Dev.emit_rd (f : Field) (i j : Nat) : (d.emit o).rd f i j = d.rd f i j := rfl
@[simp] theorem Dev.emit_timebase : (d.emit o).timebase = d.timebase := rfl
@[simp] theorem Dev.emit_mode : (d.emit o).mode = d.mode := rfl
@[simp] theorem Dev.emit_arch : (d.emit o).arch = d.arch := rfl
@[simp] theorem Dev.emit_line : (d.emit o).line = d.line := rfl
@[simp] theorem Dev.emit_lint : (d.emit o).lint = d.lint := rfl
@[simp] theorem Dev.emit_sys : (d.emit o).sys = d.sys := rfl
@[simp] theorem Dev.emit_starch : (d.emit o).starch = d.starch := rfl
@[simp] theorem Dev.emit_lines : (d.emit o).lines = d.lines := rfl
@[simp] theorem Dev.emit_mangle : (d.emit o).mangle = d.mangle := rfl
@[simp] theorem Dev.emit_needle : (d.emit o).needle = d.needle := rfl
@[simp] theorem Dev.emit_service : (d.emit o).service = d.service := rfl
@[simp] theorem Dev.emit_hamper : (d.emit o).hamper = d.hamper := rfl
@[simp] theorem Dev.emit_pair : (d.emit o).pair = d.pair := rfl
end

/-- A register reads the same in a device with the same register store. -/
theorem Dev.rd_congr {d t : Dev} (h : t.regs = d.regs) (f : Field) (i j : Nat) : t.rd f i j = d.rd f i j := by simp [Dev.rd, h]

end Sys2Proof.Machine
end

