-- ==== Sys2Proof/Laws/Ops.lean ====
section
/-! SUPPORT. What the shared operations can do: the frames of an effect, an event raised, a condition, a fault source, an item sent to a
ring. -/

namespace Sys2Proof.Machine

/-! ### The frames of an effect -/

theorem stay_eq (s : State) (f : Dev → Dev) :
    stay s f = .next { s with dev := { f s.dev with timebase := s.dev.timebase, mode := s.dev.mode } } := rfl

theorem shift_eq (s : State) (f : Dev → Dev) : shift s f = .next { s with dev := { f s.dev with timebase := s.dev.timebase } } := rfl

@[simp] theorem whenDev_true (c : Dev → Bool) (f : Dev → Dev) (d : Dev) (h : c d = true) : whenDev c f d = f d := by simp [whenDev, h]
@[simp] theorem whenDev_false (c : Dev → Bool) (f : Dev → Dev) (d : Dev) (h : c d = false) : whenDev c f d = d := by simp [whenDev, h]
@[simp] theorem unlessMisuse_none (o : Host.Outcome State Fault Refusal) : unlessMisuse none o = o := rfl
@[simp] theorem unlessMisuse_some (m : Misuse) (o : Host.Outcome State Fault Refusal) : unlessMisuse (some m) o = .fault (.misuse m) := rfl

/-- A next state of an effect under a misuse check comes from the effect. -/
theorem unlessMisuse_next {m : Option Misuse} {o : Host.Outcome State Fault Refusal} {t : State} (h : unlessMisuse m o = .next t) :
    m = none ∧ o = .next t := by
  cases m with
  | none => exact ⟨rfl, h⟩
  | some _ => cases h

/-- A field reads the same when only TIMEBASE and the device state are put back. -/
@[simp] theorem Dev.rd_frame (d : Dev) (tb : Nat) (m : Mode) (f : Field) (i j : Nat) :
    ({ d with timebase := tb, mode := m } : Dev).rd f i j = d.rd f i j := rfl
@[simp] theorem Dev.rd_timebase (d : Dev) (tb : Nat) (f : Field) (i j : Nat) : ({ d with timebase := tb } : Dev).rd f i j = d.rd f i j := rfl

/-! ### Keys -/

/-- The field number of a key of the register store. -/
def keyId (k : Nat) : Nat := k / 268435456

theorem keyId_key (f : Field) (inst idx : Nat) (hi : inst < 65536) (hx : idx < 4096) : keyId (f.key inst idx) = f.id := by
  unfold keyId Field.key; omega

theorem Field.id_of_key (f : Field) (k inst idx : Nat) (hi : inst < 65536) (hx : idx < 4096) (h : keyId k ≠ f.id) : k ≠ f.key inst idx := by
  intro e; exact h (e ▸ keyId_key f inst idx hi hx)

/-! ### Signals: what raising an event changes -/

/-- The header's EVT_STATUS of an instance has every bit it had. -/
def Dev.evtKept (d t : Dev) : Prop :=
  ∀ p inst b, inst < 65536 → b < 32 → ((d.rd (HDR.EVT_STATUS p) inst).testBit b = true) → ((t.rd (HDR.EVT_STATUS p) inst).testBit b = true)

/-- The device `t` follows from `d` by raising events whose status words lie in the fields `ids`: EVT_STATUS of those fields and of HOSTQ,
the counts of the rings and what was sent may differ, and no event is lost. -/
structure Dev.Signals (ids : List Nat) (d t : Dev) : Prop where
  regs : ∀ k, keyId k ∉ [HOSTQ.RING_PI.id, HOSTQ.RING_ITEMS.id, HOSTQ.RING_DROPPED.id, (HDR.EVT_STATUS .hostq).id] ++ ids →
    FMap.get 0 t.regs k = FMap.get 0 d.regs k
  evts : d.evtKept t
  other : t = { d with
    regs := t.regs
    host := { d.host with
      out := t.host.out
      evtSeq := t.host.evtSeq
      msixPend := t.host.msixPend } }

theorem Dev.Signals.refl (ids : List Nat) (d : Dev) : d.Signals ids d := ⟨fun _ _ => rfl, fun _ _ _ _ _ h => h, rfl⟩

theorem Dev.Signals.trans {ids : List Nat} {a b c : Dev} (h : a.Signals ids b) (g : b.Signals ids c) : a.Signals ids c := by
  refine ⟨fun k hk => (g.regs k hk).trans (h.regs k hk), fun p i n hi hn x => g.evts p i n hi hn (h.evts p i n hi hn x), ?_⟩
  rw [g.other, h.other]

/-- A field that is none of those an event may alter reads as before. -/
theorem Dev.Signals.rd {ids : List Nat} {d t : Dev} (h : d.Signals ids t) (f : Field) (inst idx : Nat)
    (hf : f.id ∉ [HOSTQ.RING_PI.id, HOSTQ.RING_ITEMS.id, HOSTQ.RING_DROPPED.id, (HDR.EVT_STATUS .hostq).id] ++ ids)
    (hi : inst < 65536) (hx : idx < 4096) : t.rd f inst idx = d.rd f inst idx := by
  unfold Dev.rd; rw [h.regs]; rwa [keyId_key f inst idx hi hx]

/-- A write of a counter of a ring is a signal. -/
theorem Dev.wr_ring_signals (ids : List Nat) (d : Dev) (f : Field) (r v : Nat) (hr : r < 4096)
    (hf : f = HOSTQ.RING_PI ∨ f = HOSTQ.RING_ITEMS ∨ f = HOSTQ.RING_DROPPED) : d.Signals ids (d.wr f 0 r v) := by
  have he : ∀ p, (HDR.EVT_STATUS p).id ≠ f.id := by
    intro p; rcases hf with rfl | rfl | rfl <;> cases p <;> decide
  refine ⟨fun k hk => ?_, fun p i n hi _ h => ?_, rfl⟩
  · refine FMap.get_set_ne _ _ _ (Field.id_of_key f k 0 r (by omega) hr ?_)
    intro e
    apply hk
    rcases hf with rfl | rfl | rfl <;> simp [e]
  · rw [Dev.rd_wr_ne d f _ 0 r i 0 v (he p) (by omega) hr hi (by omega)]; exact h

theorem Dev.emit_signals (ids : List Nat) (d : Dev) (o : Output) : d.Signals ids (d.emit o) :=
  ⟨fun _ _ => rfl, fun _ _ _ _ _ h => h, rfl⟩

theorem Dev.msixSend_signals (ids : List Nat) (d : Dev) (v : Nat) : d.Signals ids (d.msixSend v) := by
  unfold Dev.msixSend
  split
  · exact .refl ids d
  · split
    · exact ⟨fun _ _ => rfl, fun _ _ _ _ _ h => h, rfl⟩
    · exact d.emit_signals ids _

theorem Dev.vecRise_signals (ids : List Nat) (d0 : Dev) (v : Nat) (d : Dev) : d.Signals ids (Dev.vecRise d0 v d) := by
  unfold Dev.vecRise
  split
  · exact d.msixSend_signals ids v
  · exact .refl ids d

theorem Dev.ringPut_signals (ids : List Nat) (d : Dev) (r : Nat) (ws : List Nat) (hr : r < 4096) : d.Signals ids (d.ringPut r ws) := by
  unfold Dev.ringPut
  exact (((d.emit_signals ids _).trans (Dev.wr_ring_signals ids _ _ r _ hr (.inl rfl))).trans
    (Dev.wr_ring_signals ids _ _ r _ hr (.inr (.inl rfl)))).trans (Dev.emit_signals ids _ _)

/-- A bit of a word set keeps the bits the word has, and shows in it. -/
theorem testBit_orBit (v b n : Nat) : (orBit v b).testBit n = (v.testBit n || decide (n = b)) := by
  unfold orBit
  rw [Nat.testBit_or, Nat.testBit_shiftLeft]
  rcases Nat.lt_trichotomy n b with h | h | h
  · simp [Nat.not_le.mpr h, Nat.ne_of_lt h]
  · simp [h]
  · have : (1 : Nat).testBit (n - b) = false := by
      rw [Nat.testBit_eq_decide_div_mod_eq]; have : 1 < 2 ^ (n - b) := Nat.one_lt_two_pow (by omega)
      simp [Nat.div_eq_of_lt this]
    simp [this, Nat.ne_of_gt h]

/-- A bit set in EVT_STATUS shows; the others read as before. -/
theorem Dev.setEvt_bit (d : Dev) (p : Page) (inst b n : Nat) (hn : n < 32) :
    ((d.setEvt p inst b).rd (HDR.EVT_STATUS p) inst).testBit n = ((d.rd (HDR.EVT_STATUS p) inst).testBit n || decide (n = b)) := by
  simp only [Dev.setEvt, Dev.rd_wr_same]
  show (orBit _ b % 2 ^ 32).testBit n = _
  rw [Nat.testBit_mod_two_pow, testBit_orBit]
  simp [hn]

theorem Dev.setEvt_signals (d : Dev) (p : Page) (inst b : Nat) (hi : inst < 65536) : d.Signals [(HDR.EVT_STATUS p).id] (d.setEvt p inst b) := by
  refine ⟨fun k hk => ?_, fun q i n hq hn h => ?_, rfl⟩
  · refine FMap.get_set_ne _ _ _ (Field.id_of_key _ k inst 0 hi (by omega) ?_)
    intro e; apply hk; simp [e]
  · by_cases e : q = p
    · subst e
      by_cases e : i = inst
      · subst e; rw [d.setEvt_bit q i b n hn, h]; rfl
      · rw [Dev.setEvt, Dev.rd_wr_key_ne]
        · exact h
        · exact Field.key_ne _ _ _ _ _ _ hi (by omega) hq (by omega) (.inr (.inl e))
    · rw [Dev.setEvt, Dev.rd_wr_ne _ _ (HDR.EVT_STATUS q) _ _ _ _ _ (by revert e; cases q <;> cases p <;> decide) hi (by omega) hq (by omega)]
      exact h

theorem Dev.Signals.mono {ids ids' : List Nat} {d t : Dev} (h : d.Signals ids t) (hs : ∀ i ∈ ids, i ∈ ids') : d.Signals ids' t := by
  refine ⟨fun k hk => h.regs k (fun hm => hk ?_), h.evts, h.other⟩
  rw [List.mem_append] at hm ⊢
  exact hm.imp id (hs _)

theorem Dev.setEvtHostq_signals (ids : List Nat) (d : Dev) (b : Nat) : d.Signals ids (d.setEvt .hostq 0 b) := by
  have h := d.setEvt_signals .hostq 0 b (by omega)
  refine ⟨fun k hk => h.regs k (fun hm => hk ?_), h.evts, h.other⟩
  simp only [List.mem_append, List.mem_cons, List.not_mem_nil, or_false] at hm ⊢
  exact hm.elim .inl (fun e => .inl (.inr (.inr (.inr e))))

theorem Dev.evtItem_signals (ids : List Nat) (fuel : Nat) (d0 : Dev) (l : Nat) (d : Dev) : d.Signals ids (Dev.evtItem fuel d0 l d) := by
  induction fuel generalizing d0 l d with
  | zero => exact .refl ids d
  | succ n ih =>
    unfold Dev.evtItem
    split
    · exact .refl ids d
    · have h0 : d.Signals ids { d with host := { d.host with evtSeq := (d.host.evtSeq + 1) % 4096 } } :=
        ⟨fun _ _ => rfl, fun _ _ _ _ _ h => h, rfl⟩
      dsimp only
      split
      · exact h0.trans ((Dev.ringPut_signals ids _ 1 _ (by omega)).trans (Dev.msixSend_signals ids _ 1))
      · refine h0.trans (((Dev.wr_ring_signals ids _ HOSTQ.RING_DROPPED 1 _ (by omega) (.inr (.inr rfl))).trans
          ((Dev.setEvtHostq_signals ids _ 1).trans (Dev.vecRise_signals ids _ _ _))).trans (ih _ _ _))

theorem Dev.foldl_signals {α : Type} (ids : List Nat) (g : Dev → α → Dev) (hg : ∀ (d : Dev) x, d.Signals ids (g d x)) (xs : List α) (d : Dev) :
    d.Signals ids (xs.foldl g d) := by
  induction xs generalizing d with
  | nil => exact .refl ids d
  | cons x xs ih => exact (hg d x).trans (ih _)

theorem Dev.leavesRise_signals (ids : List Nat) (d0 : Dev) (ls : List Nat) (d : Dev) : d.Signals ids (Dev.leavesRise d0 ls d) := by
  unfold Dev.leavesRise
  exact (Dev.foldl_signals ids _ (fun d v => Dev.vecRise_signals ids d0 v d) _ d).trans
    (Dev.foldl_signals ids _ (fun d l => Dev.evtItem_signals ids 3 d0 l d) _ _)

/-- What raising an event can do. -/
theorem Dev.raise_signals (d : Dev) (p : Page) (inst b : Nat) (hi : inst < 65536 := by omega) :
    d.Signals [(HDR.EVT_STATUS p).id] (d.raise p inst b) := by
  unfold Dev.raise
  dsimp only
  split
  · exact (d.setEvt_signals p inst b hi).trans (Dev.leavesRise_signals _ _ _ _)
  · exact d.setEvt_signals p inst b hi

/-- An event raised shows in EVT_STATUS. -/
theorem Dev.raise_bit (d : Dev) (p : Page) (inst b : Nat) (hi : inst < 65536) (hb : b < 32) :
    ((d.raise p inst b).rd (HDR.EVT_STATUS p) inst).testBit b = true := by
  have h : ((d.setEvt p inst b).rd (HDR.EVT_STATUS p) inst).testBit b = true := by rw [d.setEvt_bit p inst b b hb]; simp
  unfold Dev.raise
  dsimp only
  split
  · exact (Dev.leavesRise_signals [] _ _ _).evts p inst b hi hb h
  · exact h

/-! ### Conditions and fault sources -/

/-- The device `t` follows from `d` by events, LEVEL words and fault sources: the fields `ids`, those of signals and the header words of
LINT[2] may differ, as may what LINT holds of its sources. -/
structure Dev.Notes (ids : List Nat) (d t : Dev) : Prop where
  regs : ∀ k, keyId k ∉ [HOSTQ.RING_PI.id, HOSTQ.RING_ITEMS.id, HOSTQ.RING_DROPPED.id, (HDR.EVT_STATUS .hostq).id,
    (HDR.EVT_STATUS .lint2).id, (HDR.LEVEL .lint2).id] ++ ids → FMap.get 0 t.regs k = FMap.get 0 d.regs k
  evts : d.evtKept t
  other : t = { d with
    regs := t.regs
    lint := { d.lint with src := t.lint.src }
    host := { d.host with
      out := t.host.out
      evtSeq := t.host.evtSeq
      msixPend := t.host.msixPend } }

theorem Dev.Notes.refl (ids : List Nat) (d : Dev) : d.Notes ids d := ⟨fun _ _ => rfl, fun _ _ _ _ _ h => h, rfl⟩

theorem Dev.Notes.trans {ids : List Nat} {a b c : Dev} (h : a.Notes ids b) (g : b.Notes ids c) : a.Notes ids c := by
  refine ⟨fun k hk => (g.regs k hk).trans (h.regs k hk), fun p i n hi hn x => g.evts p i n hi hn (h.evts p i n hi hn x), ?_⟩
  rw [g.other, h.other]

theorem Dev.Notes.rd {ids : List Nat} {d t : Dev} (h : d.Notes ids t) (f : Field) (inst idx : Nat)
    (hf : f.id ∉ [HOSTQ.RING_PI.id, HOSTQ.RING_ITEMS.id, HOSTQ.RING_DROPPED.id, (HDR.EVT_STATUS .hostq).id,
      (HDR.EVT_STATUS .lint2).id, (HDR.LEVEL .lint2).id] ++ ids)
    (hi : inst < 65536) (hx : idx < 4096) : t.rd f inst idx = d.rd f inst idx := by
  unfold Dev.rd; rw [h.regs]; rwa [keyId_key f inst idx hi hx]

theorem Dev.Notes.mono {ids ids' : List Nat} {d t : Dev} (h : d.Notes ids t) (hs : ∀ i ∈ ids, i ∈ ids') : d.Notes ids' t := by
  refine ⟨fun k hk => h.regs k (fun hm => hk ?_), h.evts, h.other⟩
  rw [List.mem_append] at hm ⊢
  exact hm.imp id (hs _)

theorem Dev.Signals.notes {ids : List Nat} {d t : Dev} (h : d.Signals ids t) : d.Notes ids t := by
  refine ⟨fun k hk => h.regs k (fun hm => hk ?_), h.evts, ?_⟩
  · simp only [List.mem_append, List.mem_cons, List.not_mem_nil, or_false] at hm ⊢
    rcases hm with (h | h | h | h) | h
    · exact .inl (.inl h)
    · exact .inl (.inr (.inl h))
    · exact .inl (.inr (.inr (.inl h)))
    · exact .inl (.inr (.inr (.inr (.inl h))))
    · exact .inr h
  · have h1 := h.other
    rw [h1]

/-- LEVEL words are no status words: writing one loses no event. -/
theorem Dev.wrLevel_notes (d : Dev) (p : Page) (inst v : Nat) (hi : inst < 65536) :
    d.Notes [(HDR.EVT_STATUS p).id, (HDR.LEVEL p).id] (d.wr (HDR.LEVEL p) inst 0 v) := by
  refine ⟨fun k hk => ?_, fun q i n hq hn h => ?_, rfl⟩
  · refine FMap.get_set_ne _ _ _ (Field.id_of_key _ k inst 0 hi (by omega) ?_)
    intro e; apply hk; simp [e]
  · rw [Dev.rd_wr_ne _ _ (HDR.EVT_STATUS q) _ _ _ _ _ (by cases q <;> cases p <;> decide) hi (by omega) hq (by omega)]
    exact h

/-- What making a condition present or absent can do. -/
theorem Dev.cond_notes (d : Dev) (p : Page) (inst bit : Nat) (b : Bool) (hi : inst < 65536 := by omega) :
    d.Notes [(HDR.EVT_STATUS p).id, (HDR.LEVEL p).id] (d.cond p inst bit b) := by
  unfold Dev.cond Dev.condSet Dev.condClear
  split
  · split
    · exact .refl _ d
    · exact (d.wrLevel_notes p inst _ hi).trans ((Dev.raise_signals _ p inst bit hi).notes.mono (by simp))
  · split
    · exact d.wrLevel_notes p inst _ hi
    · exact .refl _ d

theorem Dev.setSrc_notes (ids : List Nat) (d : Dev) (n : Nat) (x : SrcSt) : d.Notes ids (d.setSrc n x) :=
  ⟨fun _ _ => rfl, fun _ _ _ _ _ h => h, rfl⟩

theorem Dev.presentCond_notes (ids : List Nat) (d : Dev) : d.Notes ids d.presentCond := by
  have h := d.cond_notes .lint2 0 0 (d.lint.src.any (fun e => e.2.drives)) (by omega)
  refine ⟨fun k hk => h.regs k (fun hm => hk ?_), h.evts, h.other⟩
  simp only [List.mem_append, List.mem_cons, List.not_mem_nil, or_false] at hm ⊢
  exact hm.elim .inl (fun e => .inl (e.elim (fun e => .inr (.inr (.inr (.inr (.inl e))))) (fun e => .inr (.inr (.inr (.inr (.inr e)))))))

/-- What reporting an occurrence of a fault source can do. -/
theorem Dev.fault_notes (ids : List Nat) (d : Dev) (n detail : Nat) : d.Notes ids (d.fault n detail) :=
  (Dev.setSrc_notes ids d n _).trans (Dev.presentCond_notes ids _)

/-- What reporting a condition of a fault source can do. -/
theorem Dev.faultCond_notes (ids : List Nat) (d : Dev) (n : Nat) (b : Bool) : d.Notes ids (d.faultCond n b) :=
  (Dev.setSrc_notes ids d n _).trans (Dev.presentCond_notes ids _)

end Sys2Proof.Machine
end

