-- ==== Sys2Proof/Laws/Frame.lean ====
section
/-! SUPPORT. Frames of the shared operations: what a register write, an event, a condition, a fault source, a ring item and a completion leave
as they were; how frames compose; the Hamper's memory. -/

namespace Sys2Proof.Machine

variable {fs fs' : Places} {ps ps' : List Part} {d e t : Dev}

/-! ### Composition -/

theorem Part.same_refl (d : Dev) (p : Part) : p.same d d := by
  cases p <;> first | rfl | exact ⟨rfl, rfl⟩ | exact ⟨rfl, rfl, rfl⟩

theorem Part.same_trans {p : Part} (h : p.same d e) (g : p.same e t) : p.same d t := by
  cases p
  case host =>
    exact g.trans (congrArg (fun x : HostSt => { x with
      out := t.host.out
      evtSeq := t.host.evtSeq
      msixPend := t.host.msixPend
      inflight := t.host.inflight
      cplWait := t.host.cplWait
      baskets := t.host.baskets
      dccSeq := t.host.dccSeq }) h)
  case lint => exact g.trans (congrArg (fun x : LintSt => { x with src := t.lint.src }) h)
  all_goals first
    | exact Eq.trans g h
    | exact ⟨g.1.trans h.1, g.2.trans h.2⟩
    | exact ⟨g.1.trans h.1, g.2.1.trans h.2.1, g.2.2.trans h.2.2⟩

theorem Dev.framed.refl (fs : Places) (ps : List Part) (d : Dev) : d.framed fs ps d :=
  ⟨fun _ _ _ _ _ _ => rfl, fun p _ => p.same_refl d⟩

theorem Dev.framed.trans (h : d.framed fs ps e) (g : e.framed fs ps t) : d.framed fs ps t :=
  ⟨fun f i j hi hj hn => (g.1 f i j hi hj hn).trans (h.1 f i j hi hj hn), fun p hp => Part.same_trans (h.2 p hp) (g.2 p hp)⟩

theorem Dev.framed.mono (h : d.framed fs ps t) (hf : ∀ g ∈ fs, g ∈ fs') (hp : ∀ p ∈ ps, p ∈ ps') : d.framed fs' ps' t :=
  ⟨fun f i j hi hj hn => h.1 f i j hi hj (fun g hg => hn g (hf g hg)), fun p hn => h.2 p (fun hm => hn (hp p hm))⟩

/-- A frame holds whichever way a conditional goes. -/
theorem Dev.framed_ite {c : Prop} [Decidable c] (h : c → d.framed fs ps e) (g : ¬c → d.framed fs ps t) : d.framed fs ps (if c then e else t) := by
  split
  · exact h ‹_›
  · exact g ‹_›

/-- A frame goes through a fold whose every step has it. -/
theorem Dev.framed_foldl {α : Type} (g : Dev → α → Dev) (xs : List α) (hg : ∀ (d : Dev), ∀ x ∈ xs, d.framed fs ps (g d x)) (d : Dev) :
    d.framed fs ps (xs.foldl g d) := by
  induction xs generalizing d with
  | nil => exact .refl fs ps d
  | cons x xs ih =>
    exact (hg d x List.mem_cons_self).trans (ih (fun d y hy => hg d y (List.mem_cons_of_mem _ hy)) _)

/-- Putting TIMEBASE and the device state back does not disturb a frame. -/
theorem Dev.framed_clock (tb : Nat) (m : Mode) (h : d.framed fs ps t) : d.framed fs ps { t with timebase := tb, mode := m } :=
  ⟨fun f i j hi hj hn => h.1 f i j hi hj hn, fun p hp => by have := h.2 p hp; cases p <;> exact this⟩

/-- The frame of a command whose effect has it. -/
theorem framed_stay {s s' : State} {f : Dev → Dev} (h : stay s f = .next s') (hf : s.dev.framed fs ps (f s.dev)) : s.dev.framed fs ps s'.dev := by
  cases h; exact Dev.framed_clock _ _ hf

theorem framed_whenDev {c : Dev → Bool} {f : Dev → Dev} (hf : c d = true → d.framed fs ps (f d)) : d.framed fs ps (whenDev c f d) := by
  unfold whenDev
  exact Dev.framed_ite hf (fun _ => .refl fs ps d)

/-! ### Registers -/

/-- A device with other registers only. -/
theorem Dev.framed_regs (h : t = { d with regs := t.regs })
    (hr : ∀ (f : Field) (i j : Nat), i < 65536 → j < 4096 → (∀ g ∈ fs, g.1.id = f.id → g.2 i j = false) → t.rd f i j = d.rd f i j) :
    d.framed fs ps t := by
  refine ⟨hr, fun p _ => ?_⟩
  rw [h]
  cases p <;> simp [Part.same]

/-- A register write at a place of the frame. -/
theorem Dev.framed_wr (d : Dev) (f : Field) (inst idx v : Nat) {sel : Nat → Nat → Bool} (hm : (f, sel) ∈ fs) (hs : sel inst idx = true)
    (hi : inst < 65536 := by omega) (hx : idx < 4096 := by omega) : d.framed fs ps (d.wr f inst idx v) := by
  refine Dev.framed_regs rfl (fun g i j hi' hj' hn => Dev.rd_wr_key_ne d f g inst idx i j v (Field.key_ne f g inst idx i j hi hx hi' hj' ?_))
  by_cases e : g.id = f.id
  · right
    by_cases e1 : i = inst
    · right
      intro e2
      subst e1 e2
      have := hn (f, sel) hm e.symm
      simp [hs] at this
    · exact .inl e1
  · exact .inl e

theorem Dev.framed_flag (d : Dev) (f : Field) (inst idx : Nat) (b : Bool) {sel : Nat → Nat → Bool} (hm : (f, sel) ∈ fs) (hs : sel inst idx = true)
    (hi : inst < 65536 := by omega) (hx : idx < 4096 := by omega) : d.framed fs ps (d.flag f inst idx b) := d.framed_wr f inst idx _ hm hs hi hx

theorem Dev.framed_inc (d : Dev) (f : Field) (inst idx n : Nat) {sel : Nat → Nat → Bool} (hm : (f, sel) ∈ fs) (hs : sel inst idx = true)
    (hi : inst < 65536 := by omega) (hx : idx < 4096 := by omega) : d.framed fs ps (d.inc f inst idx n) := d.framed_wr f inst idx _ hm hs hi hx

/-! ### Outputs, events, conditions, fault sources -/

/-- What was sent may differ where the frame names it. -/
theorem Dev.framed_sent (hp : Part.signals ∈ ps) (h : t = { d with host := { d.host with
    out := t.host.out
    evtSeq := t.host.evtSeq
    msixPend := t.host.msixPend } }) : d.framed fs ps t := by
  have hr : t.regs = d.regs := by rw [h]
  refine ⟨fun f i j _ _ _ => Dev.rd_congr hr f i j, fun p hn => ?_⟩
  rw [h]
  cases p <;> simp [Part.same]
  exact absurd hp hn

theorem Dev.framed_emit (d : Dev) (o : Output) (hp : Part.signals ∈ ps) : d.framed fs ps (d.emit o) := Dev.framed_sent hp rfl

theorem Dev.framed_msixSend (d : Dev) (v : Nat) (hp : Part.signals ∈ ps) : d.framed fs ps (d.msixSend v) := by
  unfold Dev.msixSend
  split
  · exact .refl fs ps d
  · split
    · exact Dev.framed_sent hp rfl
    · exact d.framed_emit _ hp

/-- An item put into an outbound ring. -/
theorem Dev.framed_ringPut (d : Dev) (r : Nat) (ws : List Nat) (hr : r < 4096) : d.framed ringPlaces [.signals] (d.ringPut r ws) := by
  unfold Dev.ringPut
  have hp : Part.signals ∈ [Part.signals] := by simp
  exact (((Dev.framed_emit _ _ hp).trans (Dev.framed_wr _ HOSTQ.RING_PI 0 r _ (sel := fun _ _ => true) (by simp [ringPlaces, fieldsAll]) rfl)).trans
    (Dev.framed_inc _ HOSTQ.RING_ITEMS 0 r _ (sel := fun _ _ => true) (by simp [ringPlaces, fieldsAll]) rfl)).trans (Dev.framed_emit _ _ hp)

theorem Dev.framed_vecRise (d0 : Dev) (v : Nat) (d : Dev) (hp : Part.signals ∈ ps) : d.framed fs ps (Dev.vecRise d0 v d) := by
  unfold Dev.vecRise
  split
  · exact d.framed_msixSend v hp
  · exact .refl fs ps d

theorem Dev.framed_evtItem (fuel : Nat) (d0 : Dev) (l : Nat) (d : Dev) : d.framed ringPlaces [.signals] (Dev.evtItem fuel d0 l d) := by
  have hp : Part.signals ∈ [Part.signals] := by simp
  induction fuel generalizing d0 l d with
  | zero => exact .refl _ _ d
  | succ n ih =>
    unfold Dev.evtItem
    split
    · exact .refl _ _ d
    · dsimp only
      have h0 : d.framed ringPlaces [.signals] { d with host := { d.host with evtSeq := (d.host.evtSeq + 1) % 4096 } } := Dev.framed_sent hp rfl
      split
      · exact (h0.trans (Dev.framed_ringPut _ 1 _ (by omega))).trans (Dev.framed_msixSend _ _ hp)
      · refine (h0.trans (Dev.framed_inc _ HOSTQ.RING_DROPPED 0 1 _ (sel := fun _ _ => true) (by simp [ringPlaces, fieldsAll]) rfl)).trans
          (((Dev.framed_wr _ (HDR.EVT_STATUS .hostq) 0 0 _ (sel := fun _ _ => true) (by simp [ringPlaces, fieldsAll]) rfl).trans
            (Dev.framed_vecRise _ _ _ hp)).trans (ih _ _ _))

theorem Dev.framed_leavesRise (d0 : Dev) (ls : List Nat) (d : Dev) : d.framed ringPlaces [.signals] (Dev.leavesRise d0 ls d) := by
  unfold Dev.leavesRise
  exact (Dev.framed_foldl _ _ (fun d v _ => Dev.framed_vecRise d0 v d (by simp)) d).trans
    (Dev.framed_foldl _ _ (fun d l _ => Dev.framed_evtItem 3 d0 l d) _)

theorem ringPlaces_sub_eventAt (p : Page) (n : Nat) : ∀ g ∈ ringPlaces, g ∈ eventAt p n := by
  intro g hg; exact List.mem_append_right _ hg

/-- An event of a page. -/
theorem Dev.framed_raise (d : Dev) (p : Page) (n b : Nat) (hn : n < 65536 := by omega) : d.framed (eventAt p n) [.signals] (d.raise p n b) := by
  unfold Dev.raise
  have h : d.framed (eventAt p n) [.signals] (d.setEvt p n b) :=
    Dev.framed_wr d (HDR.EVT_STATUS p) n 0 _ (sel := fun i _ => i == n) (by simp [eventAt, fieldsAt]) (by simp) hn
  dsimp only
  split
  · exact h.trans ((Dev.framed_leavesRise _ _ _).mono (ringPlaces_sub_eventAt p n) (fun _ h => h))
  · exact h

/-- A condition of a page. -/
theorem Dev.framed_cond (d : Dev) (p : Page) (n bit : Nat) (b : Bool) (hn : n < 65536 := by omega) :
    d.framed (condAt p n) [.signals] (d.cond p n bit b) := by
  have hw : ∀ (d : Dev) v, d.framed (condAt p n) [.signals] (d.wr (HDR.LEVEL p) n 0 v) := fun d v =>
    Dev.framed_wr d (HDR.LEVEL p) n 0 v (sel := fun i _ => i == n) (by simp [condAt, fieldsAt]) (by simp) hn
  have hr : ∀ d : Dev, d.framed (condAt p n) [.signals] (d.raise p n bit) := fun d =>
    (d.framed_raise p n bit hn).mono (by
      intro g hg
      simp only [eventAt, fieldsAt, List.map_cons, List.map_nil, List.mem_append, List.mem_singleton] at hg
      simp only [condAt, fieldsAt, List.map_cons, List.map_nil, List.mem_append, List.mem_cons, List.not_mem_nil, or_false]
      exact hg.imp .inl id) (fun _ h => h)
  unfold Dev.cond Dev.condSet Dev.condClear
  split
  · split
    · exact .refl _ _ d
    · exact (hw _ _).trans (hr _)
  · split
    · exact hw _ _
    · exact .refl _ _ d

/-- A fault source's occurrence or condition. -/
theorem Dev.framed_setSrc (d : Dev) (n : Nat) (x : SrcSt) : d.framed faultPlaces [.signals, .faults] (d.setSrc n x) := by
  refine ⟨fun f i j _ _ _ => rfl, fun p hn => ?_⟩
  cases p <;> simp [Part.same, Dev.setSrc] at hn ⊢

theorem Dev.framed_presentCond (d : Dev) : d.framed faultPlaces [.signals, .faults] d.presentCond :=
  (d.framed_cond .lint2 0 0 _).mono (fun _ h => h) (by simp)

theorem Dev.framed_fault (d : Dev) (n detail : Nat) : d.framed faultPlaces [.signals, .faults] (d.fault n detail) :=
  (d.framed_setSrc n _).trans (Dev.framed_presentCond _)

theorem Dev.framed_faultCond (d : Dev) (n : Nat) (b : Bool) : d.framed faultPlaces [.signals, .faults] (d.faultCond n b) :=
  (d.framed_setSrc n _).trans (Dev.framed_presentCond _)

/-- A value out of range noted (R52). -/
theorem Dev.framed_busErr (d : Dev) (a : Nat) : d.framed rangePlaces [.signals] (d.busErr DEV.RANGE a) := by
  have h1 : d.framed rangePlaces [.signals] (d.wr DEV.RANGE 0 0 1) :=
    Dev.framed_wr _ DEV.RANGE 0 0 1 (sel := fun _ _ => true) (by simp [rangePlaces, fieldsAll]) rfl
  have h2 : (d.wr DEV.RANGE 0 0 1).framed rangePlaces [.signals] ((d.wr DEV.RANGE 0 0 1).wr DEV.BUS_ADDR 0 0 a) :=
    Dev.framed_wr _ DEV.BUS_ADDR 0 0 a (sel := fun _ _ => true) (by simp [rangePlaces, fieldsAll]) rfl
  have h := Dev.framed_raise ((d.wr DEV.RANGE 0 0 1).wr DEV.BUS_ADDR 0 0 a) .dev 0 3
  refine (h1.trans h2).trans ⟨fun f i j hi hj hn => h.1 f i j hi hj (fun g hg he => ?_), h.2⟩
  simp only [eventAt, fieldsAt, List.map_cons, List.map_nil, List.mem_append, List.mem_singleton] at hg
  rcases hg with rfl | hg
  · have := hn (HDR.EVT_STATUS .dev, fun _ _ => true) (by simp [rangePlaces, fieldsAll]) he
    simp at this
  · exact hn g (List.mem_append_right _ hg) he

/-! ### The journal and completions -/

/-- A change journalled (R395, R396). -/
theorem Dev.framed_jrnAdd (d : Dev) (k : Nat) (ws : List Nat) : d.framed (fieldsAll [PAIR.JRN_OVERFLOW]) [.pair] (d.jrnAdd k ws) := by
  have h : ∀ x : PairSt, d.framed (fieldsAll [PAIR.JRN_OVERFLOW]) [.pair] { d with pair := x } := fun x => by
    refine ⟨fun f i j _ _ _ => rfl, fun p hn => ?_⟩
    cases p <;> simp [Part.same] at hn ⊢
  unfold Dev.jrnAdd
  split
  · exact .refl _ _ d
  · dsimp only
    split
    · exact (h _).trans (Dev.framed_inc _ PAIR.JRN_OVERFLOW 0 0 _ (sel := fun _ _ => true) (by simp [fieldsAll]) rfl)
    · exact h _

theorem ringPlaces_sub_completion : ∀ g ∈ ringPlaces, g ∈ completionPlaces := fun _ hg => List.mem_append_right _ hg

theorem Dev.framed_countInflight (d : Dev) : d.framed completionPlaces [.signals, .commands, .pair] d.countInflight := by
  unfold Dev.countInflight
  exact (Dev.framed_wr _ DEV.CMD_INFLIGHT 0 0 _ (sel := fun _ _ => true) (by simp [completionPlaces, fieldsAll]) rfl).trans
    (Dev.framed_wr _ HOSTQ.CPL_WAIT 0 0 _ (sel := fun _ _ => true) (by simp [completionPlaces, fieldsAll]) rfl)

theorem Dev.framed_commands (d : Dev) (xs : List Inflight) (ws : List (List Nat)) : d.framed completionPlaces [.signals, .commands, .pair]
    { d with host := { d.host with
        inflight := xs
        cplWait := ws } } := by
  refine ⟨fun f i j _ _ _ => rfl, fun p hn => ?_⟩
  cases p <;> simp [Part.same] at hn ⊢

theorem Dev.framed_cplDrain (ws : List (List Nat)) (d : Dev) : d.framed completionPlaces [.signals, .commands, .pair] (Dev.cplDrain ws d) := by
  induction ws generalizing d with
  | nil => exact d.framed_commands d.host.inflight []
  | cons w ws ih =>
    unfold Dev.cplDrain
    split
    · exact (((d.framed_ringPut 0 w (by omega)).mono ringPlaces_sub_completion (by simp)).trans
        (Dev.framed_msixSend _ 0 (by simp))).trans (ih _)
    · exact d.framed_commands d.host.inflight _

/-- The event of a completion with WRONG_STATE, in the frame of completions. -/
theorem Dev.framed_raiseDev (d : Dev) (b : Nat) : d.framed completionPlaces [.signals, .commands, .pair] (d.raise .dev 0 b) := by
  have h := d.framed_raise .dev 0 b
  refine ⟨fun f i j hi hj hn => h.1 f i j hi hj (fun g hg he => ?_), fun p hp => h.2 p (fun hm => hp ?_)⟩
  · simp only [eventAt, fieldsAt, List.map_cons, List.map_nil, List.mem_append, List.mem_singleton] at hg
    rcases hg with rfl | hg
    · have := hn (HDR.EVT_STATUS .dev, fun _ _ => true) (by simp [completionPlaces, fieldsAll]) he
      simp at this
    · exact hn g (ringPlaces_sub_completion g hg) he
  · revert hm; simp; rintro rfl; simp

theorem Dev.framed_cplPush (d : Dev) (c : Inflight) (st : Status) (ab : Bool) (res : List Nat) :
    d.framed completionPlaces [.signals, .commands, .pair] (d.cplPush c st ab res) := by
  have h : d.framed completionPlaces [.signals, .commands, .pair] (d.countStatus st) := by
    unfold Dev.countStatus
    split
    · exact .refl _ _ d
    · exact (Dev.framed_inc _ DEV.CMD_REJECT 0 0 _ (sel := fun _ _ => true) (by simp [completionPlaces, fieldsAll]) rfl).trans
        (Dev.framed_raiseDev _ 0)
    · exact Dev.framed_inc _ DEV.CMD_BUSY 0 0 _ (sel := fun _ _ => true) (by simp [completionPlaces, fieldsAll]) rfl
  unfold Dev.cplPush
  dsimp only
  split
  · exact h.trans (Dev.framed_countInflight _)
  · exact (h.trans (Dev.framed_cplDrain _ _)).trans (Dev.framed_countInflight _)

/-- What a completion can do. -/
theorem Dev.framed_complete (d : Dev) (tag : Nat) (st : Status) (res : List Nat) (ab : Bool) :
    d.framed completionPlaces [.signals, .commands, .pair] (d.complete tag st res ab) := by
  unfold Dev.complete
  split
  · exact .refl _ _ d
  · dsimp only
    refine Dev.framed.trans ?_ (Dev.framed_countInflight _)
    refine Dev.framed.trans ?_ (Dev.framed_foldl _ _ (fun d x _ => Dev.framed_cplPush d x .wrongState false []) _)
    refine Dev.framed.trans ?_ (Dev.framed_commands _ _ _)
    refine Dev.framed.trans ?_ (Dev.framed_cplPush _ _ _ _ _)
    refine Dev.framed.trans (Dev.framed_commands d (d.host.inflight.filter (fun x => x.tag != tag)) d.host.cplWait) ?_
    split
    · exact (Dev.framed_jrnAdd _ _ _).mono (by simp [fieldsAll, completionPlaces]) (by simp)
    · exact .refl _ _ _

/-! ### The Hamper's memory (R357, R371) -/

/-- Bytes stored read back in place, and the others keep their values. -/
theorem memPut_get (bs : List Nat) (la : Nat) (m : FMap Nat) (a : Nat) :
    FMap.get 0 (memPut bs la m) a = if la ≤ a ∧ a < la + bs.length then bs.getD (a - la) 0 % 256 else FMap.get 0 m a := by
  induction bs generalizing la m with
  | nil =>
    have h : ¬(la ≤ a ∧ a < la) := by omega
    simp [memPut, h]
  | cons b bs ih =>
    rw [memPut, ih]
    by_cases h1 : a = la
    · subst h1
      have h2 : ¬(a + 1 ≤ a ∧ a < a + 1 + bs.length) := by omega
      have h3 : a ≤ a ∧ a < a + (b :: bs).length := by simp
      rw [if_neg h2, if_pos h3, FMap.get_set_same, Nat.sub_self, List.getD_cons_zero]
    · rw [FMap.get_set_ne _ _ _ h1]
      by_cases h2 : la + 1 ≤ a ∧ a < la + 1 + bs.length
      · have h3 : la ≤ a ∧ a < la + (b :: bs).length := by simp; omega
        have h4 : a - la = (a - (la + 1)) + 1 := by omega
        rw [if_pos h2, if_pos h3, h4, List.getD_cons_succ]
      · have h3 : ¬(la ≤ a ∧ a < la + (b :: bs).length) := by simp; omega
        rw [if_neg h2, if_neg h3]

/-- Every store keeps the canonical form of the memory. -/
theorem memPut_wf (bs : List Nat) (la : Nat) (m : FMap Nat) (h : FMap.wf 0 m = true) : FMap.wf 0 (memPut bs la m) = true := by
  induction bs generalizing la m with
  | nil => exact h
  | cons b bs ih => exact ih _ _ (FMap.wf_set 0 _ _ _ h)

theorem Dev.ddrWrite_byte (d : Dev) (la : Nat) (bs : List Nat) (a : Nat) :
    (d.ddrWrite la bs).ddrByte a = if la ≤ a ∧ a < la + bs.length then bs.getD (a - la) 0 % 256 else d.ddrByte a := memPut_get bs la _ a

theorem Dev.ddrWrite_wf (d : Dev) (la : Nat) (bs : List Nat) (h : FMap.wf 0 d.hamper.mem = true) :
    FMap.wf 0 (d.ddrWrite la bs).hamper.mem = true := memPut_wf bs la _ h

end Sys2Proof.Machine
end

