-- ==== Sys2Proof/Tests/Slice0.lean ====
section
/-! SUPPORT. Tests: ill-formed commands refused, worked examples of the spec, and for every statement that has hypotheses a state and
operands that meet them, clause by clause. Expected values come from the spec's examples and tables, or by hand from its rules. -/

set_option Elab.async false

namespace Sys2Proof.Tests

open Sys2Proof.Machine

/-- A command that answers a next state, of whose device `p` holds. -/
def ok (o : Host.Outcome State Fault Refusal) (p : Dev → Bool) : Bool :=
  match o with
  | .next t => p t.dev
  | _ => false

def at_ (d : Dev) : State := ⟨[], d⟩

/-- Registers written: field, instance, element, value. -/
def regs (d : Dev) (l : List (Field × Nat × Nat × Nat)) : Dev := l.foldl (fun d x => d.wr x.1 x.2.1 x.2.2.1 x.2.2.2) d

def rst : Dev := Dev.reset
def inMode (m : Mode) : Dev := { rst with mode := m }
def dRun : Dev := inMode .run
def later (d : Dev) (t : Nat) : Dev := { d with timebase := t }

/-- A device with one command taken and not started, tag 5. -/
def withCmd (d : Dev) (code : Nat) (args : List Nat) : Dev :=
  { d with host := { d.host with inflight := [⟨5, code, args, false, false⟩] } }

def cmd5 (code : Nat) (args : List Nat) : Inflight := ⟨5, code, args, false, false⟩

def evt (d : Dev) (p : Page) (n b : Nat) : Bool := (d.rd (HDR.EVT_STATUS p) n).testBit b

/-! ### Ill-formed commands: one for each check of Instr.wf, and well-formed neighbours -/

/-- A mate frame of a type with a payload, message number 1, and its CRC-32 (R388). -/
def mateFrame (type : Nat) (p : List Nat) : List Nat :=
  let ws := [type * 2 ^ 24 + p.length * 2 ^ 8, 1] ++ p
  ws ++ [mateCrc ws]

def mateFrames (ws : List Nat) : List Instr :=
  [.statusRx ws, .fatalFrameRx ws, .ckptCommitRx ws, .journalRx ws, .ackRx ws, .nakRx ws, .handoverRx ws, .handoverReqRx ws]

def cal0 : CalData := ⟨[63], [], [], 0, List.replicate 16 0⟩
def portItems0 : PortItems := ⟨511, 255, List.replicate 7 (-512), 0⟩

theorem test_wf_accepts :
    Instr.wf (.vddCoreSettled 1023) && Instr.wf (.gainReadback 0 63 true) && Instr.wf (.chirpSymbolRx 0 none) &&
    (mateFrames (mateFrame 1 (List.replicate 12 0))).all Instr.wf && Instr.wf (.stageFinish 0 (.rinse 1 [4095, 0])) &&
    Instr.wf (.powerupCalDone cal0) && Instr.wf (.calRetryPass 0 portItems0 false) && Instr.wf (.apertureWrite 0 [1]) &&
    Instr.wf (.flashRecordLoaded (.journal [(2 ^ 20 - 4, [2 ^ 32 - 1])])) && Instr.wf .shadowClose = true := by decide +kernel

theorem test_wf_boot : !Instr.wf (.flashRecordLoaded (.header [2 ^ 32])) && !Instr.wf (.flashRecordLoaded (.record [2 ^ 32] true)) &&
    !Instr.wf (.flashRecordLoaded (.journal [(2 ^ 20 - 3, [0])])) && !Instr.wf (.flashRecordLoaded (.journal [(0, [2 ^ 32])])) = true := by
  decide +kernel

theorem test_wf_calibration : !Instr.wf (.powerupCalDone { cal0 with elemDflt := [64] }) && !Instr.wf (.calRunDone { cal0 with elems := [(2048, [])] }) &&
    !Instr.wf (.calRunDone { cal0 with ports := [(512, [])] }) && !Instr.wf (.calRunDone { cal0 with tj := 512 }) &&
    !Instr.wf (.calRunDone { cal0 with tput := [] }) && !Instr.wf (.calRetryPass 0 { portItems0 with floor := 512 } false) &&
    !Instr.wf (.calRetryPass 0 { portItems0 with noise := -1 } false) && !Instr.wf (.calRetryPass 0 { portItems0 with ofs := [] } false) &&
    !Instr.wf (.sensorReading [] []) && !Instr.wf (.vddCoreSettled 1024) && !Instr.wf (.avsRead (some 1024)) = true := by decide +kernel

theorem test_wf_line : !Instr.wf (.stageFinish 0 (.rinse 1 [4096])) && !Instr.wf (.stageFinish 0 (.rinse 0 [0, 0])) &&
    !Instr.wf (.afeSpiDone 0 (2 ^ 24)) && !Instr.wf (.rawSpiDone (2 ^ 24)) && !Instr.wf (.gainReadback 0 64 true) &&
    !Instr.wf (.trunkFrameRx 0 (List.replicate 16384 1024)) && !Instr.wf (.trunkFrameRx 0 [0]) && !Instr.wf (.apertureWrite 0 []) = true := by
  decide +kernel

theorem test_wf_mate : (mateFrames [0, 0]).all (fun c => !Instr.wf c) && (mateFrames [2 ^ 32, 0, 0]).all (fun c => !Instr.wf c) &&
    !Instr.wf (.ckptDataRx true (2 ^ 64) (.part 1 true (.misc []))) && !Instr.wf (.ckptDataRx true 0 (.head [1])) &&
    !Instr.wf (.ckptDataRx true 0 (.head (List.replicate 11 (2 ^ 32)))) && !Instr.wf (.mirrorRx true (2 ^ 32) (.words 0 [])) = true := by
  decide +kernel

/-! ### Worked examples and table rows of the spec -/

/-- R69's CRC-32 of the nine bytes 0x31 to 0x39, as the example under R463 gives it. -/
theorem test_crc32 : crc32 [0x31, 0x32, 0x33, 0x34, 0x35, 0x36, 0x37, 0x38, 0x39] = 0xCBF43926 := by decide +kernel

/-- The listing of the example under R438, word by word. -/
theorem test_listing : [0x490200, 0x340800, 0x80C808, 0x61501A, 0x2954FF, 0x215401, 0x65504A, 0xC0003F].map ndecode =
    [some (.imm .lui 4 0 512), some (.imm .cmpi 0 2 0), some (.b .nonzero 2056), some (.mem .ld 5 4 26), some (.imm .andi 5 5 255),
     some (.imm .addi 5 5 1), some (.mem .st 5 4 74), some (.wait 63)] := by decide +kernel

/-- Words of R416's formats, bit by bit: an RRR function, a jump, an exchange, a call, BREM, BRK; a function and a condition that R417 makes
illegal. -/
theorem test_words :
    ndecode 0b000000000100100011000000 = some (.alu .add 1 2 3) ∧ ndecode 0b000001000000111100000001 = some (.jalr 3) ∧
    ndecode 0b000001000001010000000000 = some (.jr 5) ∧ ndecode 0b011010001000010000000011 = some (.mem .xch 2 1 3) ∧
    ndecode 0b100001001000001000000000 = some (.call .zero 0x200) ∧ ndecode 0b110001001100000000000000 = some (.brem 3) ∧
    ndecode 0b111110000000000000000000 = some .brk ∧ ndecode 0b000000000100100011111111 = none ∧ ndecode 0b100000000100001000000000 = none := by
  decide +kernel

/-- The example under R104: 10 dB of gain, −21.3 dBFS, target −12 dBFS. -/
theorem test_gain_advice : gainAdvice false false 20 (-48) 7413 1000000 = 19 := by decide +kernel

/-- The example under R200: lambda 10,240 and 120,832 with SOFT_SCALE 8 and P = 3,200. -/
theorem test_soft_value : softValue 10240 8 3200 = 2 ∧ softValue 120832 8 3200 = 7 := by decide +kernel

/-- The example under R253, n = 6,000: SF declares at 16 of 2^4 and clears at 14 of 2^5 windows. -/
theorem test_sf_window : winK 3 6000 = 4 ∧ winDecl 3 6000 = 16 ∧ winK 4 6000 = 5 ∧ winClr 4 6000 = 14 := by decide +kernel

/-- The SD thresholds of the same example. -/
theorem test_sd_window : winK 6 6000 = 11 ∧ winDecl 6 6000 = 13 ∧ winK 7 6000 = 14 ∧ winClr 7 6000 = 9 := by decide +kernel

/-- Frame bits and slots of the examples under R114 and R128: Q = 768 at 2/3 gives 512 bits and 49 slots, 36 bits give one slot. -/
theorem test_slots : infoOf 1 768 = 512 ∧ slotsOf 512 = 49 ∧ slotsOf 36 = 1 := by decide +kernel

/-- The link rates of the example under R79: M = 16 at FS_SEL 5 runs on one lane at 25,952 Mb/s. -/
theorem test_link_rate : rateSupported 16 1 5 = true ∧ rateSupported 16 1 6 = false := by decide +kernel

/-- R190's code: input 1 into the empty encoder gives 1 and 1. -/
theorem test_encoder : convBits 0 true = (true, true) ∧ convBits 1 false = (true, false) := by decide +kernel

/-- The interpolation of R475's example: bins of 21 taps at 40 °C and 25 at 60 °C, 47.5 °C, target 23. -/
def bins700 : Dev := (({ rst with starch := { rst.starch with bins := [((8 + 4) * 2048 + 700, 255 - 21), ((8 + 5) * 2048 + 700, 255 - 25)] } }).wr
  STARCH.BIN_VALID 0 0 (2 ^ 12 + 2 ^ 13))

theorem test_bin_target : bins700.binTarget 1 700 190 = some (23, false) ∧ guardTap 3 21 = 27 ∧ guardTap 3 25 = 32 := by decide +kernel

/-- The deadline of the example under R18: reference boundary 204,800,000, L2T_DELAY 4, NORMAL. -/
theorem test_deadline : (({ rst with arch := { rst.arch with marginWas := 3277 } }.wr DEV.L2T_DELAY 0 0 4).deadline 37 0
    (PortFrame.at 204800000 0 99)) = 204878643 := by decide +kernel

/-- The CHK example under R463 up to its third DATA write: the queue holds what was written, in order. -/
theorem test_chk_queue :
    ok (exec (.chkCfgWrite 3 0x800F0320) (at_ dRun)) (fun t => (t.chkUnit 3).queue == [.cfg true true true 0 15 32]) = true := by decide +kernel

/-! ### Witnesses: resets, straps and BOOT -/

def rstLow : Dev := { rst with host := { rst.host with resetLow := true } }
def bootAt (r : BootRead) (step t : Nat) : Dev :=
  { (inMode .boot).wr DEV.BOOT_STEP 0 0 step with timebase := t, host := { rst.host with boot := ⟨false, none, none, r, 0, [], []⟩ } }

/-- A header with one directory entry, and the record of TYPE 4 that it lists: 1,648 bytes, REV 1. -/
def header0 : List Nat :=
  let ws := [0x504E3936, 1, 1, 0, 4 * 65536, 0, 1664, 0]
  ws ++ [crc32Words ws]
def body4 : List Nat := 1 :: List.replicate 411 0
def record4 : List Nat := [4 * 65536, 1648, crc32Words body4, 0] ++ body4
def boot6 : Dev :=
  let d := bootAt (.record false) 6 16384000
  { d with host := { d.host with boot := { d.host.boot with dirA := [⟨4, 0, 0, 1664⟩] } } }

theorem test_wit_reset_rows :
    (rst.host.resetLow = false ∧ ok (exec .resetNLow (at_ (later rst 9))) (fun t => t.host.resetLow && t.mode == .reset && t.timebase == 9)) ∧
    (rstLow.host.resetLow = true ∧ ok (exec .resetNRelease (at_ (later rstLow 9))) (fun t => t.timebase == 0 && t.host.strapFrom == some 0)) ∧
    ((later rst 163840).host.strapFrom = some 0 ∧ 0 + 163840 ≤ (later rst 163840).timebase ∧
      ok (exec (.strapFilterEnd 0 100 0 0) (at_ (later rst 163840))) (fun t => t.mode == .boot && t.rd DEV.BOOT_STEP == 1)) := by decide +kernel

theorem test_wit_boot_rows :
    ok (exec (.flashRecordLoaded .sfdp) (at_ (bootAt .sfdp 1 0))) (fun t => t.rd DEV.BOOT_STEP == 2) ∧
    ((bootAt (.header true) 2 1638400).timebase ≤ (bootAt (.header true) 2 1638400).host.boot.since + 1638400 ∧
      headerGood header0 = true ∧ ok (exec (.flashRecordLoaded (.header header0)) (at_ (bootAt (.header true) 2 1638400))) (fun t => t.rd DEV.BOOT_STEP == 3)) ∧
    ((boot6.host.boot.entry false 4).isSome = true ∧ ((boot6.host.boot.entry false 4).bind (fun e => recordBody e record4)).map (fun x => x.1.length) = some 1648 ∧
      boot6.timebase ≤ boot6.host.boot.since + 16384000) ∧
    ok (exec (.flashRecordLoaded (.record record4 false)) (at_ boot6))
      (fun t => t.lint.refsRev == some 1 && t.rd DEV.BOOT_STEP == 7) ∧
    ((bootAt .scan 8 0).mode = .boot ∧ (bootAt .scan 8 0).host.boot.reading = .scan) ∧
    ((bootAt (.header false) 2 1638401).host.boot.hdr true = none ∧
      ok (exec .flashReadTimeout (at_ (bootAt (.header false) 2 1638401))) (fun t => t.host.boot.reading == .header true)) := by decide +kernel

theorem test_wit_host_reset_rows :
    ok (exec .internalResetEnd (at_ (later { rst with host := { rst.host with internalAt := some 1, strapFrom := none } } 1640)))
      (fun t => t.host.strapFrom == some 1640 && t.mode == .reset) ∧
    ok (exec .perstAssert (at_ (dRun.wr HOSTQ.RING_ENABLE 0 3 1))) (fun t => t.host.perst && t.rd HOSTQ.RING_ENABLE 0 3 == 0) ∧
    ok (exec .pcieEndpointReturn (at_ { dRun with host := { dRun.host with perst := true } })) (fun t => !t.host.perst && evt t .dev 0 4) ∧
    ok (exec (.pcieLinkChange 0 4 false) (at_ dRun)) (fun t => evt t .dev 0 12) ∧
    ok (exec .refclkWatchdog (at_ dRun)) (fun t => t.mode == .safe) := by decide +kernel

/-! ### Witnesses: host accesses and commands -/

def vec9 : Dev := (regs dRun [(DEV.LEAF_VEC, 0, 1252, 9), (HDR.EVT_STATUS .dev, 0, 0, 1), (HDR.EVT_ENABLE .dev, 0, 0, 1)])
def masked9 : Dev := { dRun with host := { dRun.host with msixPend := [(9, true)] } }
def unmasked9 : Dev := { vec9 with host := { vec9.host with msixTable := [(39, 1)] } }

theorem test_wit_host_access :
    ok (exec (.registerWrite 0x74 2 0xFFFFFFFFFFFFFFFF) (at_ dRun)) (fun t => t.rd DEV.WALLCLOCK == 0xFFFFFFFF) ∧
    ok (exec .timebaseLoRead (at_ (later dRun (2 ^ 64 - 1))))
      (fun t => t.rd DEV.TIMEBASE_HI == 0xFFFFFFFF && t.host.out == [.readData [255, 255, 255, 255]]) ∧
    (softPage 0xB008 = some (.afec, 0) ∧ dRun.writable .afec = true ∧ dRun.wordMisuse .afec 0 8 2 = none ∧
      ok (exec (.softResetWrite 0xB008 2) (at_ dRun)) (fun t => t.on (HDR.SOFT_RESET .afec))) ∧
    (softPage 0xB008 = some (.afec, 0) ∧ (dRun.wr (HDR.SOFT_RESET .afec) 0 0 1).on (HDR.SOFT_RESET .afec) = true) ∧
    (vec9.wordMisuse .dev 0 0x7C 9 = none ∧ vec9.vecOr 9 = true ∧ (unmasked9.msixWord 39).testBit 0 = false ∧ (vec9.msixWord 39).testBit 0 = true ∧
      ok (exec (.vecAckWrite 9) (at_ unmasked9)) (fun t => t.host.out == [.msix 9])) ∧
    ((masked9.msixWord 39).testBit 0 = true ∧ ok (exec (.msixUnmask 9) (at_ masked9)) (fun t => t.host.out == [.msix 9])) := by decide +kernel

def basket0 (d : Dev) (ws : List Nat) : Dev := { d with host := { d.host with baskets := [(0, ⟨[ws], none, 1⟩)] } }
def flashBusy : Dev := { withCmd (inMode .ready) 12 [0, 0, 0, 4096] with
  host := { (withCmd (inMode .ready) 12 [0, 0, 0, 4096]).host with flashJob := some (5, 0, 4096) } }
def journalBusy : Dev := { dRun with host := { dRun.host with journalJob := [(2, 7)] } }

theorem test_wit_command_rows :
    ((basket0 dRun [0x20E00005, 1]).nextItem = some [0x20E00005, 1] ∧ ok (exec .commandTake (at_ (basket0 dRun [0x20E00005, 1])))
      (fun t => t.host.inflight == [cmd5 14 [1]] && (t.basket 0).items == [])) ∧
    ((withCmd (inMode .standby) 13 [3]).stateCmd 5 = some (cmd5 13 [3]) ∧
      ok (exec (.cmdState 5) (at_ (withCmd (inMode .ready) 13 [4]))) (fun t => t.mode == .run)) ∧
    ((withCmd (inMode .ready) 12 [0, 0, 0, 4096]).ready 12 5 = some (cmd5 12 [0, 0, 0, 4096]) ∧ flashArgsBad [0, 0, 0, 4096] = false ∧
      ok (exec (.cmdFlashWrite 5) (at_ (withCmd (inMode .ready) 12 [0, 0, 0, 4096]))) (fun t => t.host.flashJob == some (5, 0, 4096))) ∧
    ok (exec (.flashWriteDone true) (at_ flashBusy)) (fun t => t.host.flashJob == none && t.host.inflight == []) ∧
    ok (exec (.journalWriteDone false) (at_ journalBusy)) (fun t => t.host.journalJob == [] && evt t .dev 0 11) := by decide +kernel
/-! ### Witnesses: moves, programmes, calibration -/

def upPort (d : Dev) (n : Nat) : Dev := { d with arch := { d.arch with ports := [(n, .up)] } }
def mv (copying : Option Nat) : Move := ⟨3, 1, 0, some (5, 5), copying, false, false⟩
def dMove (copying : Option Nat) : Dev := { later (upPort dRun 3) 77 with arch := { (upPort dRun 3).arch with moves := [mv copying] } }
def dLaneReset (o : Overrun) : Dev := { later (upPort dRun 3) 100 with arch := { (upPort dRun 3).arch with overrun := [(2, some o)] } }

theorem test_wit_pipeline_rows :
    ((dMove none).canSwitch 3 = true ∧ ok (exec (.portMoveSwitch 3) (at_ (dMove none))) (fun t => t.arch.moves == [mv (some 77)])) ∧
    ((dMove (some 77)).arch.moves = [mv (some 77)] ∧ (dMove (some 77)).timebase ≤ 77 + copyTicks ∧
      ok (exec (.contextCopyDone 3) (at_ (dMove (some 77)))) (fun t => t.rd PORT.LANE 3 == 1 && t.arch.moves == [] && evt t .dev 0 10)) ∧
    ((dLaneReset .resetDue).resetReady 2 = true ∧ ok (exec (.laneResetStart 2) (at_ (dLaneReset .resetDue)))
      (fun t => FMap.get none t.arch.overrun 2 == some (.resetting 20580))) ∧
    (FMap.get none (dLaneReset (.resetting 100)).arch.overrun 2 = some (.resetting 100) ∧
      ok (exec (.laneResetEnd 2) (at_ (dLaneReset (.resetting 100)))) (fun t => FMap.get none t.arch.overrun 2 == none)) ∧
    ok (exec .overrunAdviceExpire (at_ { dRun with arch := { dRun.arch with advice := some 3 } })) (fun t => t.arch.advice == none) ∧
    ok (exec (.portMissWindowClear 3) (at_ { dRun with arch := { dRun.arch with ports := [(3, .degraded)] } })) (fun t => t.portMode 3 == .up) := by
  decide +kernel

def dProg (p : ProgPhase) (old target t : Nat) : Dev :=
  (later { (dRun.wr DEV.PROG_ACTIVE 0 0 old) with arch := { dRun.arch with prog := some ⟨5, old, target, p⟩ } } t)

theorem test_wit_programme_rows :
    ((withCmd dRun 4 [2]).ready 4 5 = some (cmd5 4 [2]) ∧ (withCmd dRun 4 [2]).prog = 1 ∧
      withinCeiling (withCmd dRun 4 [2]).loadUnits 2 = true ∧
      ok (exec (.cmdProgramme 5) (at_ (withCmd dRun 4 [2]))) (fun t => t.rd DEV.PROG_BUSY == 1 && t.rd DEV.PROG_TARGET == 2)) ∧
    (progMv 0 < progMv 2 ∧ ok (exec (.vddCoreSettled (progMv 2 + 10)) (at_ (dProg (.voltage 0) 0 2 0)))
      (fun t => t.arch.prog == some ⟨5, 0, 2, .walk 0⟩)) ∧
    ((dProg (.undoWalk 0) 0 2 20480).arch.prog = some ⟨5, 0, 2, .undoWalk 0⟩ ∧ 0 + 20480 ≤ (dProg (.undoWalk 0) 0 2 20480).timebase) ∧
    ((dProg .apply 0 2 327680).sys.nextMf ≤ (dProg .apply 0 2 327680).timebase ∧ progMv 0 ≤ progMv 2 ∧
      ok (exec .progParamApply (at_ (dProg .apply 0 2 327680))) (fun t => t.arch.prog == none && t.rd DEV.PROG_ACTIVE == 2)) ∧
    ok (exec .avsTimeout (at_ (dProg (.voltage 0) 0 2 819200))) (fun t => t.arch.prog == some ⟨5, 0, 2, .undoWalk 819200⟩) ∧
    ok (exec (.avsRead (some 745)) (at_ (dRun.wr STARCH.AVS_TARGET 0 0 720))) (fun t => t.starch.avsNear == 1) ∧
    ((withCmd dRun 11 []).ready 11 5 = some (cmd5 11 []) ∧ (withCmd dRun 11 []).pinsExceed = false ∧
      ok (exec (.cmdPlaceApply 5) (at_ (withCmd dRun 11 []))) (fun t => t.arch.placeTag == some 5)) ∧
    (dRun.mode ≠ .reset ∧ dRun.mode ≠ .boot ∧ dRun.starch.nextRead ≤ dRun.timebase) := by decide +kernel

def items0 : PortItems := ⟨5, 6, [0, 0, 0, 0, 0, 0, 0], 1⟩
def dCalRun : Dev := { inMode .cal with calFrom := .ready, starch := { rst.starch with run := some ⟨5, 1, 0⟩ } }
def dDeferred : Dev := { regs (upPort dRun 3) [(PORT.CAL_DEFERRED, 3, 0, 1), (STARCH.DEFER_RETRY, 0, 0, 1)] with
  starch := { rst.starch with
    window := [(3, 32)]
    passes := [(3, [items0])] } }

theorem test_wit_calibration_rows :
    ((inMode .cal).mode = .cal ∧ (inMode .cal).calFrom = .boot) ∧
    (((withCmd (inMode .maint) 5 [15, 0x3FF]).wr (HDR.EXPERT .starch) 0 0 1).ready 5 5 = some (cmd5 5 [15, 0x3FF]) ∧ calArgsBad [15, 0x3FF] = false ∧
      ok (exec (.cmdCalRun 5) (at_ ((withCmd (inMode .maint) 5 [15, 0x3FF]).wr (HDR.EXPERT .starch) 0 0 1)))
        (fun t => t.mode == .cal && t.calFrom == .maint)) ∧
    (dCalRun.starch.run = some ⟨5, 1, 0⟩ ∧ dCalRun.mode = .cal) ∧
    (dDeferred.on PORT.CAL_DEFERRED 3 = true ∧ dDeferred.on STARCH.DEFER_RETRY = true ∧ FMap.get 0 dDeferred.starch.window 3 = 32 ∧ FMap.get false dDeferred.starch.touched 3 = false ∧
      portAgree items0 ⟨7, 4, [2, 0, 0, 0, 0, 0, -2], 1⟩ = true ∧ portAgree items0 ⟨8, 4, [0, 0, 0, 0, 0, 0, 0], 1⟩ = false ∧
      ok (exec (.calRetryPass 3 ⟨7, 4, [2, 0, 0, 0, 0, 0, -2], 1⟩ false) (at_ dDeferred)) (fun t => !t.on PORT.CAL_DEFERRED 3)) := by
  decide +kernel
/-! ### Witnesses: links, gain, SPI, timing -/

def withLink (d : Dev) (m : LinkMode) (since : Nat) : Dev := { d with line := { d.line with links := [(4, ⟨m, since, none, none, 0⟩)] } }

/-- Link 4 on lane 0: M = 8, L = 1, FS_SEL 1, its page enabled. -/
def link4 : Dev := regs dRun [(JLANE.LINK, 0, 0, 4), (JLANE.LANE_ID, 0, 0, 0), (JLANE.M, 0, 0, 8), (JLANE.L_CODE, 0, 0, 0),
  (JLANE.FS_SEL, 0, 0, 1), (HDR.ENABLE .jlane, 0, 0, 1)]

/-- GPIO[15] sampled high twice, 10 µs ago for the last time. -/
def pin15 : Dev := later { dRun with line := { dRun.line with gpio := [(15, ⟨true, 2, 0⟩)] } } 1639

theorem test_wit_link_rows :
    (dRun.wordMisuse .jlane 47 8 1 = none ∧ dRun.writable .jlane = true) ∧
    ((withLink link4 .syncing 0).linkSound 4 = true ∧ ((withLink link4 .syncing 0).link 4).mode = .syncing) ∧
    (let d := later (withLink link4 .syncing 0) (163840 * link4.linkField 4 JLANE.SYNC_TIMEOUT)
     (d.link 4).since + 163840 * d.linkField 4 JLANE.SYNC_TIMEOUT ≤ d.timebase) ∧
    ok (exec (.linkRetry 31) (at_ (later { dRun with line := { dRun.line with links := [(31, ⟨.failed, 5, none, some 1, 3⟩)] } } 16384005)))
      (fun t => (t.link 31).mode == .syncing && (t.link 31).since == 16384005) ∧
    (((withLink link4 .up 0).link 4).mode = .up ∧ lossDown (.syncHeaders 0 16) = true ∧ lossDown (.syncHeaders 0 15) = false) ∧
    (((withLink link4 .syncing 0).link 4).mode ≠ .disabled ∧ ((withLink link4 .syncing 0).link 4).lemc = none) ∧
    (let d := later link4 (link4.stampOf 64 (9 + 1 - 1) + usTicks 2)
     d.stampOf 64 (9 + 1 - 1) + usTicks 2 ≤ d.timebase ∧ ok (exec (.sampleFill 64 9 1) (at_ d)) (fun t => (t.rinse 64).fills == [(9, 1)])) ∧
    (pin15.gpioBall 15 true = true ∧ 0 + usTicks 10 ≤ pin15.timebase ∧ (pin15.rd DEV.GPIO_IN).testBit 15 = false ∧
      ok (exec (.gpioInputChange 15 true) (at_ pin15)) (fun t => t.rd DEV.GPIO_IN == 32768)) ∧
    (pin15.gpioBall 15 false = false ∧ ok (exec (.gpioInputChange 15 false) (at_ pin15)) (fun t => t.rd DEV.GPIO_IN == 0)) := by
  decide +kernel

def withGain (d : Dev) (g : GainJob) : Dev := { d with line := { d.line with rinse := [(7, { RinseSt.reset with gain := some g })] } }
/-- Code 9 written at TIMEBASE 0, no read-back yet. -/
def gain9 : GainJob := ⟨9, some 0, 0, none, 0, 0, none⟩

def withMaster (d : Dev) (m : MasterSt) : Dev := { d with line := { d.line with masters := [(2, m)] } }

theorem test_wit_gain_rows :
    (dRun.wordMisuse .afec 0 0x2FC 0x3F3F3F3F = none ∧ dRun.writable .afec = true ∧ dRun.mode ≠ .standby) ∧
    ((later (withGain dRun gain9) 16384).readsBack 7 gain9 = true ∧ (later (withGain dRun gain9) 327680).readsBack 7 gain9 = true ∧
      ok (exec (.gainReadback 7 9 true) (at_ (later (withGain dRun gain9) 16384)))
        (fun t => t.rd AFEC.GAIN_APPLIED 0 7 == 9 && (t.rinse 7).gain == none)) ∧
    (327680 ≤ gain9.waited 327680) ∧
    ok (exec (.gainAdviceUpdate 7) (at_ { dRun with line := { dRun.line with rinse := [(7, { RinseSt.reset with window := 16 })] } }))
      (fun t => (t.rinse 7).window == 0) ∧
    ok (exec (.afeSpiDone 2 0x9600) (at_ (withMaster dRun ⟨[], some (.idRead 31), false, false⟩))) (fun t => (t.rd AFEC.AFE_PRESENT).testBit 31) ∧
    (dRun.wordMisuse .afec 0 0x4C 0x10000 = none ∧ dRun.writable .afec = true) ∧
    ((dRun.wr AFEC.HOLD 0 2 1).on AFEC.HOLD 0 2 = true ∧ (dRun.wr AFEC.HOLD 0 2 1).on AFEC.HELD 0 2 = false ∧
      ok (exec (.spiHeld 2) (at_ (dRun.wr AFEC.HOLD 0 2 1))) (fun t => t.on AFEC.HELD 0 2)) ∧
    ((dRun.wr AFEC.HELD 0 2 1).wordMisuse .afec 0 0x60 0x80000020 = none ∧
      ok (exec (.afecRawGo 0x80000020) (at_ (dRun.wr AFEC.HELD 0 2 1))) (fun t => t.on AFEC.RAW_GO && (t.master 2).raw)) ∧
    ok (exec (.rawSpiDone 0x1234567) (at_ (dRun.wr AFEC.RAW_GO 0 0 1))) (fun t => t.rd AFEC.RAW_RX == 0x234567) := by decide +kernel

def withSys (d : Dev) (s : SysSt) : Dev := { d with sys := s }
def fsync (t : Nat) : Dev := later { dRun with line := { dRun.line with fsyncRef := some 100, fsyncBad := 2 } } t
def jumpSys : SysSt := { SysSt.reset with
  srcs := [(0, 1)]
  sel := some 0
  jumpDue := true
  nextFrame := 500 }
def dJump : Dev := { withSys (later (inMode .ready) 500) jumpSys with line := { rst.line with fsyncRef := some 100 } }

def dQual : Dev := later (withSys dRun { SysSt.reset with
  srcs := [(0, 3)]
  entries := [(0, ⟨7, false, false⟩)] }) (7 + 163840000 * dRun.rd DEV.SRC_QUAL)

theorem test_wit_timing_rows :
    ok (exec (.fsyncInEdge 8 8) (at_ (fsync 20576))) (fun t => t.line.fsyncRef == some 20576 && t.line.fsyncBad == 0) ∧
    ok (exec (.fsyncInEdge 8 8) (at_ (fsync 20584))) (fun t => t.line.fsyncRef == some 20584 && t.line.fsyncBad == 0) ∧
    ok (exec .fsyncPeriodTimeout (at_ (fsync 20585))) (fun t => t.line.fsyncRef == some 20580 && t.line.fsyncGood == 0) ∧
    (dQual.entryFailed 0 = false ∧ (dQual.entry 0).since + 163840000 * dQual.rd DEV.SRC_QUAL ≤ dQual.timebase ∧
      ok (exec (.sourceQualified 0) (at_ dQual)) (fun t => (t.entry 0).qualified)) ∧
    ok (exec .tstateLocked (at_ ((withSys dRun { SysSt.reset with okRun := 8000 }).wr DEV.TSTATE 0 0 1))) (fun t => t.rd DEV.TSTATE == 2) ∧
    ok (exec .tstateUnlocked (at_ ((withSys dRun { SysSt.reset with farRun := 16 }).wr DEV.TSTATE 0 0 2))) (fun t => t.rd DEV.TSTATE == 1) ∧
    (dJump.mode.mayJump = true ∧ dJump.tracking = true ∧ dJump.lastRef 0 = some 100 ∧ 16 < (phaseErr 0 100 dJump.effOffset).natAbs ∧
      ok (exec .alignJump (at_ dJump)) (fun t => t.rd DEV.ALIGN_JUMPS == 1)) ∧
    ok (exec .holdValidSet (at_ (later (withSys dRun { SysSt.reset with lockedAt := some 4 }) 2785280004))) (fun t => t.on DEV.HOLD_VALID) ∧
    ((later dRun 20480).sys.nextFrame ≤ (later dRun 20480).timebase) ∧
    ((later dRun 327680).sys.nextMf ≤ (later dRun 327680).timebase) := by decide +kernel

/-! ### Witnesses: start-up and shared ports -/

def withNeedle (d : Dev) : Dev := { d with needle := { d.needle with loaded := true } }
def actPort (d : Dev) (n : Nat) (x : PortSt) : Dev :=
  { d with
    arch := { d.arch with ports := [(n, .activating)] }
    lines := { d.lines with ports := [(n, x)] } }
def offerPort (acc : Option Nat) (t : Nat) : Dev :=
  (later (actPort dRun 511 { PortSt.reset with offer := some ⟨3, false, acc⟩ }) t).wr PORT.LC_ACTIVE 511 0 1
def pamPort (phase t : Nat) (x : PamSt) : Dev :=
  regs (later (actPort dRun 511 { PortSt.reset with pam := x }) t) [(PORT.LC_ACTIVE, 511, 0, 2), (PORT.ACT_STATE, 511, 0, phase)]

/-- Sixteen symbols of the station's marker decided, the last of them 1 ms after the downstream marker's end. -/
def markerEnd : Int := 65536 * (163840 * (2 * (pamPort 6 163840 PamSt.reset).axis 511) / 5)
def markerPort : Dev := regs (later (actPort dRun 511 { PortSt.reset with
    pam := { PamSt.reset with marker := some 0 }
    wring := { PortSt.reset.wring with
      eq := { PortSt.reset.wring.eq with next := some markerEnd }
      past := (List.range 16).map (fun i => if i % 2 == 1 then 5 else -5) } }) 163840) [(PORT.LC_ACTIVE, 511, 0, 2), (PORT.ACT_STATE, 511, 0, 6)]

theorem test_wit_startup_rows :
    (let d := withNeedle (withCmd dRun 2 [511])
     d.ready 2 5 = some (cmd5 2 [511]) ∧ d.enabled 511 = false ∧ d.needle.loaded = true ∧ withinCeiling (d.loadUnits + d.portUnits 511) d.prog = true ∧
       d.on PORT.LANE_PIN 511 = false ∧ d.startOverPins 511 = false) ∧
    ((withCmd dRun 3 [511]).ready 3 5 = some (cmd5 3 [511]) ∧ (withCmd dRun 3 [511]).inMove 511 = false) ∧
    (let d : Dev := { withCmd dRun 3 [511] with arch := { dRun.arch with moves := [⟨511, 1, 0, some (5, 5), none, false, false⟩] } }
     d.ready 3 5 = some (cmd5 3 [511]) ∧ d.inMove 511 = true) ∧
    (let d := offerPort none (4 + (offerPort none 0).actWait 511)
     d.offering 511 = true ∧ (d.port 511).offer = some ⟨3, false, none⟩ ∧ 3 + d.actWait 511 < d.timebase) ∧
    ((offerPort (some 9) 10485769).offering 511 = true ∧ ((offerPort (some 9) 10485769).port 511).offer = some ⟨3, false, some 9⟩) ∧
    ((pamPort 1 2621440 PamSt.reset).attempting 511 = true ∧ phaseTicks ((pamPort 1 2621440 PamSt.reset).act 511) = some 2621440) ∧
    ((pamPort 2 49152000 PamSt.reset).attempting 511 = true ∧
      ok (exec (.stationToneDetected 511) (at_ (pamPort 2 49152000 PamSt.reset))) (fun t => t.rd PORT.ACT_STATE 511 == 3)) ∧
    ((pamPort 2 49152000 PamSt.reset).act 511 = 2) ∧
    (markerPort.attempting 511 = true ∧ markerPort.act 511 = 6 ∧ 14 ≤ markerHits (((markerPort.port 511).wring.past).drop 0) ∧
      markerPort.ticksOf 511 (Int.fdiv (markerEnd - spanAt 0 (markerPort.port 511).wring.eq.eps) 65536) = 163840 ∧
      ok (exec (.stationMarkerAccepted 511 0) (at_ markerPort)) (fun t => t.rd PORT.ACT_STATE 511 == 7)) ∧
    (let d := pamPort 6 196609 { PamSt.reset with marker := some 0 }
     d.attempting 511 = true ∧ d.act 511 = 6 ∧ (d.port 511).pam.marker = some 0 ∧ 0 + 196608 < d.timebase) ∧
    (let d := pamPort 5 245760000 PamSt.reset
     d.attempting 511 = true ∧ (d.port 511).pam.quietAt + 245760000 ≤ d.timebase) ∧
    (let d := pamPort 8 5242880 { PamSt.reset with warmAt := some 0 }
     d.portMode 511 = .activating ∧ d.isPam 511 = true ∧
      ok (exec (.warmTimeout 511) (at_ d)) (fun t => t.rd PORT.ACT_STATE 511 == 8 && (t.port 511).pam.warmAt == none)) := by decide +kernel

def det0 : Detect := ⟨0, 0, 0, false, none, 0⟩
def rec0 (accepted : Bool) (syms : Nat) : Reception :=
  ⟨0, 0, [], det0, 0, 0, true, [1, 2], (0, 0), List.replicate syms [], accepted, 2, 1, false, none, false⟩
def chirpPort (shared : Bool) : Dev := regs (upPort dRun 9) [(PORT.LC_ACTIVE, 9, 0, 1), (PORT.SHARED, 9, 0, shared.toNat), (JLANE.FS_SEL, 0, 0, 4),
  (PORT.PORT_WORD, 9, 0, 192), (PORT.WINDOWS, 9, 0, 2), (PORT.CYCLE, 9, 0, 1), (PORT.BURST_SLOTS, 9, 0, 1)]
def slotPort (accepted : Bool) : Dev :=
  { chirpPort true with lines := { dRun.lines with ports := [(9, { PortSt.reset with shared := { SharedSt.reset with ctxB := some (rec0 accepted ((chirpPort true).payloadSyms 9 16)) } })] } }
def stnPort (x : StnRx) (st t : Nat) : Dev :=
  { later (regs (chirpPort true) [(STN.STN_STATE, stnKey 9 15, 0, st)]) t with lines := { dRun.lines with stns := [(stnKey 9 15, x)] } }
def granted : Dev :=
  let d := later ((chirpPort true).wr STN.STN_STATE (stnKey 9 1) 0 2) 900000000
  { d with lines := { d.lines with ports := [(9, { PortSt.reset with shared := { SharedSt.reset with
      cycleAt := some 0
      map := ⟨[1, 15, 15, 15, 15, 15, 15, 15, 15, 15, 15, 15, 15, 15, 15, 15], false⟩ } })] } }

theorem test_wit_shared_rows :
    ((chirpPort false).enabled 9 = true ∧ (chirpPort false).cfgBad 9 = false ∧ (chirpPort false).shared 9 = false) ∧
    ((chirpPort true).enabled 9 = true ∧ (chirpPort true).cfgBad 9 = false ∧ (chirpPort true).shared 9 = true) ∧
    (((slotPort false).slot 9 true).all (fun r => r.pwOk && !r.accepted && r.heads.length == 2) = true ∧
      ((slotPort false).slot 9 true).isSome = true) ∧
    (((slotPort true).slot 9 true).all (fun r => r.accepted && r.len == 1 && r.cols.length == (slotPort true).payloadSyms 9 r.frames) = true ∧
      ((slotPort true).slot 9 true).isSome = true) ∧
    (granted.shared 9 = true ∧ granted.missedWindow 9 0 = some (0, 1, true)) ∧
    ((stnPort StnRx.reset 1 10485760).stnState 9 15 = 1 ∧ ((stnPort StnRx.reset 1 10485760).stn 9 15).joinAt + 10485760 ≤ 10485760) ∧
    (let d := stnPort { StnRx.reset with wantLost := dRun.rd PORT.BURST_LOS 9 } 2 0
     d.stnState 9 15 = 2 ∧ d.rd PORT.BURST_LOS 9 ≤ (d.stn 9 15).wantLost) ∧
    (let d := stnPort StnRx.reset 3 (16384000 * dRun.rd PORT.DROP_TIME 9)
     d.stnState 9 15 = 3 ∧ (d.stn 9 15).lostAt + 16384000 * d.rd PORT.DROP_TIME 9 ≤ d.timebase) ∧
    (let d := stnPort { StnRx.reset with leaving := some 8 } 2 8
     d.stnState 9 15 ≠ 0 ∧ (d.stn 9 15).leaving = some 8 ∧ 8 ≤ d.timebase) := by decide +kernel

/-! ### Witnesses: lanes, defects, monitoring -/

def frame0 (stage num : Nat) (absent : Bool) : PortFrame := { PortFrame.at 0 0 stage with num := num, absent := absent }
def lanePort (fs : List PortFrame) (t : Nat) : Dev :=
  { later (upPort dRun 4) t with arch := { (upPort dRun 4).arch with frames := [(8, fs)] } }

def loopPort : Dev := { later ((upPort dRun 4).wr PORT.TIMING_MODE 4 0 2) 5 with lines := { dRun.lines with
  ports := [(4, { PortSt.reset with tx := { TxSt.reset with
    start := some 0
    mfStart := 5 } })] } }

theorem test_wit_lane_rows :
    (let d := lanePort [frame0 99 0 true, frame0 1 1 false] 200000
     d.enabled 4 = true ∧ (d.lane 4 0).find? (fun f => !f.absent) = some (frame0 1 1 false) ∧ d.nextDeadline 4 (frame0 1 1 false) ≤ d.timebase) ∧
    (loopPort.enabled 4 = true ∧ loopPort.dsNext 4 ≤ loopPort.timebase) ∧
    (let d := regs (lanePort [frame0 5 3 false] 0) [(PORT.TIMING_MODE, 4, 0, 1), (DEV.RATE_PROFILE, 0, 0, 0)]
     d.slipping 4 = true ∧ d.slipNext 4 = some (frame0 5 3 false)) := by decide +kernel

def stnWin (sd sf : Nat) : Dev := { upPort dRun 6 with lines := { dRun.lines with stns := [(stnKey 6 0, { StnRx.reset with
  sd := ⟨sd, 0⟩
  sf := ⟨sf, 0⟩ })] } }

theorem test_wit_defect_rows :
    (let d := stnWin (2 ^ dRun.rd PORT.SD_K 6) 0
     d.enabled 6 = true ∧ d.windowDone 6 0 5 = true ∧ d.frozen 6 0 = false) ∧
    (let d := stnWin 0 (2 ^ dRun.rd PORT.SF_K 6)
     d.enabled 6 = true ∧ d.windowDone 6 0 6 = true ∧ d.frozen 6 0 = false) ∧
    (let d : Dev := { dRun with lines := { dRun.lines with stns := [(stnKey 6 3, { StnRx.reset with freezeEnd := some 0 })] } }
     d.reached (d.stn 6 3).freezeEnd = true ∧ d.frozen 6 3 = false) ∧
    (let d := (upPort dRun 6).modPort 6 (fun (x : PortSt) => { x with recheck := some 0 })
     d.enabled 6 = true ∧ (d.port 6).recheck = some 0 ∧ 0 ≤ d.timebase) ∧
    (let d := dRun.wr PORT.TX_RDI 6 0 1
     d.on PORT.TX_RDI 6 = true ∧ ok (exec (.txRdiStop 6) (at_ d)) (fun t => !t.on PORT.TX_RDI 6)) ∧
    (dRun.wordMisuse .port 6 0x160 0x100 = none ∧ dRun.writable .port = true) ∧
    (let d : Dev := { dRun with lines := { dRun.lines with stns := [(stnKey 6 0, { StnRx.reset with lab := { LabelSt.reset with msgs := [([1], false)] } })] } }
     (d.stn 6 0).lab.msgs = [([1], false)]) := by decide +kernel

def withSnaps (d : Dev) (xs : List Snapshot) (t : Nat) : Dev := { later d t with lines := { d.lines with snaps := xs } }

theorem test_wit_monitoring_rows :
    (let d := withSys dRun { SysSt.reset with mfNum := 500 }
     d.mode ≠ .reset ∧ d.sys.mfNum ≠ 0 ∧ d.sys.mfNum % 500 = 0 ∧ d.sys.mfNum ≠ d.host.wallAt) ∧
    ((withCmd dRun 14 [1]).ready 14 5 = some (cmd5 14 [1]) ∧
      ok (exec (.cmdPmSnapshot 5) (at_ (withCmd dRun 14 [1]))) (fun t => t.lines.snaps == [⟨5, 1, none, 0⟩])) ∧
    ((withSnaps dRun [⟨5, 1, some 0, 0⟩] 983040).lines.snaps = [⟨5, 1, some 0, 0⟩]) ∧
    ((withSnaps dRun [⟨5, 1, some 0, 0⟩, ⟨6, 0, some 0, 0⟩] 983040).lines.snaps = [⟨5, 1, some 0, 0⟩, ⟨6, 0, some 0, 0⟩]) := by decide +kernel
/-! ### Witnesses: MANGLE, trunks, protection -/

def withMangle (d : Dev) (x : MangleSt) : Dev := { d with mangle := x }
def swapping (passed : Bool) : Dev := withMangle dRun { MangleSt.reset with swap := some ⟨5, 327680, passed⟩ }

theorem test_wit_mangle_rows :
    (dRun.cmMisuse 0 = none ∧ dRun.cmMisuse 1 = none ∧ dRun.writable .mangle = true) ∧
    ((withCmd dRun 1 []).ready 1 5 = some (cmd5 1 []) ∧
      ok (exec (.cmdPageSwap 5) (at_ (withCmd dRun 1 []))) (fun t => t.rd MANGLE.SWAP_PENDING == 1 && t.activePage == 0)) ∧
    ((swapping true).mangle.swap = some ⟨5, 327680, true⟩) ∧
    (dRun.mode = .run ∧ (later dRun 17203).mangle.nextWalk ≤ (later dRun 17203).timebase + 3277) ∧
    ok (exec (.mangleWalkStart 9 [0, 1048575]) (at_ (later (inMode .standby) 17203))) (fun t => t.mangle.nextWalk == 40960) := by decide +kernel

def trunk0 : Dev := dRun.wr (HDR.ENABLE .trunk) 7 0 1
def withTrx (d : Dev) (x : TrunkRx) (t : Nat) : Dev := later (withMangle d { MangleSt.reset with rx := [(7, x)] }) t

theorem test_wit_trunk_rows :
    (trunk0.trunkOn 7 = true ∧ trunk0.on TRUNK.LOOPBACK 7 = false ∧ trunk0.trunkWords 7 = 16384) ∧
    ok (exec (.trunkCdrChange 7 false) (at_ trunk0)) (fun t => t.tDefect 7 0 && t.on TRUNK.FAILED 7) ∧
    ok (exec (.trunkCdrChange 7 true) (at_ (later trunk0 6))) (fun t => t.rd TRUNK.CDR_LOCK 7 == 1 && (t.trx 7).lockFrom == some 6) ∧
    ((withTrx (trunk0.wr TRUNK.DEFECTS 7 0 1) { TrunkRx.reset with lockFrom := some 0 } 163840).tDefect 7 0 = true ∧
      ok (exec (.tlosClear 7) (at_ (withTrx (trunk0.wr TRUNK.DEFECTS 7 0 1) { TrunkRx.reset with lockFrom := some 0 } 163840)))
        (fun t => !t.tDefect 7 0)) ∧
    (500 ≤ ((withTrx trunk0 { TrunkRx.reset with winSeen := 500 } 0).trx 7).winSeen ∧
      (withTrx trunk0 { TrunkRx.reset with winSeen := 500 } 0).trunkFrozen 7 = false) ∧
    (dRun.wordMisuse .trunk 7 8 1 = none ∧ dRun.writable .trunk = true) := by decide +kernel

def selAt (x : SelSt) (t : Nat) : Dev := later (withMangle dRun { MangleSt.reset with pairSel := [(3, x)] }) t

theorem test_wit_protection_rows :
    (let d := selAt { SelSt.reset with workAt := some 0 } (16384000 * (dRun.selCfg (.pair 3)).holdOff)
     (d.selSt (.pair 3)).workAt = some 0 ∧ (d.selSt (.pair 3)).workOk = false ∧ 0 + 16384000 * (d.selCfg (.pair 3)).holdOff ≤ d.timebase) ∧
    (let d := selAt { SelSt.reset with protAt := some 0 } (16384000 * (dRun.selCfg (.pair 3)).holdOff)
     (d.selSt (.pair 3)).protAt = some 0 ∧ (d.selSt (.pair 3)).protOk = false ∧ 0 + 16384000 * (d.selCfg (.pair 3)).holdOff ≤ d.timebase) ∧
    ((selAt { SelSt.reset with restore := .wtr 7 } 7).selSt (.pair 3)).restore = .wtr 7 ∧
    (dRun.wordMisuse .port 511 0x324 0 = none ∧ dRun.wordMisuse .port 511 0x324 1 = none ∧ dRun.wordMisuse .port 511 0x324 2 = none ∧
      dRun.wordMisuse .port 511 0x324 3 = none ∧ dRun.wordMisuse .port 511 0x324 4 = none ∧ (dRun.groupSt 511).top ≤ 7) ∧
    ((protWordOf (.trib 16383)).1 = .trib ∧ dRun.wordMisuse .trib 16383 0x14 0 = none ∧ dRun.wordMisuse .trib 16383 0x14 (2 ^ 26) = none ∧
      dRun.wordMisuse .trib 16383 0x14 (2 * 2 ^ 26) = none ∧ dRun.wordMisuse .trib 16383 0x14 (3 * 2 ^ 26) = none ∧ dRun.wordMisuse .trib 16383 0x14 (4 * 2 ^ 26) = none ∧
      dRun.writable .trib = true) ∧
    (dRun.wordMisuse .dev 0 0x970 0 = none ∧ dRun.wordMisuse .dev 0 0x970 (1 * 2 ^ 24) = none ∧ dRun.wordMisuse .dev 0 0x970 (2 * 2 ^ 24) = none ∧
      dRun.wordMisuse .dev 0 0x970 (3 * 2 ^ 24) = none ∧ dRun.wordMisuse .dev 0 0x970 (4 * 2 ^ 24) = none) ∧
    ((protFields (.trib 16383)).1.part (protFields (.trib 16383)).2.2.2 0 = 0 ∧ (protFields (.trib 16383)).1.part (protFields (.trib 16383)).2.2.2 (2 ^ 26) = 1 ∧
      (protFields (.pair 3)).1.part (protFields (.pair 3)).2.2.2 (2 * 2 ^ 24) = 2 ∧ (protFields (.pair 3)).1.part (protFields (.pair 3)).2.2.2 (3 * 2 ^ 24) = 3 ∧
      (protFields (.port 511)).1.part (protFields (.port 511)).2.2.2 4 = 4) := by decide +kernel

/-! ### Witnesses: the Hamper -/

/-- A Hamper that is online: 4 GiB per rank and 1 rank of 64 GiB per channel. -/
def online (d : Dev) : Dev := regs d [(HDR.STATE .hamper, 0, 0, 2), (HAMPER.DPC, 0, 0, 1), (HAMPER.DIMM_GIB, 0, 0, 64)]
def withHamper (d : Dev) (x : HamperSt) : Dev := { d with hamper := x }

theorem test_wit_hamper_rows :
    (let d := dRun.wr (HDR.STATE .hamper) 0 0 1
     d.rd (HDR.STATE .hamper) = 1 ∧ ok (exec (.ddrTrainingDone []) (at_ d)) (fun t => t.hamperOnline)) ∧
    (dRun.mode ≠ .reset ∧ dRun.hamper.nextPer ≤ dRun.sys.mfNum) ∧
    ((inMode .ready).wordMisuse .hamper 0 0x4C 16 = none ∧ (inMode .ready).mode = .ready) ∧
    (dRun.wordMisuse .hamper 0 0x60 0x7FF = none ∧ dRun.writable .hamper = true ∧
      ok (exec (.winBaseWrite 0x7FF) (at_ dRun)) (fun t => t.rd HAMPER.WIN_BUSY == 1 && t.rd HAMPER.WIN_BASE == 0x7FF)) ∧
    (dRun.on HAMPER.WIN_BUSY = false ∧ dRun.hamperOnline = false ∧
      ok (exec (.apertureRead 5 3 true) (at_ dRun)) (fun t => t.host.out == [.readData [255, 255, 255]])) ∧
    (let d := (online dRun).wr HAMPER.WIN_BASE 0 0 255
     d.hamperOnline = true ∧ d.capacity = 256 * 2 ^ 30 ∧ d.capacity < d.apertureLa 1073741823 + 2 ∧
      ok (exec (.apertureRead 1073741823 2 false) (at_ d)) (fun t => t.host.out == [.readData [255, 255]] && t.rd HAMPER.APT_OOR == 1)) ∧
    (let d := (online dRun).wr HAMPER.WIN_BASE 0 0 255
     d.apertureLa 1073741823 + 1 ≤ d.capacity ∧ ok (exec (.apertureRead 1073741823 1 false) (at_ d)) (fun t => t.host.out == [.readData [0]])) ∧
    (let d := (online dRun).wr HAMPER.WIN_BASE 0 0 1
     d.on HAMPER.WIN_BUSY = false ∧ d.apertureLa 0 + 1 < d.capacity ∧ d.laWritable (d.apertureLa 0) = true ∧ d.laWritable (d.apertureLa 0 + 1) = true ∧
      ok (exec (.apertureWrite 0 [0x12, 0x34]) (at_ d)) (fun t => t.ddrRead (2 ^ 30) 2 == [0x12, 0x34])) ∧
    (let d := online dRun
     d.laWritable (d.apertureLa 0) = false ∧ ok (exec (.apertureWrite 0 [1]) (at_ d)) (fun t => t.rd HAMPER.APT_WR_DROP == 1 && t.hamper.mem == [])) := by
  decide +kernel

def clip0 : Clip := ⟨0, 4, true⟩
def play0 : Play := ⟨clip0, 0, none, false, false, 0⟩
def extract0 : Extract := ⟨5, 0, 0, 1, 0, 4096⟩

def dDelay : Dev := withHamper (later dRun 4) { HamperSt.reset with
  dlyDue := some 4
  dlySet := [(3, 16000)] }

theorem test_wit_hamper_more :
    (let d := dRun
     d.wordMisuse .hamper 0 0x68 0x80003FFF = none ∧
      ok (exec (.lookupGoWrite 0x80003FFF) (at_ d)) (fun t => t.hamper.lookup && t.rd HAMPER.LOOKUP_TRIB == 16383)) ∧
    ok (exec .lookupDone (at_ (withHamper dRun { HamperSt.reset with lookup := true }))) (fun t => !t.hamper.lookup) ∧
    ok (exec .delayChangeApply (at_ dDelay)) (fun t => t.hamper.dly == [(3, 16000)] && t.hamper.dlyDue == none) ∧
    ((online dRun).hamperOnline = true ∧ (2 ^ 38 - 1 : Nat) < (online dRun).capacity ∧ (online dRun).laChannel (2 ^ 38 - 1) = 3) ∧
    (let d := (online (later dRun 14155776000000)).wr HAMPER.SCRUB_EN 0 0 1
     d.hamperOnline = true ∧ d.hamper.scrubFrom + 14155776000000 ≤ d.timebase ∧ ok (exec .scrubPassDone (at_ d)) (fun t => t.rd HAMPER.SCRUB_PASSES == 1)) ∧
    (dRun.wordMisuse .hamper 0 0x84 0x80000FFF = none ∧
      ok (exec (.clipCommitWrite 0x80000FFF) (at_ dRun)) (fun t => t.hamper.clipJob == some 4095 && t.rd HAMPER.CLIP_GO == 1)) ∧
    ((withHamper dRun { HamperSt.reset with clipJob := some 7 }).hamper.clipJob = some 7) ∧
    (let d := online (withCmd dRun 9 [0x80003FFF, 0, 0, 1, 64, 0, 4096])
     d.ready 9 5 = some (cmd5 9 [0x80003FFF, 0, 0, 1, 64, 0, 4096]) ∧ extractBad [0x80003FFF, 0, 0, 1, 64, 0, 4096] = false ∧ d.hamperOnline = true ∧
      d.hamper.extracts.length < 16) ∧
    (let d := withHamper (withCmd dRun 9 []) { HamperSt.reset with extracts := [extract0] }
     d.hamper.extracts.find? (fun x => x.tag == 5) = some extract0) ∧
    ((withCmd dRun 10 [255, 0, 0]).ready 10 5 = some (cmd5 10 [255, 0, 0]) ∧ playBad [255, 0, 0] = false ∧ (255 : Nat).testBit 16 = false) ∧
    (let r : PlayReq := ⟨5, 255, false, 20480, play0⟩
     let d := withHamper (later (withCmd dRun 10 [255, 0, 0]) 17203) { HamperSt.reset with playReqs := [r] }
     d.hamper.playReqs.find? (fun (r : PlayReq) => r.tag == 5) = some r ∧ r.walk ≤ d.timebase + 3277) := by decide +kernel

/-! ### Witnesses: pairing -/

def pairUnit (m : Mode) : Dev := { (inMode m).wr (HDR.ENABLE .pair) 0 0 1 with host := { rst.host with identity := some (1, 2, 3) } }
def withPair (d : Dev) (x : PairSt) (t : Nat) : Dev := { later d t with pair := x }
def peer0 : PeerSt := ⟨3, 2, 1, 0, true, false, false, 4, 9⟩
def mated (m : Mode) : Dev := (pairUnit m).wr PAIR.LANE_UP 0 0 1

def dPeerLost : Dev := withPair (pairUnit .run) { PairSt.reset with
  statusAt := some 5
  claimSince := some 0 } 163845

theorem test_wit_pair_rows :
    (dRun.wordMisuse .pair 0 0x44 1 = none ∧ dRun.wordMisuse .pair 0 0x44 2 = none ∧ dRun.writable .pair = true) ∧
    ((withPair (pairUnit .ready) { PairSt.reset with waitFrom := some 1 } 327680001).pair.waitFrom = some 1) ∧
    (dRun.rd PAIR.PEER_PINS ≠ 2 * true.toNat + true.toNat ∧ dRun.paired = false ∧
      ok (exec (.claimPinChange true true) (at_ dRun)) (fun t => t.rd PAIR.PEER_PINS == 3)) ∧
    ((pairUnit .run).rd PAIR.PEER_PINS ≠ 2 * true.toNat + false.toNat ∧ (pairUnit .run).paired = true) ∧
    (let d := withPair ((pairUnit .run).wr PAIR.PEER_PINS 0 0 3) PairSt.reset 327680
     d.paired = true ∧ d.pinsFault = true ∧ d.pair.wireFault = false ∧ d.pair.pinsAt + 327680 ≤ d.timebase) ∧
    (let d := withPair ((pairUnit .run).wr PAIR.PEER_PINS 0 0 1) PairSt.reset 163840
     d.pinsIdle = true ∧ d.pair.pinsAt + 163840 ≤ d.timebase) ∧
    ok (exec (.mateLaneChange 1 true) (at_ dRun)) (fun t => t.rd PAIR.LANE_UP == 2 && t.mateUp) ∧
    ((withPair (pairUnit .run) { PairSt.reset with lanesDown := some 0 } 163840).paired = true) ∧
    ((withPair (pairUnit .run) { PairSt.reset with hbMiss := 8 } 0).paired = true ∧ 8 ≤ (withPair (pairUnit .run) { PairSt.reset with hbMiss := 8 } 0).pair.hbMiss) ∧
    (dPeerLost.pairActive = true ∧ dPeerLost.pair.statusAt = some 5 ∧ dPeerLost.pair.claimSince = some 0 ∧ max 5 0 + 163840 ≤ dPeerLost.timebase) ∧
    (let d := withPair (pairUnit .run) { PairSt.reset with claimSince := some 0 } (msTicks (10 * dRun.rd PAIR.ECHO_GRACE))
     d.pairActive = true ∧ d.gracePassed = true) := by decide +kernel

def slot1 : SlotSt := ⟨1, 7, 3, 0, 1, some 99, true, [⟨1, true, .misc []⟩]⟩

def dAsk : Dev := online { withCmd (pairUnit .standby) 8 [] with pair := { PairSt.reset with slotB := slot1 } }

theorem test_wit_switch_rows :
    (let d := { withCmd ((pairUnit .run).wr PAIR.PEER_HEALTH 0 0 (2 ^ 26)) 8 [] with pair := { PairSt.reset with peer := some peer0 } }
     d.ready 8 5 = some (cmd5 8 []) ∧ d.switchBusy = false ∧ d.mode = .run) ∧
    (dAsk.ready 8 5 = some (cmd5 8 []) ∧ dAsk.switchBusy = false ∧ dAsk.mode = .standby ∧ dAsk.mateUp = false) ∧
    (let d := withPair (pairUnit .run) { PairSt.reset with switch := some (none, .drain 0) } 163840
     d.pair.switch = some (none, .drain 0) ∧ d.pairActive = true) ∧
    (let d := mated .standby
     d.mateUp = true ∧ d.paired = true ∧ d.mode ≠ .reset ∧ d.mode ≠ .boot ∧ d.peerId = 3) := by decide +kernel

def standbyRx : Dev := { (mated .standby).wr PAIR.PEER_EPOCH 0 0 7 with pair := { PairSt.reset with
  rxGen := some 1
  slotB := { slot1 with committed := false } } }

theorem test_wit_mate_rows :
    (mateCrcGood [0, 0, 0] = false ∧ (mateFrames [0, 0, 0]).all (fun c => ok (exec c (at_ (mated .run))) (fun t => t.rd PAIR.MATE_CRC_ERR == 1)) = true) ∧
    ([1, 2, 0x11, 0x20, 0x40, 0x41, 0x50, 0x51].all (fun ty => mateCrcGood (mateFrame ty [7, 0, 5]) &&
      matePayload ty (mateFrame ty [7, 0, 5]) == some [7, 0, 5]) = true) ∧
    (words64At [3, 0, 7] 0 = (mated .run).peerId ∧ [3, 0, 7].getD 2 0 = standbyRx.rd PAIR.PEER_EPOCH ∧
      ok (exec (.statusRx (mateFrame 1 (List.replicate 12 0))) (at_ (mated .run))) (fun t => t.pair.statusAt == some 0)) ∧
    (let d := { (mated .run).wr PAIR.PEER_HEALTH 0 0 (2 ^ 26) with pair := { PairSt.reset with peer := some peer0 } }
     d.pairActive = true ∧ d.switchBusy = false) ∧
    (standbyRx.commits (commitRecord 1 7 99) = true ∧ ok (exec (.ckptCommitRx (mateFrame 0x11 (commitRecord 1 7 99))) (at_ standbyRx))
      (fun t => (t.ckptSlot 1).committed && t.pair.rxGen == none)) ∧
    (standbyRx.mode = .standby ∧ standbyRx.mateUp = true ∧ standbyRx.paired = true) ∧
    (let d := (mated .standby).wr PAIR.MIRROR_RECORD 0 0 1
     d.mirrorStandby = true) ∧
    ((mated .run).pairActive = true ∧ (mated .run).pair.send = none ∧ (mated .run).pair.switch = none) ∧
    (let d := withPair (mated .run) { PairSt.reset with ckptDue := true } 20479
     d.pairActive = true ∧ d.pair.ckptDue = true ∧ d.timebase + 327680 < d.sys.nextMf + 20480) ∧
    (let x : CkptSend := ⟨1, 0, 0, [(1, .misc [])], false⟩
     (withPair (mated .run) { PairSt.reset with send := some x } 0).pair.send = some x ∧ x.sent = false) ∧
    ((withCmd (mated .run) 7 []).ready 7 5 = some (cmd5 7 []) ∧
      ok (exec (.cmdCkptForce 5) (at_ (withCmd dRun 7 []))) (fun _ => true)) := by decide +kernel
/-! ### Witnesses: Needle -/

def ev0 (port : Option Nat) : HookEv := ⟨0, port, 0, 0, 0, [], []⟩
def iv0 (port : Option Nat) : Invocation := ⟨ev0 port, 0, none, false⟩

/-- Engine 95 running, the word `w` at PC 4095 of its store, N1 = `n1`, N2 = `n2`, 3998 instructions of its budget used. -/
def eng (w n1 n2 : Nat) : Dev :=
  { regs dRun [(HDR.STATE .ndl, 95, 0, 2), (HDR.ENABLE .ndl, 95, 0, 1), (NDL.N, 95, 1, n1), (NDL.N, 95, 2, n2)] with
    needle := { NeedleSt.reset with
      istore := [(95 * 4096 + 4095, w ^^^ 0xFFFFFF)]
      shared := [(11 * 16384 + 5, 77)]
      engines := [(95, { EngineSt.reset with
        pc := 4095
        running := some (iv0 none)
        used := 3998 })] } }

/-- The word fetched, and what it decodes to. -/
def fetched (w : Nat) (i : NInstr) : Prop := (eng w 0 0).nfetch 95 = some (iv0 none, w) ∧ ndecode w = some i

/-- ADD n1, n1, n2 (opcode 0x00, function 0): 000000 0001 0001 0010 000000. -/
def wAdd : Nat := 0x004480
/-- LD n3, n1, 5; ST and XCH of the same fields. -/
def wLd : Nat := 0x60C405
def wSt : Nat := 0x64C405
def wXch : Nat := 0x68C405

theorem test_wit_needle_budget : (eng wAdd 0 0).inBudget 95 (iv0 none) = true := by decide +kernel

theorem test_wit_needle_compute :
    ((eng wAdd 0xFFFFF 1).nfetch 95 = some (iv0 none, wAdd) ∧ ndecode wAdd = some (.alu .add 1 1 2) ∧
      ok (exec (.alu 95) (at_ (eng wAdd 0xFFFFF 1))) (fun t => t.rd NDL.N 95 1 == 0 && t.rd NDL.FLAGS 95 == 3 && (t.engine 95).pc == 0)) ∧
    ((eng 0x215401 0 0).nfetch 95 = some (iv0 none, 0x215401) ∧ ndecode 0x215401 = some (.imm .addi 5 5 1) ∧
      ok (exec (.addi 95) (at_ (eng 0x215401 0 0))) (fun t => t.rd NDL.N 95 5 == 1)) ∧
    (ndecode 0xC48000 = some (.brem 2) ∧
      ok (exec (.brem 95) (at_ (eng 0xC48000 0 0))) (fun t => t.rd NDL.N 95 2 == 1)) := by decide +kernel

theorem test_wit_needle_memory :
    (ndecode wLd = some (.mem .ld 3 1 5) ∧ (eng wLd 0x7FA 0).naddr 95 1 5 = 0x7FF ∧
      ok (exec (.ld 95) (at_ ((eng wLd 0x7FA 0).wr NDL.DATA 95 2047 9))) (fun t => t.rd NDL.N 95 3 == 9)) ∧
    ((eng wLd 0x4000 0).naddr 95 1 5 = 0x4005 ∧
      ok (exec (.ld 95) (at_ (eng wLd 0x4000 0))) (fun t => t.rd NDL.N 95 3 == 77)) ∧
    (ndecode wSt = some (.mem .st 3 1 5) ∧
      ok (exec (.st 95) (at_ ((eng wSt 0x7FA 0).wr NDL.N 95 3 0xABCDE))) (fun t => t.rd NDL.DATA 95 2047 == 0xABCDE)) ∧
    (ndecode wXch = some (.mem .xch 3 1 5) ∧
      ok (exec (.xch 95) (at_ ((eng wXch 0x4000 0).wr NDL.N 95 3 0xABCDE)))
        (fun t => t.rd NDL.N 95 3 == 77 && FMap.get 0 t.needle.shared (11 * 16384 + 5) == 0xABCDE)) := by decide +kernel

theorem test_wit_needle_flow :
    (ndecode 0x040400 = some (.jr 1) ∧ ok (exec (.jr 95) (at_ (eng 0x040400 0xFF123 0))) (fun t => (t.engine 95).pc == 0x123)) ∧
    (ndecode 0x040401 = some (.jalr 1) ∧
      ok (exec (.jalr 95) (at_ (eng 0x040401 0x123 0))) (fun t => (t.engine 95).pc == 0x123 && t.rd NDL.N 95 15 == 0)) ∧
    (ndecode 0x80C808 = some (.b .nonzero 2056) ∧ ok (exec (.b 95) (at_ (eng 0x80C808 0 0))) (fun t => (t.engine 95).pc == 2056)) ∧
    (ndecode 0x84C808 = some (.call .nonzero 2056) ∧
      ok (exec (.call 95) (at_ ((eng 0x84C808 0 0).wr NDL.FLAGS 95 0 1))) (fun t => (t.engine 95).pc == 0 && t.rd NDL.N 95 15 == 0)) ∧
    (ndecode 0xC0003F = some (.wait 63) ∧ ok (exec (.wait 95) (at_ (eng 0xC0003F 0 0))) (fun t => t.rd NDL.WAIT_MASK 95 == 63 && t.ndlState 95 == 1)) ∧
    (ndecode 0xF80000 = some .brk ∧ (eng 0xF80000 0 0).nfetch 95 = some (iv0 none, 0xF80000)) ∧
    ((eng 0xFFFFFF 0 0).nfetch 95 = some (iv0 none, 0xFFFFFF) ∧ ndecode 0xFFFFFF = none) ∧
    (let d := regs dRun [(HDR.STATE .ndl, 95, 0, 1), (HDR.ENABLE .ndl, 95, 0, 1)]
     d.ndlState 95 = 1 ∧ d.on (HDR.ENABLE .ndl) 95 = true) ∧
    (let d : Dev := { dRun with needle := { NeedleSt.reset with engines := [(95, { EngineSt.reset with timers := [(15, ⟨some 0, 0, none⟩)] })] } }
     (FMap.get NdlTimer.off (d.engine 95).timers 15).at? = some 0) ∧
    (dRun.wordMisuse .ndl 95 8 0 = none ∧ dRun.wordMisuse .ndl 95 8 1 = none ∧ dRun.writable .ndl = true) := by decide +kernel

/-! ### Witnesses: matrix, baskets, rings, CHK -/

def openBasket (b : Nat) (ws : Option (List Nat)) : Dev := { dRun with host := { dRun.host with baskets := [(b, ⟨[], ws, 0⟩)] } }

/-- An engine move taken at port 3's boundary (R428, steps 1 to 3): PLACE names engine 5, which leaves the port's event queued while engine 0
still has one of the port, and no longer once engine 0 is STOPPED. -/
theorem test_engine_move :
    (let ev : HookEv := ⟨0, some 3, 0, 0, 0, [], []⟩
     let d0 := ({ dRun with arch := { dRun.arch with engPlan := FMap.set none [] 3 (some 5) } }.modEngine 0
       (fun (x : EngineSt) => { x with queue := [ev] })).setNdlState 0 1
     let d := (d0.takeEngine 3).portHook 3 ev
     d.rd PORT.ENGINE 3 == 5 && d.ndlHeld 5 ev && (d.engine 5).queue == [ev] && (d.engine 0).queue == [ev] &&
       !(d.setNdlState 0 0).ndlHeld 5 ev) = true := by decide +kernel

theorem test_wit_basket_rows :
    (let o : MtxOut := ⟨17, 8, 15, 0, false⟩
     let d : Dev := { dRun with service := { ServiceSt.reset with mtx := ⟨[], [o], []⟩ } }
     d.service.mtx.out.find? (fun (o : MtxOut) => decide (o.master = 17 ∧ o.target = 8 ∧ o.id = 15 ∧ o.ends ≤ d.timebase)) = some o) ∧
    (dRun.writable .hostq = true ∧ dRun.creditMisuse 0 (dRun.slotCompletes 4095 0x10000000) = none ∧
      dRun.creditMisuse 0 (dRun.slotCompletes 0 0x10000000) = none) ∧
    ok (exec (.pushHeadWrite 13 0x10000000) (at_ dRun)) (fun t => (t.basket 13).open? == some [0x10000000]) ∧
    ok (exec (.pushDataWrite 13 7) (at_ dRun)) (fun t => (t.basket 13).open? == none && (t.basket 13).items == []) ∧
    ((openBasket 13 (some [0x20000000])).basket 13 = ⟨[], some [0x20000000], 0⟩ ∧ itemLen 0x20000000 = 3 ∧
      ok (exec (.pushDataWrite 13 7) (at_ (openBasket 13 (some [0x20000000])))) (fun t => (t.basket 13).open? == some [0x20000000, 7])) ∧
    (dRun.wordMisuse .hostq 0 0x110 0x80000000 = none ∧
      ok (exec (.basketFlushWrite 1 0x80000000) (at_ (openBasket 1 (some [5])))) (fun t => t.basket 1 == Basket.empty && t.rd HOSTQ.IN_CREDIT 0 1 == 64 &&
        t.rd HOSTQ.IN_GEN 0 1 == 1)) ∧
    (let d := regs dRun [(HOSTQ.RING_PI, 0, 14, 5), (HOSTQ.RING_CI, 0, 14, 65535)]
     ok (exec (.ringCiWrite 14 0x50000) (at_ d)) (fun t => t.rd HOSTQ.RING_CI 0 14 == 5)) ∧
    (dRun.wordMisuse .hostq 0 (0x208 + 32 * 14) 0 = none) := by decide +kernel

def chkUnit0 (x : ChkUnit) : Dev := { dRun with service := { ServiceSt.reset with chk := [(15, x)] } }

theorem test_wit_chk_rows :
    (dRun.writable .chk = true ∧ dRun.wordMisuse .chk 0 (0x118 + 0x80 * 15) 0x80000020 = none) ∧
    ok (exec (.chkDataWrite 15 0xFFFFFFFF) (at_ dRun)) (fun t => (t.chkUnit 15).queue == [.data 0xFFFFFFFF] && t.on CHK.U_BUSY 0 15) ∧
    ok (exec (.chkHiWrite 15 4 9) (at_ dRun)) (fun t => (t.chkUnit 15).queue == [.pair 4 0 9]) ∧
    (let d := dRun.wr CHK.U_FIRST 0 15 1
     ok (exec (.chkAliveSeenWrite 15 15) (at_ d)) (fun t => t.rd CHK.U_EXPECTED 0 15 == 0 && t.rd CHK.U_LAST 0 15 == 15 && !t.on CHK.U_FIRST 0 15)) ∧
    ((chkUnit0 ⟨[.pair 1 0 0], [], 0, none⟩).chkUnit 15).queue = [.pair 1 0 0] ∧
    ok (exec (.chkResultLoRead 15) (at_ (chkUnit0 ⟨[], [], 0x1234, none⟩))) (fun t => t.rd CHK.U_RESULT_HI 0 15 == 0x1234) := by decide +kernel

/-- The rows of R462's table with LAST = 3 and EXPECTED = 5: repeat, in order, gap; the sum is modulo 16. -/
def alive : Dev := regs dRun [(CHK.U_FIRST, 0, 15, 0), (CHK.U_LAST, 0, 15, 3), (CHK.U_EXPECTED, 0, 15, 15)]

theorem test_wit_alive_rows :
    (alive.on CHK.U_FIRST 0 15 = false ∧ alive.writable .chk = true) ∧
    ok (exec (.chkAliveSeenWrite 15 3) (at_ alive)) (fun t => t.on CHK.U_REPEAT 0 15 && !t.on CHK.U_GAP 0 15 && t.rd CHK.U_EXPECTED 0 15 == 15) ∧
    ok (exec (.chkAliveSeenWrite 15 15) (at_ alive)) (fun t => !t.on CHK.U_REPEAT 0 15 && !t.on CHK.U_GAP 0 15 && t.rd CHK.U_EXPECTED 0 15 == 0) ∧
    ok (exec (.chkAliveSeenWrite 15 4) (at_ alive)) (fun t => !t.on CHK.U_REPEAT 0 15 && t.on CHK.U_GAP 0 15 && t.rd CHK.U_EXPECTED 0 15 == 5) := by
  decide +kernel

/-! ### Witnesses: LINT and BIST -/

def testMode : Dev := dRun.wr DEV.TEST_MODE 0 0 1
def armed : Dev := testMode.wr LINT.INJ_ARMED 0 0 1
def withLint (d : Dev) (x : LintSt) (t : Nat) : Dev := { later d t with lint := x }

theorem test_wit_lint_rows :
    (dRun.mode ≠ .reset ∧ (later dRun 32).lint.nextWindow ≤ (later dRun 32).timebase) ∧
    (testMode.writable .lint0 = true ∧ testMode.on DEV.TEST_MODE = true ∧
      ok (exec (.injKeyWrite 0xC0DE) (at_ testMode)) (fun t => t.on LINT.INJ_ARMED)) ∧
    ok (exec (.injKeyWrite 0xC0DF) (at_ (withLint armed { LintSt.reset with injRail := some (0, 0) } 0))) (fun t => !t.on LINT.INJ_ARMED && t.lint.injRail == none) ∧
    ((srcClass 11120).isSome = true ∧ armed.on LINT.INJ_ARMED = true ∧
      ok (exec (.injCtrlWrite (BitVec.ofNat 32 (2 ^ 30 + 2 * 2 ^ 28 + 11120))) (at_ armed)) (fun t => t.lint.injRail == some (11120, 2))) ∧
    ((withCmd (inMode .maint) 6 [3, 0x7FFFFF]).ready 6 5 = some (cmd5 6 [3, 0x7FFFFF]) ∧
      ok (exec (.cmdBist 5) (at_ (withCmd (inMode .maint) 6 [3, 0x7FFFFF]))) (fun t => t.rd BIST.RUNNING == 1)) ∧
    (let r : BistRun := ⟨5, [180, 181], 0, 0, 0, none⟩
     (withLint dRun { LintSt.reset with run := some r } 0).lint.run = some r) ∧
    ((withLint dRun { LintSt.reset with rollItem := some 199 } 0).lint.rollItem = some 199) ∧
    (let d := withLint (inMode .standby) { LintSt.reset with rollStep := 1 } 8192000
     d.lint.rollItem = none ∧ ok (exec .rollingStep (at_ d)) (fun t => t.lint.rollItem == some 1)) ∧
    (let d := withLint (inMode .maint) { LintSt.reset with exitDue := true } 0
     d.mode = .maint ∧ d.lint.exitDue = true ∧ d.host.inflight = [] ∧ d.host.cplWait = []) := by decide +kernel

/-! ### Witnesses: the statements over commands and steps -/

def dLow : Dev := { later rst 9 with host := { rst.host with resetLow := true } }

theorem test_wit_steps : State.reset.inv = true ∧ ok (step State.reset) (fun t => t.timebase == 1) ∧
    ok (step { State.reset with pending := [.resetNLow] }) (fun t => t.host.resetLow) ∧
    ok (step { pending := [.resetNRelease], dev := dLow }) (fun t => t.timebase == 0) := by decide +kernel

theorem test_wit_leaves : movesState (.pcieLinkChange 0 0 false) = false ∧ mayMisuse (.pcieLinkChange 0 0 false) = false := by decide +kernel

theorem test_wit_no_field :
    (region (0xF000 / 4 * 4) = .reserved ∧ ok (exec (.registerWrite 0xF000 2 0) (at_ dRun)) (fun t => t.regs == []) ∧ dRun.busRead 0xF000 = 0) ∧
    !ok (exec (.registerWrite 0xF000 2 1) (at_ dRun)) (fun _ => true) ∧
    ok (exec (.registerWrite 0x75 1 9) (at_ dRun)) (fun t => t.on DEV.SUBWORD && t.rd DEV.BUS_ADDR == 0x75 && t.rd DEV.WALLCLOCK == 0) := by decide +kernel

theorem test_wit_injection :
    (dRun.on DEV.TEST_MODE = false ∧ dRun.wordMisuse .lint0 0 0x84 0x40000000 = none ∧ dRun.writable .lint0 = true) ∧
    ok (exec (.injKeyWrite 0xC0DE) (at_ dRun)) (fun t => !t.on LINT.INJ_ARMED) ∧
    ok (exec .resetNLow (at_ armed)) (fun t => !t.on LINT.INJ_ARMED) := by decide +kernel

/-- CMD_PORT_START of port 511, whose link runs at FS_SEL `fs`, in programme `prog`, with no port enabled. -/
def startPort (fs prog : Nat) : Dev :=
  regs (withNeedle (withCmd dRun 2 [511])) [(JLANE.LINK, 0, 0, 31), (JLANE.FS_SEL, 0, 0, fs), (DEV.PROG_ACTIVE, 0, 0, prog)]

/-- Programme 0 with the 256 ports of 16 links at FS_SEL 5 enabled: 8,192 units, the ceiling. -/
def loaded : Dev :=
  let d := (List.range 16).foldl (fun (d : Dev) k => regs d [(JLANE.LINK, k, 0, k), (JLANE.FS_SEL, k, 0, 5)])
    (regs (withNeedle (withCmd dRun 2 [511])) [(JLANE.LINK, 47, 0, 31), (DEV.PROG_ACTIVE, 0, 0, 0)])
  { d with arch := { d.arch with ports := (List.range 256).map (fun n => (n, .up)) } }

theorem test_wit_ceiling :
    ((startPort 4 0).ready 2 5 = some (cmd5 2 [511]) ∧ (startPort 4 0).enabled 511 = false ∧ (startPort 4 0).needle.loaded = true ∧
      ((startPort 4 0).loadUnits + (startPort 4 0).portUnits 511) * 100 ≤ 16384 * ceilingPct (startPort 4 0).prog) ∧
    (16384 * ceilingPct loaded.prog < (loaded.loadUnits + loaded.portUnits 511) * 100 ∧ loaded.ready 2 5 = some (cmd5 2 [511]) ∧
      loaded.enabled 511 = false ∧ loaded.needle.loaded = true) := by decide +kernel

theorem test_wit_illegal :
    (withCmd (inMode .safe) 14 [0]).findCmd 5 = some (cmd5 14 [0]) ∧ (withCmd (inMode .safe) 14 [0]).waits (cmd5 14 [0]) = false ∧
    legalIn 14 .safe = false ∧ legalIn 1 .maint = false ∧ legalIn 2 .ready = false ∧ legalIn 3 .ready = false ∧ legalIn 4 .maint = false ∧
    legalIn 9 .safe = false ∧ legalIn 10 .standby = false ∧ legalIn 11 .maint = false ∧ legalIn 12 .run = false ∧
    ok (exec (.cmdPmSnapshot 5) (at_ (withCmd (inMode .safe) 14 [0]))) (fun t => t.rd DEV.CMD_REJECT == 1 && t.host.inflight == []) := by decide +kernel

theorem test_wit_event_bits :
    dRun.writable .port = true ∧ dRun.wordMisuse .port 511 0x10 0xFFFF = none ∧
    ok (exec (.registerWrite (Fin.ofNat _ (0x100000 + 4096 * 511 + 0x10)) 2 3) (at_ (regs dRun [(HDR.EVT_STATUS .port, 511, 0, 6), (HDR.LEVEL .port, 511, 0, 2)])))
      (fun t => t.rd (HDR.EVT_STATUS .port) 511 == 4 && t.rd (HDR.LEVEL .port) 511 == 2) := by decide +kernel

/-- A store that ends at the last byte of the capacity. -/
def apt : Dev := (online dRun).wr HAMPER.WIN_BASE 0 0 255

theorem test_wit_aperture :
    apt.on HAMPER.WIN_BUSY = false ∧ apt.hamperOnline = true ∧ apt.apertureLa 1073741822 + 2 ≤ apt.capacity ∧
    apt.laWritable (apt.apertureLa 1073741822) = true ∧ apt.laWritable (apt.apertureLa 1073741822 + 1) = true := by decide +kernel

theorem test_wit_frames :
    (eng wAdd 1 2).inBudget 95 (iv0 none) = true ∧ ok (exec (NInstr.row (.alu .add 1 1 2) 95) (at_ (eng wAdd 1 2))) (fun t => t.rd NDL.N 95 1 == 3) ∧
    (eng wSt 0x4000 0).naddr 95 1 5 = 0x4005 ∧ ok (exec (NInstr.row (.mem .st 3 1 5) 95) (at_ (eng wSt 0x4000 0)))
      (fun t => FMap.get 0 t.needle.shared (11 * 16384 + 5) == 0) := by decide +kernel

end Sys2Proof.Tests
end

section
/-! SUPPORT. Completions sent: what they leave of the events, the journal and the commands in flight; the port states through a port's start.
Then the statements on TIMEBASE (R16) and on the load ceiling at a port's start (R31). -/

namespace Sys2Proof.Machine

/-! ### Commands in flight -/

/-- A step that keeps a part of a value keeps it through a fold. -/
theorem foldl_keeps {σ α β : Type} (p : σ → β) (g : σ → α → σ) (hg : ∀ x a, p (g x a) = p x) (xs : List α) (x : σ) :
    p (xs.foldl g x) = p x := by
  induction xs generalizing x with
  | nil => rfl
  | cons a xs ih => exact (ih _).trans (hg x a)

/-- A command that is ready is in flight with its code, has not started, waits for none, and is legal in the device state. -/
theorem Dev.ready_eq_some {d : Dev} {code tag : Nat} {c : Inflight} (h : d.ready code tag = some c) :
    d.findCmd tag = some c ∧ (c.code != code || c.started || d.waits c) = false ∧ legalIn code d.mode = true := by
  unfold Dev.ready at h
  split at h
  · cases h
  · next hf =>
    split at h
    · cases h
    · next hc =>
      cases h
      simp only [Bool.not_eq_true, Bool.or_eq_false_iff, Bool.not_eq_false'] at hc
      exact ⟨hf, by simp [hc.1], hc.2⟩

/-- A ready command starts and runs. -/
theorem Dev.startCmd_of_ready {d : Dev} {code tag : Nat} {c : Inflight} (h : d.ready code tag = some c) (run : Inflight → Dev → Dev) :
    d.startCmd code tag run = run c (d.start tag) := by
  obtain ⟨hf, hc, hl⟩ := Dev.ready_eq_some h
  simp [Dev.startCmd, hf, hc, hl]

/-- Arguments in range are no misuse when their command starts. -/
theorem argMisuse_of_ready {s : State} {code tag : Nat} {c : Inflight} {bad : List Nat → Bool} (h : s.dev.ready code tag = some c)
    (hb : bad c.args = false) : argMisuse s code tag bad = none := by
  simp [argMisuse, h, hb]

/-- A command marked started stays the one in flight with its tag. -/
theorem Dev.findCmd_start {d : Dev} {tag : Nat} {c : Inflight} (h : d.findCmd tag = some c) :
    (d.start tag).findCmd tag = some { c with started := true } := by
  have ht : c.tag = tag := by simpa using List.find?_some h
  have hp : ∀ x : Inflight, (if x.tag = tag then { x with started := true } else x).tag = x.tag := fun x => by split <;> rfl
  unfold Dev.findCmd at h
  simp only [Dev.findCmd, Dev.start, List.find?_map, Function.comp_def, hp, h, Option.map_some, if_pos ht]

/-- The commands in flight and the ports enabled when only TIMEBASE and the device state are put back. -/
theorem Dev.findCmd_frame (d : Dev) (tb : Nat) (m : Mode) (tag : Nat) :
    ({ d with timebase := tb, mode := m } : Dev).findCmd tag = d.findCmd tag := rfl

theorem Dev.enabled_frame (d : Dev) (tb : Nat) (m : Mode) (n : Nat) :
    ({ d with timebase := tb, mode := m } : Dev).enabled n = d.enabled n := rfl

theorem Dev.framed_start (d : Dev) (tag : Nat) {fs : Places} {ps : List Part} (hp : Part.commands ∈ ps) : d.framed fs ps (d.start tag) := by
  refine ⟨fun _ _ _ _ _ _ => rfl, fun p hn => ?_⟩
  cases p <;> simp [Part.same, Dev.start]
  exact absurd hp hn

/-- A part that is the same need not be named by a frame. -/
theorem Dev.framed.drop {fs : Places} {ps : List Part} {d t : Dev} {p : Part} (h : d.framed fs (ps ++ [p]) t) (hp : p.same d t) :
    d.framed fs ps t := by
  refine ⟨h.1, fun q hq => ?_⟩
  by_cases e : q = p
  · exact e ▸ hp
  · exact h.2 q (by simp [hq, e])

/-! ### Completions sent -/

/-- The device `t` follows from `d` by completions that are sent or wait, and by commands that leave those in flight: no event is lost, no
completion with BUSY is counted, nothing is journalled. -/
structure Dev.Sends (d t : Dev) : Prop where
  busy : t.rd DEV.CMD_BUSY = d.rd DEV.CMD_BUSY
  evts : d.evtKept t
  inflight : t.host.inflight ⊆ d.host.inflight
  pair : t.pair = d.pair

theorem Dev.Sends.refl (d : Dev) : d.Sends d := ⟨rfl, fun _ _ _ _ _ h => h, fun _ h => h, rfl⟩

theorem Dev.Sends.trans {a b c : Dev} (h : a.Sends b) (g : b.Sends c) : a.Sends c :=
  ⟨g.busy.trans h.busy, fun p i n hi hn x => g.evts p i n hi hn (h.evts p i n hi hn x), fun _ hx => h.inflight (g.inflight hx),
    g.pair.trans h.pair⟩

/-- Events of the device page and what follows from them. -/
theorem Dev.Signals.sends {d t : Dev} (h : d.Signals [(HDR.EVT_STATUS .dev).id] t) : d.Sends t :=
  ⟨h.rd DEV.CMD_BUSY 0 0 (by decide) (by omega) (by omega), h.evts, by rw [h.other]; exact fun _ hx => hx, by rw [h.other]⟩

/-- A write of a register that is no status word loses no event. -/
theorem Dev.evtKept_wr (d : Dev) (f : Field) (v : Nat) (he : ∀ p, (HDR.EVT_STATUS p).id ≠ f.id) : d.evtKept (d.wr f 0 0 v) := by
  intro p i n hi _ h
  rw [Dev.rd_wr_ne d f (HDR.EVT_STATUS p) 0 0 i 0 v (he p)]
  exact h

theorem Dev.wr_sends (d : Dev) (f : Field) (v : Nat) (hb : DEV.CMD_BUSY.id ≠ f.id) (he : ∀ p, (HDR.EVT_STATUS p).id ≠ f.id) :
    d.Sends (d.wr f 0 0 v) :=
  ⟨d.rd_wr_ne f DEV.CMD_BUSY 0 0 0 0 v hb, d.evtKept_wr f v he, fun _ h => h, rfl⟩

theorem Dev.foldl_sends {α : Type} (g : Dev → α → Dev) (hg : ∀ (d : Dev) x, d.Sends (g d x)) (xs : List α) (d : Dev) :
    d.Sends (xs.foldl g d) := by
  induction xs generalizing d with
  | nil => exact .refl d
  | cons x xs ih => exact (hg d x).trans (ih _)

theorem Dev.countInflight_sends (d : Dev) : d.Sends d.countInflight :=
  (Dev.wr_sends d DEV.CMD_INFLIGHT _ (by decide) (by intro p; cases p <;> decide)).trans
    (Dev.wr_sends _ HOSTQ.CPL_WAIT _ (by decide) (by intro p; cases p <;> decide))

theorem Dev.cplDrain_sends (ws : List (List Nat)) (d : Dev) : d.Sends (Dev.cplDrain ws d) := by
  induction ws generalizing d with
  | nil => exact ⟨rfl, fun _ _ _ _ _ h => h, fun _ h => h, rfl⟩
  | cons w ws ih =>
    unfold Dev.cplDrain
    split
    · exact ((Dev.ringPut_signals _ d 0 w (by omega)).trans (Dev.msixSend_signals _ _ 0)).sends.trans (ih _)
    · exact ⟨rfl, fun _ _ _ _ _ h => h, fun _ h => h, rfl⟩

/-- What a completion does beyond its count. -/
theorem Dev.cplPush_sends (d : Dev) (c : Inflight) (st : Status) (ab : Bool) (res : List Nat) :
    (d.countStatus st).Sends (d.cplPush c st ab res) := by
  unfold Dev.cplPush
  dsimp only
  split
  · exact Dev.countInflight_sends _
  · exact (Dev.cplDrain_sends _ _).trans (Dev.countInflight_sends _)

theorem Dev.countWrongState_sends (d : Dev) : d.Sends (d.countStatus .wrongState) :=
  (Dev.wr_sends d DEV.CMD_REJECT _ (by decide) (by intro p; cases p <;> decide)).trans (Dev.raise_signals _ .dev 0 0).sends

/-- The device with a command gone from those in flight. -/
def Dev.retire (d : Dev) (tag : Nat) : Dev :=
  { d with host := { d.host with inflight := d.host.inflight.filter (fun x => x.tag != tag) } }

/-- The device with a completion with OK journalled where its command is (R395). -/
def Dev.journalOk (d : Dev) (c : Inflight) (st : Status) : Dev :=
  if st = .ok ∧ journalled c.code then d.jrnAdd 3 (cmdItem c ++ [d.timebase % 2 ^ 32, d.timebase / 2 ^ 32]) else d

/-- What a completion of a command in flight does beyond its journal entry and its count. -/
theorem Dev.complete_sends {d : Dev} {tag : Nat} {c : Inflight} (h : d.findCmd tag = some c) (st : Status) (res : List Nat) (ab : Bool) :
    (((d.retire tag).journalOk c st).countStatus st).Sends (d.complete tag st res ab) := by
  unfold Dev.complete
  rw [h]
  dsimp only
  refine Dev.Sends.trans ?_ (Dev.countInflight_sends _)
  refine Dev.Sends.trans ?_ (Dev.foldl_sends _ (fun d x => d.countWrongState_sends.trans (d.cplPush_sends x .wrongState false [])) _ _)
  refine (Dev.cplPush_sends _ c st ab res).trans ?_
  exact ⟨rfl, fun _ _ _ _ _ h => h, fun _ h => (List.mem_filter.mp h).1, rfl⟩

theorem Dev.jrnAdd_inflight (d : Dev) (k : Nat) (ws : List Nat) : (d.jrnAdd k ws).host.inflight = d.host.inflight := by
  unfold Dev.jrnAdd
  split
  · rfl
  · dsimp only
    split <;> rfl

theorem Dev.journalOk_inflight (d : Dev) (c : Inflight) (st : Status) : (d.journalOk c st).host.inflight = d.host.inflight := by
  unfold Dev.journalOk
  split
  · exact d.jrnAdd_inflight 3 _
  · rfl

theorem Dev.countStatus_inflight (d : Dev) (st : Status) : (d.countStatus st).host.inflight ⊆ d.host.inflight := by
  cases st with
  | wrongState => exact d.countWrongState_sends.inflight
  | ok => exact fun _ h => h
  | busy => exact fun _ h => h

/-- A completed command is no longer in flight. -/
theorem Dev.findCmd_complete (d : Dev) (tag : Nat) (st : Status) (res : List Nat) (ab : Bool) :
    (d.complete tag st res ab).findCmd tag = none := by
  cases h : d.findCmd tag with
  | none => simp [Dev.complete, h]
  | some c =>
    refine List.find?_eq_none.mpr (fun x hx => ?_)
    have hm : x ∈ (d.retire tag).host.inflight := by
      rw [← Dev.journalOk_inflight _ c st]
      exact Dev.countStatus_inflight _ st ((Dev.complete_sends h st res ab).inflight hx)
    simpa using (List.mem_filter.mp hm).2

/-- A completion with BUSY is counted, loses no event and journals nothing (R62, R76, R395). -/
theorem Dev.complete_busy {d : Dev} {tag : Nat} {c : Inflight} (h : d.findCmd tag = some c) (res : List Nat) (ab : Bool) :
    (d.complete tag .busy res ab).rd DEV.CMD_BUSY = min (2 ^ DEV.CMD_BUSY.width - 1) (d.rd DEV.CMD_BUSY + 1) ∧
      d.evtKept (d.complete tag .busy res ab) ∧ (d.complete tag .busy res ab).pair = d.pair := by
  have hs : ((d.retire tag).inc DEV.CMD_BUSY).Sends (d.complete tag .busy res ab) := Dev.complete_sends h .busy res ab
  have he : d.evtKept ((d.retire tag).inc DEV.CMD_BUSY) :=
    (d.retire tag).evtKept_wr DEV.CMD_BUSY _ (by intro p; cases p <;> decide)
  exact ⟨hs.busy.trans ((d.retire tag).rd_inc_same DEV.CMD_BUSY 0 0 1),
    fun p i n hi hn x => hs.evts p i n hi hn (he p i n hi hn x), hs.pair⟩

/-! ### TIMEBASE (R16) -/

/-- The four bytes of the low word and the high word make up a 64-bit value. -/
theorem bytes_and_high_word (v : Nat) (h : v < 2 ^ 64) :
    v / 2 ^ (8 * 0) % 256 + 2 ^ 8 * (v / 2 ^ (8 * 1) % 256) + 2 ^ 16 * (v / 2 ^ (8 * 2) % 256) + 2 ^ 24 * (v / 2 ^ (8 * 3) % 256) +
      2 ^ 32 * (v / 2 ^ 32 % 2 ^ 32) = v := by
  omega

/-- Settles O36: the bytes answered are those of the low word, and TIMEBASE_HI holds the high one. -/
theorem timebaseReadsConsistently : Obligations.TimebaseReadsConsistently := by
  intro s hr ht
  refine ⟨_, rfl, ?_⟩
  rw [whenDev_true _ _ _ (by simp [hr])]
  have hhi : ((s.dev.wr DEV.TIMEBASE_HI 0 0 (s.dev.timebase / 2 ^ 32)).rd DEV.TIMEBASE_HI) = s.dev.timebase / 2 ^ 32 % 2 ^ 32 :=
    s.dev.rd_wr_same DEV.TIMEBASE_HI 0 0 _
  refine ⟨_, _, _, _, rfl, Nat.mod_lt _ (by omega), Nat.mod_lt _ (by omega), Nat.mod_lt _ (by omega), Nat.mod_lt _ (by omega), ?_⟩
  rw [Dev.rd_frame, Dev.emit_rd, hhi]
  exact bytes_and_high_word s.dev.timebase ht

/-! ### Port states through a port's start (R30) -/

theorem Dev.placeBanks_ports (d : Dev) (n : Nat) : (d.placeBanks n).arch.ports = d.arch.ports := by
  unfold Dev.placeBanks
  extract_lets used own fixed start
  clear_value used
  exact foldl_keeps (fun x : List Nat × Dev => x.2.arch.ports) _ (by intros; rfl) (used.filter own) start

theorem Dev.judgeCfg_ports (d : Dev) (n : Nat) (hn : n < 65536) : (d.judgeCfg n).arch.ports = d.arch.ports :=
  congrArg ArchSt.ports ((d.framed_cond .port n 16 _ hn).2 .arch (by simp))

theorem Dev.offerStart_ports (d : Dev) (n : Nat) : (d.offerStart n).arch.ports = d.arch.ports := by
  unfold Dev.offerStart
  split <;> rfl

theorem Dev.sharedStart_ports (d : Dev) (n : Nat) : (d.sharedStart n).arch.ports = d.arch.ports := by
  unfold Dev.sharedStart
  split <;> rfl

theorem Dev.judgeFailure_ports (d : Dev) (n : Nat) : (d.judgeFailure n).arch.ports = d.arch.ports := by
  unfold Dev.judgeFailure
  extract_lets now d1 d2 d3
  have h1 : d1.arch.ports = d.arch.ports := by
    unfold d1
    split <;> rfl
  have h3 : d3.arch.ports = d2.arch.ports :=
    foldl_keeps (fun d : Dev => d.arch.ports) _ (by intros; rfl) (d2.stations n) d2
  exact (foldl_keeps (fun d : Dev => d.arch.ports) _ (by intros; rfl) _ _).trans (h3.trans h1)

/-- A port that starts enters ACTIVATING. -/
theorem Dev.portMode_portStart (d : Dev) (n : Nat) (hn : n < 65536) : (d.portStart n).portMode n = .activating := by
  suffices h : (d.portStart n).arch.ports = (((d.placeLane n).placeEngine n).setPort n .activating).arch.ports by
    simp [Dev.portMode, h, Dev.setPort]
  unfold Dev.portStart
  extract_lets d1 dc port rinse d2 d3 arch sys needle d4 lc d5 d6 d7
  have h1 : d1.arch.ports = (((d.placeLane n).placeEngine n).setPort n .activating).arch.ports := by
    unfold d1
    rw [Dev.placeBanks_ports]
  clear_value d1
  have h2 : d2.arch.ports = d1.arch.ports := rfl
  have h3 : d3.arch.ports = d2.arch.ports :=
    foldl_keeps (fun d : Dev => d.arch.ports) _ (by intros; rfl) (List.range 16) d2
  have h6 : d6.arch.ports = d3.arch.ports := Dev.judgeCfg_ports (d5.slipRestart n) n hn
  have h7 : d7.arch.ports = d6.arch.ports := by
    unfold d7
    split
    · split
      · exact d6.sharedStart_ports n
      · exact d6.offerStart_ports n
    · rfl
  exact (Dev.judgeFailure_ports _ n).trans (h7.trans (h6.trans (h3.trans (h2.trans h1))))

theorem Dev.enabled_complete (d : Dev) (tag : Nat) (st : Status) (res : List Nat) (ab : Bool) (n : Nat) :
    (d.complete tag st res ab).enabled n = d.enabled n := by
  have h : (d.complete tag st res ab).arch = d.arch := (d.framed_complete tag st res ab).2 .arch (by simp)
  simp [Dev.enabled, Dev.portMode, h]

/-! ### The load ceiling at a port's start (R31) -/

/-- CMD_PORT_START whose arguments and pins are no misuse starts its port. -/
theorem execCmdPortStart_of_ready {s : State} {tag : Fin 4096} {c : Inflight} (h : s.dev.ready 2 tag = some c)
    (ha : c.args.getD 0 0 ≤ 511) (hp : s.dev.startOverPins (c.args.getD 0 0) = false) :
    exec (.cmdPortStart tag) s = stay s (fun d => d.startCmd 2 tag (fun c d => d.startPort tag (c.args.getD 0 0))) := by
  have hm : argMisuse s 2 tag (fun a => decide (511 < a.getD 0 0)) = none := argMisuse_of_ready h (by simpa using ha)
  show execCmdPortStart tag s = _
  unfold execCmdPortStart
  simp only [hm, h, hp, Bool.false_eq_true, if_false, unlessMisuse_none]

/-- The device after a start refused for its load: LOAD_REFUSED set with its event (R31, R76). -/
def Dev.refuseLoad (d : Dev) : Dev := (d.wr DEV.LOAD_REFUSED 0 0 1).raise .dev 0 10

theorem Dev.startPort_aboveCeiling {d : Dev} {tag n : Nat} (he : d.enabled n = false) (hl : d.needle.loaded = true)
    (hc : withinCeiling (d.loadUnits + d.portUnits n) d.prog = false) : d.startPort tag n = d.refuseLoad.complete tag .busy := by
  simp [Dev.startPort, Dev.refuseLoad, he, hl, hc]

theorem Dev.startPort_withinCeiling {d : Dev} {tag n : Nat} (he : d.enabled n = false) (hl : d.needle.loaded = true)
    (hc : withinCeiling (d.loadUnits + d.portUnits n) d.prog = true)
    (hr : d.on PORT.LANE_PIN n = false ∨ (d.lanePorts (d.laneOf n)).length < 64) :
    d.startPort tag n = (d.portStart n).complete tag .ok := by
  have hw : ¬(d.on PORT.LANE_PIN n = true ∧ 64 ≤ (d.lanePorts (d.laneOf n)).length) := by
    rintro ⟨hp, hk⟩
    rcases hr with hr | hr
    · simp [hp] at hr
    · omega
  simp only [Dev.startPort, he, hl, hc, Bool.not_true, Bool.or_self, Bool.false_eq_true, if_false, if_neg hw]

theorem Dev.refuseLoad_signals (d : Dev) : (d.wr DEV.LOAD_REFUSED 0 0 1).Signals [(HDR.EVT_STATUS .dev).id] d.refuseLoad :=
  Dev.raise_signals _ .dev 0 10

theorem Dev.refuseLoad_rd (d : Dev) : d.refuseLoad.rd DEV.LOAD_REFUSED = 1 :=
  (d.refuseLoad_signals.rd DEV.LOAD_REFUSED 0 0 (by decide) (by omega) (by omega)).trans (d.rd_wr_same DEV.LOAD_REFUSED 0 0 1)

theorem Dev.refuseLoad_busy (d : Dev) : d.refuseLoad.rd DEV.CMD_BUSY = d.rd DEV.CMD_BUSY :=
  d.refuseLoad_signals.sends.busy.trans (d.rd_wr_ne DEV.LOAD_REFUSED DEV.CMD_BUSY 0 0 0 0 1 (by decide))

theorem Dev.refuseLoad_pair (d : Dev) : d.refuseLoad.pair = d.pair := d.refuseLoad_signals.sends.pair

theorem Dev.refuseLoad_findCmd (d : Dev) (tag : Nat) : d.refuseLoad.findCmd tag = d.findCmd tag := by
  rw [Dev.findCmd, d.refuseLoad_signals.other]
  rfl

theorem Dev.framed_refuseLoad (d : Dev) :
    d.framed (completionPlaces ++ fieldsAll [DEV.LOAD_REFUSED]) [.signals, .commands, .pair] d.refuseLoad :=
  (d.framed_wr DEV.LOAD_REFUSED 0 0 1 (sel := fun _ _ => true) (by simp [fieldsAll]) rfl).trans
    ((Dev.framed_raiseDev _ 10).mono (fun _ h => List.mem_append_left _ h) (fun _ h => h))

/-- A refused start has no effect but its completion and LOAD_REFUSED. -/
theorem Dev.framed_refusedStart {d : Dev} {tag : Nat} {c : Inflight} (h : d.findCmd tag = some c) :
    d.framed (completionPlaces ++ fieldsAll [DEV.LOAD_REFUSED]) [.signals, .commands] ((d.start tag).refuseLoad.complete tag .busy) := by
  have hf : (d.start tag).refuseLoad.findCmd tag = some { c with started := true } :=
    ((d.start tag).refuseLoad_findCmd tag).trans (Dev.findCmd_start h)
  obtain ⟨-, -, hp⟩ := Dev.complete_busy hf [] false
  refine Dev.framed.drop (p := .pair) ?_ (hp.trans (d.start tag).refuseLoad_pair)
  exact ((d.framed_start tag (by simp)).trans (Dev.framed_refuseLoad _)).trans
    ((Dev.framed_complete _ tag .busy [] false).mono (fun _ h => List.mem_append_left _ h) (fun _ h => h))

/-- LOAD_REFUSED is no place of completions. -/
theorem Dev.complete_loadRefused (d : Dev) (tag : Nat) (st : Status) (res : List Nat) (ab : Bool) :
    (d.complete tag st res ab).rd DEV.LOAD_REFUSED = d.rd DEV.LOAD_REFUSED := by
  refine (d.framed_complete tag st res ab).1 DEV.LOAD_REFUSED 0 0 (by omega) (by omega) (fun g hg he => absurd he ?_)
  exact (by decide : ∀ i ∈ completionPlaces.map (fun g => g.1.id), i ≠ DEV.LOAD_REFUSED.id) _ (List.mem_map_of_mem hg)

/-- Settles O39: above the ceiling the start is refused in its frame, within it the port enters ACTIVATING. -/
theorem portStartKeepsTheCeiling : Obligations.PortStartKeepsTheCeiling := by
  intro s tag c hc ha he hl hp
  obtain ⟨hf, -, -⟩ := Dev.ready_eq_some hc
  have hexec := (execCmdPortStart_of_ready hc ha hp).trans (stay_eq s _)
  rw [Dev.startCmd_of_ready hc] at hexec
  constructor
  · intro hover
    have hw : withinCeiling (s.dev.loadUnits + s.dev.portUnits (c.args.getD 0 0)) s.dev.prog = false := by
      rw [withinCeiling, decide_eq_false_iff_not]; omega
    rw [Dev.startPort_aboveCeiling (d := s.dev.start tag) he hl hw] at hexec
    have hfr := Dev.framed_refusedStart hf
    obtain ⟨hbusy, hevts, -⟩ :=
      Dev.complete_busy (((s.dev.start tag).refuseLoad_findCmd tag).trans (Dev.findCmd_start hf)) [] false
    refine ⟨_, hexec, ?_, ?_, Dev.framed_clock _ _ hfr, ?_, ?_⟩
    · rw [Dev.on, Dev.rd_frame, Dev.complete_loadRefused, Dev.refuseLoad_rd]; rfl
    · exact hevts .dev 0 10 (by omega) (by omega) (Dev.raise_bit _ .dev 0 10 (by omega) (by omega))
    · exact hbusy.trans (by rw [Dev.refuseLoad_busy]; rfl)
    · rw [Dev.findCmd_frame, Dev.findCmd_complete]
  · intro hwithin hroom
    have hw : withinCeiling (s.dev.loadUnits + s.dev.portUnits (c.args.getD 0 0)) s.dev.prog = true := by
      rw [withinCeiling, decide_eq_true_eq]; omega
    rw [Dev.startPort_withinCeiling (d := s.dev.start tag) he hl hw hroom] at hexec
    refine ⟨_, hexec, ?_, ?_⟩
    · rw [Dev.enabled_frame, Dev.enabled_complete, Dev.enabled, Dev.portMode_portStart _ _ (by omega)]
      rfl
    · rw [Dev.findCmd_frame, Dev.findCmd_complete]

end Sys2Proof.Machine
end

section
/-! SUPPORT. The encoder's state as the six input bits before, and what a step of the rate-1/2 code does to it (R190). -/

namespace Sys2Proof.Machine

/-! ### The convolutional code (R190) -/

/-- The number whose bit i is the i-th of the input bits before, the newest first. -/
def encoderState : List Bool → Nat
  | [] => 0
  | u :: us => u.toNat + 2 * encoderState us

theorem encoderState_testBit (us : List Bool) (i : Nat) : (encoderState us).testBit i = us.getD i false := by
  induction us generalizing i with
  | nil => exact Nat.zero_testBit i
  | cons u us ih =>
    cases i with
    | zero =>
      rw [encoderState, Nat.testBit_zero, Nat.add_mul_mod_self_left]
      cases u <;> rfl
    | succ i =>
      have hdiv : (u.toNat + 2 * encoderState us) / 2 = encoderState us := by
        have := u.toNat_le
        omega
      rw [encoderState, Nat.testBit_succ, hdiv, ih]
      rfl

theorem encoderState_lt (us : List Bool) : encoderState us < 2 ^ us.length := by
  induction us with
  | nil => exact Nat.one_pos
  | cons u us ih =>
    have := u.toNat_le
    rw [encoderState, List.length_cons, Nat.pow_succ]
    omega

theorem sum_eq_encoderState (u1 u2 u3 u4 u5 u6 : Bool) :
    u1.toNat + 2 * u2.toNat + 4 * u3.toNat + 8 * u4.toNat + 16 * u5.toNat + 32 * u6.toNat = encoderState [u1, u2, u3, u4, u5, u6] := by
  simp only [encoderState]
  omega

/-- The taps: generator 171 (octal) reads u, u1, u2, u3 and u6, generator 133 reads u, u2, u3, u5 and u6. -/
theorem convBits_encoderState (u u1 u2 u3 u4 u5 u6 : Bool) :
    convBits (encoderState [u1, u2, u3, u4, u5, u6]) u = (u ^^ u1 ^^ u2 ^^ u3 ^^ u6, u ^^ u2 ^^ u3 ^^ u5 ^^ u6) := by
  simp only [convBits, encoderState_testBit] <;> rfl

/-- The input bit enters as the newest and the oldest bit leaves. -/
theorem convNext_encoderState (u u1 u2 u3 u4 u5 u6 : Bool) :
    convNext (encoderState [u1, u2, u3, u4, u5, u6]) u = encoderState [u, u1, u2, u3, u4, u5] := by
  have h : encoderState [u, u1, u2, u3, u4, u5] < 64 := encoderState_lt _
  simp only [convNext, encoderState] at h ⊢
  omega

/-- The code 1/2 punctures nothing: one input bit at any position gives both coded bits, c0 first. -/
theorem encode_singleton_rateHalf (u : Bool) (i s : Nat) : (encode [u] 0 i s).1 = [(convBits s u).1, (convBits s u).2] := rfl

/-- Settles O47: the state is the six bits before, the taps read it, a step shifts it, and code 1/2 sends both coded bits. -/
theorem encoderFollowsGenerators : Obligations.EncoderFollowsGenerators := by
  intro u u1 u2 u3 u4 u5 u6 s
  have hs : s = encoderState [u1, u2, u3, u4, u5, u6] := sum_eq_encoderState u1 u2 u3 u4 u5 u6
  refine ⟨?_, ?_, encode_singleton_rateHalf u 0 s⟩
  · rw [hs, convBits_encoderState]
  · rw [hs, convNext_encoderState, sum_eq_encoderState]

end Sys2Proof.Machine
end

section
/-! SUPPORT. ALIVE_SEEN of a CHK unit: its writes are never misuse, and a check follows the rows of R462. -/

namespace Sys2Proof.Machine

/-! ### Words without a guarded field -/

/-- Only RW and RWE elements can make a write misuse. -/
theorem Dev.elemMisuse_eq_none (d : Dev) (f : Field) (inst idx v : Nat) (hrw : f.access ≠ .rw) (hrwe : f.access ≠ .rwe) :
    d.elemMisuse f inst idx v = none := by
  unfold Dev.elemMisuse
  split
  · contradiction
  · contradiction
  · rfl

/-- A word with no RW or RWE element takes every value that leaves its reserved bits 0. -/
theorem Dev.wordMisuse_eq_none (d : Dev) {p : Page} {inst off v : Nat} (hmask : v &&& wordMask p inst off = v)
    (hacc : ∀ f ∈ fieldsOf p, f.inWord off ≠ [] → f.access ≠ .rw ∧ f.access ≠ .rwe) : d.wordMisuse p inst off v = none := by
  simp only [Dev.wordMisuse, hmask, bne_self_eq_false, Bool.false_eq_true, if_false, List.findSome?_eq_none_iff]
  intro f hf i hi
  obtain ⟨hrw, hrwe⟩ := hacc f hf (List.ne_nil_of_mem hi)
  exact d.elemMisuse_eq_none f inst i v hrw hrwe

/-! ### The ALIVE_SEEN word (R464) -/

theorem wordMask_aliveSeen (u : Fin 16) : wordMask .chk 0 (0x144 + 0x80 * u.val) = 2 ^ 4 - 1 := by
  revert u; decide

/-- ALIVE_SEEN is alone in its word, and write-only. -/
theorem access_aliveSeen (u : Fin 16) : ∀ f ∈ fieldsOf .chk, f.inWord (0x144 + 0x80 * u.val) ≠ [] → f.access = .wo := by
  revert u; decide

theorem Dev.wordMisuse_aliveSeen (d : Dev) (u : Fin 16) {v : Nat} (hv : v < 16) :
    d.wordMisuse .chk 0 (0x144 + 0x80 * u.val) v = none := by
  refine d.wordMisuse_eq_none ?_ (fun f hf hw => ?_)
  · rw [wordMask_aliveSeen, Nat.and_two_pow_sub_one_eq_mod, Nat.mod_eq_of_lt hv]
  · simp [access_aliveSeen u f hf hw]

/-- A counter value written to ALIVE_SEEN of a writable page is checked. -/
theorem exec_chkAliveSeenWrite (s : State) (u : Fin 16) (v : Word) (hv : v.toNat < 16) (hw : s.dev.writable .chk = true) :
    exec (.chkAliveSeenWrite u v) s = stay s (fun d => d.chkAlive u v.toNat) := by
  show execChkAliveSeenWrite u v s = _
  rw [execChkAliveSeenWrite, s.dev.wordMisuse_aliveSeen u hv, unlessMisuse_none, stay_eq, stay_eq, whenDev_true _ _ _ hw,
    Nat.mod_eq_of_lt hv]

/-! ### The registers of a check -/

/-- What a unit's registers show of its counter checks (R464). -/
structure AliveRegs where
  first : Bool
  gap : Bool
  rep : Bool
  expected : Nat
  last : Nat

/-- The counter registers of unit `u`. -/
def Dev.aliveRegs (d : Dev) (u : Nat) : AliveRegs :=
  { first := d.on CHK.U_FIRST 0 u, gap := d.on CHK.U_GAP 0 u, rep := d.on CHK.U_REPEAT 0 u,
    expected := d.rd CHK.U_EXPECTED 0 u, last := d.rd CHK.U_LAST 0 u }

/-- A counter value taken: EXPECTED is the one after it, LAST the value itself. -/
def Dev.aliveTake (d : Dev) (u v : Nat) : Dev := (d.wr CHK.U_EXPECTED 0 u ((v + 1) % 16)).wr CHK.U_LAST 0 u v

/-- The outcome of a check shown in GAP and REPEAT. -/
def Dev.aliveShow (d : Dev) (u : Nat) (gap rep : Bool) : Dev := (d.flag CHK.U_GAP 0 u gap).flag CHK.U_REPEAT 0 u rep

/-- A write of one register of a unit leaves the unit's others alone. -/
theorem Dev.rd_wr_unit_ne (d : Dev) (f g : Field) (u : Fin 16) (v : Nat) (h : g.id ≠ f.id) :
    (d.wr f 0 u v).rd g 0 u = d.rd g 0 u := d.rd_wr_ne f g 0 u 0 u v h

theorem Dev.rd_flag_unit_ne (d : Dev) (f g : Field) (u : Fin 16) (b : Bool) (h : g.id ≠ f.id) :
    (d.flag f 0 u b).rd g 0 u = d.rd g 0 u := d.rd_wr_unit_ne f g u _ h

theorem Dev.aliveRegs_clearFirst (d : Dev) (u : Fin 16) :
    (d.wr CHK.U_FIRST 0 u 0).aliveRegs u = { d.aliveRegs u with first := false } := by
  simp (disch := decide) only [Dev.aliveRegs, Dev.on, Dev.rd_wr_same, Dev.rd_wr_unit_ne]
  rfl

theorem Dev.aliveRegs_take (d : Dev) (u : Fin 16) {v : Nat} (hv : v < 16) :
    (d.aliveTake u v).aliveRegs u = { d.aliveRegs u with expected := (v + 1) % 16, last := v } := by
  have hl : v % 2 ^ CHK.U_LAST.width = v := Nat.mod_eq_of_lt hv
  have he : (v + 1) % 16 % 2 ^ CHK.U_EXPECTED.width = (v + 1) % 16 := Nat.mod_mod _ _
  simp (disch := decide) only [Dev.aliveRegs, Dev.aliveTake, Dev.on, Dev.rd_wr_same, Dev.rd_wr_unit_ne, hl, he]

theorem Dev.aliveRegs_show (d : Dev) (u : Fin 16) (gap rep : Bool) :
    (d.aliveShow u gap rep).aliveRegs u = { d.aliveRegs u with gap := gap, rep := rep } := by
  have hbit : ∀ b : Bool, (b.toNat != 0) = b := by decide
  simp (disch := decide) only [Dev.aliveRegs, Dev.aliveShow, Dev.on, Dev.rd_flag_same, Dev.rd_flag_unit_ne, hbit]

/-! ### The event of a unit (R464) -/

/-- What a unit event can do beyond the bits of UNIT_EVT_STATUS. -/
theorem Dev.chkEvent_signals (d : Dev) (u b : Nat) : d.Signals [CHK.UNIT_EVT_STATUS.id] (d.chkEvent u b) := by
  refine Dev.Signals.trans ⟨fun k hk => ?_, d.evtKept_wr CHK.UNIT_EVT_STATUS _ (by intro p; cases p <;> decide), rfl⟩
    (Dev.leavesRise_signals _ d [1168 + u] _)
  refine FMap.get_set_ne _ _ _ (Field.id_of_key _ k 0 0 (by omega) (by omega) (fun e => hk ?_))
  simp [e]

/-- A unit event leaves the counter registers alone. -/
theorem Dev.aliveRegs_chkEvent (d : Dev) (u : Fin 16) (b : Nat) : (d.chkEvent u b).aliveRegs u = d.aliveRegs u := by
  have hrd := fun (f : Field) hf => (d.chkEvent_signals u b).rd f 0 u hf (by omega) (by omega)
  simp (disch := decide) only [Dev.aliveRegs, Dev.on, hrd]

/-- A unit event shows in UNIT_EVT_STATUS. -/
theorem Dev.chkEvent_bit (d : Dev) (u : Fin 16) {b : Nat} (hb : b < 2) :
    ((d.chkEvent u b).rd CHK.UNIT_EVT_STATUS).testBit (2 * u.val + b) = true := by
  have hkept := (Dev.leavesRise_signals [] d [1168 + u.val]
    (d.wr CHK.UNIT_EVT_STATUS 0 0 (orBit (d.rd CHK.UNIT_EVT_STATUS) (2 * u + b)))).rd CHK.UNIT_EVT_STATUS 0 0 (by decide)
    (by omega) (by omega)
  have hbit : 2 * u.val + b < CHK.UNIT_EVT_STATUS.width := by
    show _ < 32
    omega
  rw [Dev.chkEvent, hkept, Dev.rd_wr_same, Nat.testBit_mod_two_pow, testBit_orBit]
  simp [hbit]

/-! ### The rows of the table (R462) -/

theorem Dev.chkAlive_of_first {d : Dev} {u v : Nat} (hf : d.on CHK.U_FIRST 0 u = true) :
    d.chkAlive u v = ((d.aliveTake u v).wr CHK.U_FIRST 0 u 0).aliveShow u false false := if_pos hf

theorem Dev.chkAlive_of_repeat {d : Dev} {u v : Nat} (hf : d.on CHK.U_FIRST 0 u = false) (hl : v = d.rd CHK.U_LAST 0 u) :
    d.chkAlive u v = (d.aliveShow u false true).chkEvent u 1 :=
  (if_neg (by simp [hf])).trans (if_pos hl)

theorem Dev.chkAlive_of_expected {d : Dev} {u v : Nat} (hf : d.on CHK.U_FIRST 0 u = false) (hl : v ≠ d.rd CHK.U_LAST 0 u)
    (he : v = d.rd CHK.U_EXPECTED 0 u) : d.chkAlive u v = (d.aliveTake u v).aliveShow u false false :=
  (if_neg (by simp [hf])).trans ((if_neg hl).trans (if_pos he))

theorem Dev.chkAlive_of_gap {d : Dev} {u v : Nat} (hf : d.on CHK.U_FIRST 0 u = false) (hl : v ≠ d.rd CHK.U_LAST 0 u)
    (he : v ≠ d.rd CHK.U_EXPECTED 0 u) : d.chkAlive u v = ((d.aliveTake u v).aliveShow u true false).chkEvent u 0 :=
  (if_neg (by simp [hf])).trans ((if_neg hl).trans (if_neg he))

theorem Dev.aliveRegs_of_first {d : Dev} {u : Fin 16} {v : Nat} (hv : v < 16) (hf : d.on CHK.U_FIRST 0 u = true) :
    (d.chkAlive u v).aliveRegs u = { first := false, gap := false, rep := false, expected := (v + 1) % 16, last := v } := by
  rw [Dev.chkAlive_of_first hf, Dev.aliveRegs_show, Dev.aliveRegs_clearFirst, Dev.aliveRegs_take d u hv]

theorem Dev.aliveRegs_of_repeat {d : Dev} {u : Fin 16} {v : Nat} (hf : d.on CHK.U_FIRST 0 u = false)
    (hl : v = d.rd CHK.U_LAST 0 u) : (d.chkAlive u v).aliveRegs u = { d.aliveRegs u with gap := false, rep := true } := by
  rw [Dev.chkAlive_of_repeat hf hl, Dev.aliveRegs_chkEvent, Dev.aliveRegs_show]

theorem Dev.aliveRegs_of_expected {d : Dev} {u : Fin 16} {v : Nat} (hv : v < 16) (hf : d.on CHK.U_FIRST 0 u = false)
    (hl : v ≠ d.rd CHK.U_LAST 0 u) (he : v = d.rd CHK.U_EXPECTED 0 u) :
    (d.chkAlive u v).aliveRegs u =
      { d.aliveRegs u with gap := false, rep := false, expected := (v + 1) % 16, last := v } := by
  rw [Dev.chkAlive_of_expected hf hl he, Dev.aliveRegs_show, Dev.aliveRegs_take d u hv]

theorem Dev.aliveRegs_of_gap {d : Dev} {u : Fin 16} {v : Nat} (hv : v < 16) (hf : d.on CHK.U_FIRST 0 u = false)
    (hl : v ≠ d.rd CHK.U_LAST 0 u) (he : v ≠ d.rd CHK.U_EXPECTED 0 u) :
    (d.chkAlive u v).aliveRegs u =
      { d.aliveRegs u with gap := true, rep := false, expected := (v + 1) % 16, last := v } := by
  rw [Dev.chkAlive_of_gap hf hl he, Dev.aliveRegs_chkEvent, Dev.aliveRegs_show, Dev.aliveRegs_take d u hv]

/-- A repeat shows as ALIVE_REPEAT of the unit. -/
theorem Dev.chkAlive_repeat_bit {d : Dev} {u : Fin 16} {v : Nat} (hf : d.on CHK.U_FIRST 0 u = false)
    (hl : v = d.rd CHK.U_LAST 0 u) : ((d.chkAlive u v).rd CHK.UNIT_EVT_STATUS).testBit (2 * u.val + 1) = true := by
  rw [Dev.chkAlive_of_repeat hf hl, Dev.chkEvent_bit _ u Nat.one_lt_two]

/-- A gap shows as ALIVE_GAP of the unit. -/
theorem Dev.chkAlive_gap_bit {d : Dev} {u : Fin 16} {v : Nat} (hf : d.on CHK.U_FIRST 0 u = false) (hl : v ≠ d.rd CHK.U_LAST 0 u)
    (he : v ≠ d.rd CHK.U_EXPECTED 0 u) : ((d.chkAlive u v).rd CHK.UNIT_EVT_STATUS).testBit (2 * u.val) = true := by
  rw [Dev.chkAlive_of_gap hf hl he]
  exact Dev.chkEvent_bit _ u Nat.two_pos

/-- FIRST stays 0, whichever row applies. -/
theorem Dev.aliveRegs_first_eq_false {d : Dev} {u : Fin 16} {v : Nat} (hv : v < 16) (hf : d.on CHK.U_FIRST 0 u = false) :
    ((d.chkAlive u v).aliveRegs u).first = false := by
  by_cases hl : v = d.rd CHK.U_LAST 0 u
  · rw [Dev.aliveRegs_of_repeat hf hl]
    exact hf
  · by_cases he : v = d.rd CHK.U_EXPECTED 0 u
    · rw [Dev.aliveRegs_of_expected hv hf hl he]
      exact hf
    · rw [Dev.aliveRegs_of_gap hv hf hl he]
      exact hf

/-- Settles O37: a write is one check, and each row of the table fixes the registers after it, with its unit event where the row
has one. -/
theorem aliveSeenTable : Obligations.AliveSeenTable := by
  intro s u v hv hw
  refine ⟨_, (exec_chkAliveSeenWrite s u v hv hw).trans (stay_eq s _), fun hf => ?_, fun hf =>
    ⟨Dev.aliveRegs_first_eq_false hv hf, fun hl => ?_, fun hl he => ?_, fun hl he => ?_⟩⟩
  · injection Dev.aliveRegs_of_first hv hf with hfirst hgap hrep hexp hlast
    exact ⟨hfirst, hgap, hrep, hexp, hlast⟩
  · injection Dev.aliveRegs_of_repeat hf hl with _ hgap hrep hexp hlast
    exact ⟨hrep, hgap, Dev.chkAlive_repeat_bit hf hl, hexp, hlast⟩
  · injection Dev.aliveRegs_of_expected hv hf hl he with _ hgap hrep hexp hlast
    exact ⟨hrep, hgap, hexp, hlast⟩
  · injection Dev.aliveRegs_of_gap hv hf hl he with _ hgap hrep hexp hlast
    exact ⟨hrep, hgap, Dev.chkAlive_gap_bit hf hl he, hexp, hlast⟩

end Sys2Proof.Machine
end

section
/-! SUPPORT. INJ_KEY and INJ_CTRL: INJ_KEY is never misuse, what arming, disarming and RESET leave of an injection (R495). -/

namespace Sys2Proof.Machine

/-! ### The INJ_KEY word (R504) -/

theorem wordMask_injKey : wordMask .lint0 0 0x80 = 2 ^ 16 - 1 := by decide

/-- INJ_KEY is alone in its word, and write-only. -/
theorem access_injKey : ∀ f ∈ fieldsOf .lint0, f.inWord 0x80 ≠ [] → f.access = .wo := by decide

theorem Dev.wordMisuse_injKey (d : Dev) {v : Nat} (hv : v < 65536) : d.wordMisuse .lint0 0 0x80 v = none := by
  refine d.wordMisuse_eq_none ?_ (fun f hf hw => ?_)
  · rw [wordMask_injKey, Nat.and_two_pow_sub_one_eq_mod, Nat.mod_eq_of_lt hv]
  · simp [access_injKey f hf hw]

/-! ### Arming and disarming (R495) -/

/-- The device after the key: armed, shown in INJ_ARMED and as a condition of LINT. -/
def Dev.injArm (d : Dev) : Dev := (d.wr LINT.INJ_ARMED 0 0 1).cond .lint0 0 7 true

/-- The device after any other value: the injection released, INJ_ARMED and INJ_ACTIVE 0, the condition absent. -/
def Dev.injDisarm (d : Dev) : Dev := ((d.injRelease.wr LINT.INJ_ARMED 0 0 0).wr LINT.INJ_ACTIVE 0 0 0).cond .lint0 0 7 false

/-- In test mode a value written to INJ_KEY of a writable page arms or disarms. -/
theorem exec_injKeyWrite_testMode (s : State) {v : Word} (hv : v.toNat < 65536) (hw : s.dev.writable .lint0 = true)
    (ht : s.dev.on DEV.TEST_MODE = true) :
    exec (.injKeyWrite v) s = stay s (fun d => if v.toNat = 0xC0DE then d.injArm else d.injDisarm) := by
  show execInjKeyWrite v s = _
  rw [execInjKeyWrite, s.dev.wordMisuse_injKey hv, unlessMisuse_none, stay_eq, stay_eq, whenDev_true _ _ _ (by simp [hw, ht])]
  rfl

/-- Out of test mode a value written to INJ_KEY is ignored. -/
theorem exec_injKeyWrite_ignored (s : State) {v : Word} (hv : v.toNat < 65536) (ht : s.dev.on DEV.TEST_MODE = false) :
    exec (.injKeyWrite v) s = .next s := by
  show execInjKeyWrite v s = _
  rw [execInjKeyWrite, s.dev.wordMisuse_injKey hv, unlessMisuse_none, stay_eq, whenDev_false _ _ _ (by simp [ht])]

/-- Out of test mode a value written to INJ_CTRL is ignored where it is no misuse. -/
theorem exec_injCtrlWrite_ignored (s : State) {v : Word} (hm : s.dev.wordMisuse .lint0 0 0x84 v.toNat = none)
    (ht : s.dev.on DEV.TEST_MODE = false) : exec (.injCtrlWrite v) s = .next s := by
  show execInjCtrlWrite v s = _
  rw [execInjCtrlWrite, hm, unlessMisuse_none, stay_eq, whenDev_false _ _ _ (by simp [ht])]

/-- A released injection drives no rails. -/
theorem Dev.injRelease_injRail (d : Dev) : d.injRelease.lint.injRail = none := by
  unfold Dev.injRelease
  split
  · rfl
  · assumption

/-- A condition of LINT leaves the registers of injection alone. -/
theorem Dev.on_cond_lint0 (d : Dev) (bit : Nat) (b : Bool) {f : Field} (hf : f = LINT.INJ_ARMED ∨ f = LINT.INJ_ACTIVE) :
    (d.cond .lint0 0 bit b).on f = d.on f := by
  have hid : f.id ∉ [HOSTQ.RING_PI.id, HOSTQ.RING_ITEMS.id, HOSTQ.RING_DROPPED.id, (HDR.EVT_STATUS .hostq).id,
      (HDR.EVT_STATUS .lint2).id, (HDR.LEVEL .lint2).id] ++ [(HDR.EVT_STATUS .lint0).id, (HDR.LEVEL .lint0).id] := by
    obtain rfl | rfl := hf <;> decide
  rw [Dev.on, Dev.on, (d.cond_notes .lint0 0 bit b).rd f 0 0 hid (by omega) (by omega)]

/-- A condition leaves the rails of an injection alone. -/
theorem Dev.cond_injRail (d : Dev) (bit : Nat) (b : Bool) : (d.cond .lint0 0 bit b).lint.injRail = d.lint.injRail := by
  rw [(d.cond_notes .lint0 0 bit b).other]

theorem Dev.injArm_armed (d : Dev) : d.injArm.on LINT.INJ_ARMED = true := by
  rw [Dev.injArm, Dev.on_cond_lint0 _ _ _ (.inl rfl), Dev.on, Dev.rd_wr_same]
  rfl

theorem Dev.injDisarm_armed (d : Dev) : d.injDisarm.on LINT.INJ_ARMED = false := by
  rw [Dev.injDisarm, Dev.on_cond_lint0 _ _ _ (.inl rfl), Dev.on, Dev.rd_wr_ne _ _ _ _ _ _ _ _ (by decide), Dev.rd_wr_same]
  rfl

theorem Dev.injDisarm_active (d : Dev) : d.injDisarm.on LINT.INJ_ACTIVE = false := by
  rw [Dev.injDisarm, Dev.on_cond_lint0 _ _ _ (.inr rfl), Dev.on, Dev.rd_wr_same]
  rfl

theorem Dev.injDisarm_injRail (d : Dev) : d.injDisarm.lint.injRail = none := by
  rw [Dev.injDisarm, Dev.cond_injRail, Dev.wr_lint, Dev.wr_lint, d.injRelease_injRail]

/-! ### RESET (R495) -/

/-- RESET_N low holds every register at its Reset value. -/
theorem Dev.held_rd (d : Dev) (f : Field) (i j : Nat) : d.held.rd f i j = f.resetAt j := Nat.zero_xor _

theorem Dev.held_armed (d : Dev) : d.held.on LINT.INJ_ARMED = false := by
  rw [Dev.on, Dev.held_rd]
  rfl

theorem Dev.held_injRail (d : Dev) : d.held.lint.injRail = none := rfl

/-- RESET_N going low leaves the device held, its claim pins not driven. -/
theorem exec_resetNLow (s : State) (hr : s.dev.host.resetLow = false) :
    exec .resetNLow s = shift s (fun d => ((({ d with mode := .reset } : Dev).abortIllegal).showIdle).held.emit (.claim false false)) := by
  show execResetNLow s = _
  rw [execResetNLow, shift_eq, shift_eq, whenDev_true _ _ _ (by simp [hr])]

/-- Settles O38: in test mode INJ_KEY arms or disarms by its value, out of it both words are ignored, and RESET_N low leaves the device
held at its Reset values. -/
theorem injectionArming : Obligations.InjectionArming := by
  intro s
  refine ⟨fun v hv hw => ⟨fun ht => ?_, fun ht => exec_injKeyWrite_ignored s hv ht⟩, fun v ht hm => exec_injCtrlWrite_ignored s hm ht,
    fun t h hr => ?_⟩
  · refine ⟨_, (exec_injKeyWrite_testMode s hv hw ht).trans (stay_eq s _), fun hk => ?_, fun hk => ?_⟩
    · rw [if_pos hk, Dev.on, Dev.rd_frame]
      exact s.dev.injArm_armed
    · rw [if_neg hk, Dev.on, Dev.on, Dev.rd_frame, Dev.rd_frame]
      exact ⟨s.dev.injDisarm_armed, s.dev.injDisarm_injRail, s.dev.injDisarm_active⟩
  · rw [exec_resetNLow s hr, shift_eq] at h
    cases h
    rw [Dev.on, Dev.rd_timebase, Dev.emit_rd, Dev.emit_lint]
    exact ⟨Dev.held_armed _, Dev.held_injRail _⟩

end Sys2Proof.Machine
end

section
/-! SUPPORT. The engine's instruction words: fields of an encoded word, the decoder on the encoder, results and flags (R416 to R419). -/

namespace Sys2Proof.Machine

/-! ### Fields of a word (R416) -/

section
variable {op d a low : Nat}

theorem nword_opcode (hd : d < 16) (ha : a < 16) (hl : low < 1024) : nword op d a low / 2 ^ 18 = op := by
  unfold nword; omega

theorem nword_destination (hd : d < 16) (ha : a < 16) (hl : low < 1024) : nword op d a low / 2 ^ 14 % 16 = d := by
  unfold nword; omega

theorem nword_source (ha : a < 16) (hl : low < 1024) : nword op d a low / 2 ^ 10 % 16 = a := by
  unfold nword; omega

theorem nword_low (hl : low < 1024) : nword op d a low % 1024 = low := by
  unfold nword; omega

theorem nword_lt (ho : op < 64) (hd : d < 16) (ha : a < 16) (hl : low < 1024) : nword op d a low < 2 ^ 24 := by
  unfold nword; omega

end

theorem regAt_nword_destination (op : Nat) (d a : Fin 16) {low : Nat} (hl : low < 1024) : regAt (nword op d a low) 14 = d :=
  Fin.ext (nword_destination d.isLt a.isLt hl)

theorem regAt_nword_source (op d : Nat) (a : Fin 16) {low : Nat} (hl : low < 1024) : regAt (nword op d a low) 10 = a :=
  Fin.ext (nword_source a.isLt hl)

theorem immAt_nword (op d a : Nat) (i : Fin 1024) : immAt (nword op d a i) = i := Fin.ext (nword_low i.isLt)

/-! ### Codes -/

theorem AluFn.code_lt (f : AluFn) : f.code < 64 := by cases f <;> decide
theorem AluFn.ofCode_code (f : AluFn) : AluFn.ofCode f.code = some f := by cases f <;> rfl
theorem ImmOp.code_lt (op : ImmOp) : op.code < 64 := by cases op <;> decide
theorem MemOp.code_lt (op : MemOp) : op.code < 64 := by cases op <;> decide
theorem Cond.code_lt (c : Cond) : c.code < 16 := by cases c <;> decide
theorem Cond.ofCode_code (c : Cond) : Cond.ofCode c.code = some c := by cases c <;> rfl

/-! ### The decoder on the encoder -/

theorem nencode_lt (i : NInstr) : nencode i < 2 ^ 24 := by
  cases i with
  | alu f d a b => have := f.code_lt; exact nword_lt (by decide) d.isLt a.isLt (by omega)
  | jr a => exact nword_lt (by decide) (by decide) a.isLt (by decide)
  | jalr a => exact nword_lt (by decide) (by decide) a.isLt (by decide)
  | imm op d a i => exact nword_lt op.code_lt d.isLt a.isLt i.isLt
  | mem op d a o => exact nword_lt op.code_lt d.isLt a.isLt o.isLt
  | b c t => have := c.code_lt; simp only [nencode, nword]; omega
  | call c t => have := c.code_lt; simp only [nencode, nword]; omega
  | wait i => exact nword_lt (by decide) (by decide) (by decide) i.isLt
  | brem d => exact nword_lt (by decide) d.isLt (by decide) (by decide)
  | brk => decide

theorem ndecode_alu (f : AluFn) (d a b : Fin 16) : ndecode (nencode (.alu f d a b)) = some (.alu f d a b) := by
  have hf := f.code_lt
  have hl : b.val * 64 + f.code < 1024 := by omega
  have hop : nword 0x00 d a (b.val * 64 + f.code) / 2 ^ 18 = 0x00 := nword_opcode d.isLt a.isLt hl
  have hfn : nword 0x00 d a (b.val * 64 + f.code) % 64 = f.code := by unfold nword; omega
  have hb : regAt (nword 0x00 d a (b.val * 64 + f.code)) 6 = b := Fin.ext (by simp only [regAt, nword]; omega)
  simp only [ndecode, nencode, hop, hfn, hb, regAt_nword_destination _ d a hl, regAt_nword_source _ _ a hl, AluFn.ofCode_code, Option.map_some]

theorem ndecode_jump (a : Fin 16) (link : Fin 2) :
    ndecode (nword 0x01 0 a link) = some (if link = 0 then .jr a else .jalr a) := by
  have hl : link.val < 1024 := by omega
  have hop : nword 0x01 0 a link / 2 ^ 18 = 0x01 := nword_opcode (by decide) a.isLt hl
  have hfn : nword 0x01 0 a link % 64 = link.val := by unfold nword; omega
  simp only [ndecode, hop, hfn, regAt_nword_source _ _ a hl]
  rcases (by decide : ∀ l : Fin 2, l = 0 ∨ l = 1) link with h | h
  · rw [h]
    rfl
  · rw [h]
    rfl

theorem ndecode_imm (op : ImmOp) (d a : Fin 16) (i : Fin 1024) : ndecode (nencode (.imm op d a i)) = some (.imm op d a i) := by
  have hop : nword op.code d a i / 2 ^ 18 = op.code := nword_opcode d.isLt a.isLt i.isLt
  simp only [ndecode, nencode, hop, regAt_nword_destination _ d a i.isLt, regAt_nword_source _ _ a i.isLt, immAt_nword]
  cases op <;> rfl

theorem ndecode_mem (op : MemOp) (d a : Fin 16) (o : Fin 1024) : ndecode (nencode (.mem op d a o)) = some (.mem op d a o) := by
  have hop : nword op.code d a o / 2 ^ 18 = op.code := nword_opcode d.isLt a.isLt o.isLt
  simp only [ndecode, nencode, hop, regAt_nword_destination _ d a o.isLt, regAt_nword_source _ _ a o.isLt, immAt_nword]
  cases op <;> rfl

theorem branch_fields (op : Nat) (c : Cond) (t : Fin 4096) :
    nword op c.code 0 t / 2 ^ 18 = op ∧ nword op c.code 0 t / 2 ^ 14 % 16 = c.code ∧ targetAt (nword op c.code 0 t) = t := by
  have hc := c.code_lt
  refine ⟨?_, ?_, Fin.ext ?_⟩
  all_goals simp only [nword, targetAt]; omega

theorem ndecode_b (c : Cond) (t : Fin 4096) : ndecode (nencode (.b c t)) = some (.b c t) := by
  obtain ⟨hop, hc, ht⟩ := branch_fields 0x20 c t
  simp only [ndecode, nencode, hop, hc, ht, Cond.ofCode_code, Option.map_some]

theorem ndecode_call (c : Cond) (t : Fin 4096) : ndecode (nencode (.call c t)) = some (.call c t) := by
  obtain ⟨hop, hc, ht⟩ := branch_fields 0x21 c t
  simp only [ndecode, nencode, hop, hc, ht, Cond.ofCode_code, Option.map_some]

theorem ndecode_wait (i : Fin 1024) : ndecode (nencode (.wait i)) = some (.wait i) := by
  have hop : nword 0x30 0 0 i / 2 ^ 18 = 0x30 := nword_opcode (by decide) (by decide) i.isLt
  simp only [ndecode, nencode, hop, immAt_nword]

theorem ndecode_brem (d : Fin 16) : ndecode (nencode (.brem d)) = some (.brem d) := by
  have hop : nword 0x31 d 0 0 / 2 ^ 18 = 0x31 := nword_opcode d.isLt (by decide) (by decide)
  have hd : regAt (nword 0x31 d 0 0) 14 = d := regAt_nword_destination 0x31 d 0 (by decide)
  simp only [ndecode, nencode, hop, hd]

theorem ndecode_nencode (i : NInstr) : ndecode (nencode i) = some i := by
  cases i with
  | alu f d a b => exact ndecode_alu f d a b
  | jr a => exact ndecode_jump a 0
  | jalr a => exact ndecode_jump a 1
  | imm op d a i => exact ndecode_imm op d a i
  | mem op d a o => exact ndecode_mem op d a o
  | b c t => exact ndecode_b c t
  | call c t => exact ndecode_call c t
  | wait i => exact ndecode_wait i
  | brem d => exact ndecode_brem d
  | brk => rfl

/-- Settles O42, by a case split on the instruction's format. -/
theorem needleDecodeOfEncode : Obligations.NeedleDecodeOfEncode := fun i => ⟨ndecode_nencode i, nencode_lt i⟩

/-! ### Results of the functions (R418) -/

/-- The model's two's complement value of a 20-bit word is the word's own. -/
theorem signedOf_toNat (a : W20) : signedOf 20 a.toNat = a.toInt := by
  have := a.isLt
  unfold signedOf
  rw [BitVec.toInt_eq_toNat_cond]
  split <;> split <;> omega

/-- In range, the model's code of a number is the word of it. -/
theorem codeOf_eq_ofInt {x : Int} (hlo : -2 ^ 19 ≤ x) (hhi : x < 2 ^ 19) : codeOf 20 x = (BitVec.ofInt 20 x).toNat := by
  have h1 : ¬x < -((2 ^ (20 - 1) : Nat) : Int) := by omega
  have h2 : ¬((2 ^ (20 - 1) : Nat) : Int) - 1 < x := by omega
  simp only [codeOf, h1, h2, if_false, BitVec.toNat_ofInt]
  split <;> omega

/-- Division by a power of two that stops at 2^20 is the arithmetic shift of a 20-bit word. -/
theorem fdiv_two_pow_min_eq_shiftRight (x : Int) (k : Nat) (hlo : -2 ^ 19 ≤ x) (hhi : x < 2 ^ 19) :
    Int.fdiv x ((2 ^ (min k 20) : Nat) : Int) = x >>> k := by
  rw [Int.fdiv_eq_ediv_of_nonneg _ (Int.natCast_nonneg _), Int.shiftRight_eq_div_pow]
  rcases Nat.le_total k 20 with h | h
  · rw [Nat.min_eq_left h]
  · rw [Nat.min_eq_right h]
    have hk : (2 ^ 20 : Nat) ≤ 2 ^ k := Nat.pow_le_pow_right (by decide) h
    rcases Int.lt_or_le x 0 with hx | hx
    · rw [show x / ((2 ^ 20 : Nat) : Int) = -1 from by omega]
      exact ((Int.ediv_eq_neg_one_of_neg_of_le hx (by omega))).symm
    · rw [Int.ediv_eq_zero_of_lt hx (by omega), Int.ediv_eq_zero_of_lt hx (by omega)]

theorem toInt_shiftRight_range (a : W20) (k : Nat) : -2 ^ 19 ≤ a.toInt >>> k ∧ a.toInt >>> k < 2 ^ 19 := by
  have h1 := BitVec.le_toInt a
  have h2 := BitVec.toInt_lt (x := a)
  rw [Int.shiftRight_eq_div_pow]
  have hk : (0 : Int) < ((2 ^ k : Nat) : Int) := Int.natCast_pos.mpr (Nat.two_pow_pos k)
  constructor
  · rw [Int.le_ediv_iff_mul_le hk]; omega
  · rw [Int.ediv_lt_iff_lt_mul hk]; omega

theorem alu_asr_result (f : NFlags) (a b : W20) : (alu .asr f a.toNat b.toNat).1 = some (a.sshiftRight b.toNat).toNat := by
  have h1 := BitVec.le_toInt a
  have h2 := BitVec.toInt_lt (x := a)
  obtain ⟨hlo, hhi⟩ := toInt_shiftRight_range a b.toNat
  simp only [alu, nasr, signedOf_toNat, BitVec.sshiftRight, fdiv_two_pow_min_eq_shiftRight _ b.toNat h1 h2, codeOf_eq_ofInt hlo hhi]

theorem alu_rol_result (f : NFlags) (a b : W20) :
    (alu .rol f a.toNat b.toNat).1 = some (a.rotateLeft (b.toNat % 32 % 20)).toNat := by
  have hk : b.toNat % 32 % 20 < 20 := Nat.mod_lt _ (by decide)
  have ha := a.isLt
  simp only [alu, nrol, BitVec.toNat_rotateLeft, Nat.mod_eq_of_lt hk]
  generalize b.toNat % 32 % 20 = k at hk
  generalize a.toNat = x at ha
  have hsplit : 2 ^ (20 - k) * 2 ^ k = w20 := by rw [← Nat.pow_add, Nat.sub_add_cancel (Nat.le_of_lt hk)]; rfl
  have hx := Nat.div_add_mod x (2 ^ (20 - k))
  have hlow : x % 2 ^ (20 - k) < 2 ^ (20 - k) := Nat.mod_lt _ (Nat.two_pow_pos _)
  have hhigh : x / 2 ^ (20 - k) < 2 ^ k := by rw [Nat.div_lt_iff_lt_mul (Nat.two_pow_pos _), Nat.mul_comm, hsplit]; exact ha
  generalize x % 2 ^ (20 - k) = lo at hx hlow
  have hmul : x * 2 ^ k = lo * 2 ^ k + w20 * (x / 2 ^ (20 - k)) := by
    rw [← hsplit, Nat.mul_right_comm, ← Nat.add_mul, Nat.add_comm, hx]
  have hlo : lo * 2 ^ k + 2 ^ k ≤ w20 := by rw [← hsplit, ← Nat.succ_mul]; exact Nat.mul_le_mul_right _ hlow
  rw [Nat.shiftLeft_eq, Nat.shiftRight_eq_div_pow, hmul]
  generalize x / 2 ^ (20 - k) = hi at hhigh
  rw [show lo * 2 ^ k + w20 * hi + hi = lo * 2 ^ k + hi + w20 * hi from by omega, Nat.add_mul_mod_self_left, Nat.mod_eq_of_lt (by omega),
    show (2 : Nat) ^ 20 = w20 from rfl, Nat.add_mul_mod_self_left, Nat.mod_eq_of_lt (by omega), ← Nat.shiftLeft_eq,
    Nat.shiftLeft_add_eq_or_of_lt hhigh]

/-! #### Bits reversed -/

/-- The number whose bits, highest first, are the first `n` values of `b`. -/
def bitsHighFirst (b : Nat → Bool) (n : Nat) : Nat := (List.range n).foldl (fun v i => 2 * v + (b i).toNat) 0

theorem bitsHighFirst_succ (b : Nat → Bool) (n : Nat) : bitsHighFirst b (n + 1) = 2 * bitsHighFirst b n + (b n).toNat := by
  simp [bitsHighFirst, List.range_succ]

theorem bitsHighFirst_lt (b : Nat → Bool) (n : Nat) : bitsHighFirst b n < 2 ^ n := by
  induction n with
  | zero => exact Nat.one_pos
  | succ n ih => have := Bool.toNat_lt (b n); rw [bitsHighFirst_succ, Nat.pow_succ]; omega

theorem testBit_bitsHighFirst (b : Nat → Bool) (n i : Nat) (h : i < n) : (bitsHighFirst b n).testBit i = b (n - 1 - i) := by
  induction n generalizing i with
  | zero => omega
  | succ n ih =>
    rw [bitsHighFirst_succ]
    cases i with
    | zero => cases hb : b n <;> simp [hb, Nat.testBit_zero]
    | succ i =>
      have hdiv : (2 * bitsHighFirst b n + (b n).toNat) / 2 = bitsHighFirst b n := by have := Bool.toNat_lt (b n); omega
      rw [Nat.testBit_succ, hdiv, ih i (by omega)]
      congr 1; omega

/-! #### Leading zeros -/

/-- The length of the longest beginning whose elements meet `p`: all before it do, the next one does not. -/
theorem takeWhile_length_spec {α : Type} (p : α → Bool) (l : List α) :
    (∀ i (h : i < l.length), i < (l.takeWhile p).length → p l[i] = true) ∧
      ∀ h : (l.takeWhile p).length < l.length, p l[(l.takeWhile p).length] = false := by
  induction l with
  | nil => simp
  | cons x xs ih =>
    by_cases hx : p x
    · obtain ⟨ih1, ih2⟩ := ih
      simp only [List.takeWhile_cons, hx, if_true, List.length_cons]
      refine ⟨fun i h hi => ?_, fun h => ?_⟩
      · cases i with
        | zero => simpa using hx
        | succ i => simpa using ih1 i (by simpa using h) (by omega)
      · simpa using ih2 (by omega)
    · simp [hx]

theorem clz20_spec (a : Nat) (ha : a < 2 ^ 20) :
    clz20 a ≤ 20 ∧ a < 2 ^ (20 - clz20 a) ∧ (clz20 a < 20 → 2 ^ (19 - clz20 a) ≤ a) := by
  have hlen : ((List.range 20).map (fun i => 19 - i)).length = 20 := by simp
  obtain ⟨hbefore, hat⟩ := takeWhile_length_spec (fun i => !a.testBit i) ((List.range 20).map (fun i => 19 - i))
  have hle : clz20 a ≤ 20 := hlen ▸ (List.takeWhile_sublist _).length_le
  change ∀ i _, i < clz20 a → _ at hbefore
  change ∀ h : clz20 a < _, _ at hat
  refine ⟨hle, Nat.lt_pow_two_of_testBit _ (fun i hi => ?_), fun hk => Nat.ge_two_pow_of_testBit ?_⟩
  · rcases Nat.lt_or_ge i 20 with h | h
    · have := hbefore (19 - i) (by omega) (by omega)
      simpa [show 19 - (19 - i) = i from by omega] using this
    · exact Nat.testBit_lt_two_pow (Nat.lt_of_lt_of_le ha (Nat.pow_le_pow_right (by decide) h))
  · have hget : ((List.range 20).map (fun i => 19 - i))[clz20 a]'(by omega) = 19 - clz20 a := by simp
    have hstop := (congrArg (fun i => !a.testBit i) hget).symm.trans (hat (by omega))
    simpa using hstop

/-! #### The Gray code -/

/-- Shifts of a number combined, from none to `n - 1` places. -/
def shiftsXored (a n : Nat) : Nat := (List.range n).foldl (fun x i => x ^^^ (a / 2 ^ i)) 0

theorem shiftsXored_succ (a n : Nat) : shiftsXored a (n + 1) = shiftsXored a n ^^^ (a / 2 ^ n) := by
  simp [shiftsXored, List.range_succ]

theorem shiftsXored_lt (a n : Nat) (ha : a < 2 ^ 20) : shiftsXored a n < 2 ^ 20 := by
  induction n with
  | zero => simp [shiftsXored]
  | succ n ih => rw [shiftsXored_succ]; exact Nat.xor_lt_two_pow ih (Nat.lt_of_le_of_lt (Nat.div_le_self _ _) ha)

theorem xor_div_two (x y : Nat) : (x ^^^ y) / 2 = x / 2 ^^^ y / 2 := by
  simpa [Nat.shiftRight_eq_div_pow] using Nat.shiftRight_xor_distrib (a := x) (b := y) (i := 1)

/-- The sum telescopes: the Gray code of the first `n` shifts is the number, its `n`th shift taken out. -/
theorem shiftsXored_gray (a n : Nat) : shiftsXored a n ^^^ shiftsXored a n / 2 = a ^^^ a / 2 ^ n := by
  induction n with
  | zero => simp [shiftsXored]
  | succ n ih =>
    rw [shiftsXored_succ, xor_div_two, Nat.div_div_eq_div_mul, ← Nat.pow_succ]
    calc shiftsXored a n ^^^ a / 2 ^ n ^^^ (shiftsXored a n / 2 ^^^ a / 2 ^ (n + 1))
        = shiftsXored a n ^^^ shiftsXored a n / 2 ^^^ a / 2 ^ n ^^^ a / 2 ^ (n + 1) := by ac_rfl
      _ = a ^^^ a / 2 ^ (n + 1) := by rw [ih, Nat.xor_assoc a, Nat.xor_self, Nat.xor_zero]

theorem ungray_spec (a : W20) : ∃ g : W20, ungray20 a.toNat = g.toNat ∧ g ^^^ (g >>> 1) = a := by
  have hlt : ungray20 a.toNat < 2 ^ 20 := shiftsXored_lt a.toNat 20 a.isLt
  have h := shiftsXored_gray a.toNat 20
  rw [Nat.div_eq_of_lt a.isLt, Nat.xor_zero] at h
  refine ⟨⟨ungray20 a.toNat, hlt⟩, rfl, BitVec.eq_of_toNat_eq ?_⟩
  simpa [Nat.shiftRight_eq_div_pow, ungray20, shiftsXored] using h

/-! #### All functions -/

theorem popc20_eq_countP (a : W20) : popc20 a.toNat = (List.range 20).countP (fun i => a.getLsbD i) :=
  List.countP_eq_length_filter.symm

/-- Sums and differences with a carry. -/
theorem nadd_result (a b : W20) (c : Bool) : (nadd a.toNat b.toNat c.toNat).1 = some (a + b + (BitVec.ofBool c).zeroExtend 20).toNat := by
  cases c <;> simp [nadd, w20, BitVec.toNat_add]

theorem nsub_result (a b : W20) (c : Bool) : (nsub a.toNat b.toNat c.toNat).1 = some (a - b - (BitVec.ofBool c).zeroExtend 20).toNat := by
  have := a.isLt
  have := b.isLt
  cases c <;> simp [nsub, w20, BitVec.toNat_sub] <;> omega

/-- Settles O43: each function by its own lemma, the bitwise ones by `BitVec.toNat`. -/
theorem needleFunctions : Obligations.NeedleFunctions := by
  intro f a b
  have ha := a.isLt
  have hb := b.isLt
  refine ⟨?add, nadd_result a b f.c, ?sub, nsub_result a b (!f.c), ?and, ?or, ?xor, ?not, ?shl, ?shr, alu_asr_result f a b,
    alu_rol_result f a b, ?mul, ?mulh, ?min, ?max, rfl, rfl, rfl, ?brev10, ?popc, ?clz, ?gray, ?ungray, ?parity⟩
  case add => simpa [alu] using nadd_result a b false
  case sub => simpa [alu] using nsub_result a b false
  case and => simp [alu, nlogic]
  case or => simp [alu, nlogic]
  case xor => simp [alu, nlogic]
  case not => simp [alu, nlogic, w20, Nat.mod_eq_of_lt ha]
  case shl =>
    simp only [alu, nshl, BitVec.toNat_shiftLeft, Nat.shiftLeft_eq, Option.some.injEq]
    split
    · next h => rw [show b.toNat = 20 + (b.toNat - 20) from by omega, Nat.pow_add, Nat.mul_left_comm, Nat.mul_mod_right]
    · rfl
  case shr =>
    simp only [alu, nshr, BitVec.toNat_ushiftRight, Nat.shiftRight_eq_div_pow, Option.some.injEq]
    split
    · next h => exact (Nat.div_eq_of_lt (Nat.lt_of_lt_of_le ha (Nat.pow_le_pow_right (by decide) h))).symm
    · rfl
  case mul => simp [alu, nlogic, w20]
  case mulh =>
    have : a.toNat * b.toNat < 2 ^ 20 * 2 ^ 20 := Nat.mul_lt_mul'' ha hb
    simp only [alu, nlogic, w20, Option.some.injEq]
    omega
  case min => simp only [alu, nlogic, signedOf_toNat, BitVec.slt, decide_eq_true_eq, apply_ite BitVec.toNat]
  case max => simp only [alu, nlogic, signedOf_toNat, BitVec.slt, decide_eq_true_eq, apply_ite BitVec.toNat]
  case brev10 => exact ⟨_, rfl, bitsHighFirst_lt _ 10, fun i hi => testBit_bitsHighFirst _ 10 i hi⟩
  case popc => exact congrArg some (popc20_eq_countP a)
  case clz => exact ⟨_, rfl, clz20_spec a.toNat ha⟩
  case gray => simp [alu, nlogic, Nat.shiftRight_eq_div_pow]
  case ungray => obtain ⟨g, hg, hga⟩ := ungray_spec a; exact ⟨g, congrArg some hg, hga⟩
  case parity => exact congrArg (fun n => some (n % 2)) (popc20_eq_countP a)

/-! ### Flags of the functions (R419) -/

/-- The functions that write a result take Z and N from it. -/
theorem alu_setZN (fn : AluFn) (f : NFlags) (a b v : Nat) (h : (alu fn f a b).1 = some v) :
    (alu fn f a b).2.z = (v == 0) ∧ (alu fn f a b).2.n = v.testBit 19 := by
  cases fn <;> simp only [alu, nadd, nsub, ncmp, nlogic, nshl, nshr, nasr, nrol, Option.some.injEq, reduceCtorEq] at h <;> subst h <;>
    exact ⟨rfl, rfl⟩

/-- Settles O44, by the flags that each shared form of the functions gives. -/
theorem needleFlags : Obligations.NeedleFlags := by
  intro f a b
  have hb := b.isLt
  refine ⟨fun fn v => alu_setZN fn f _ _ v, rfl, rfl, rfl, rfl, ?cmp, ?tst, ?logic, ?unshifted, ?shifted⟩
  case cmp =>
    have hz : (a.toNat == b.toNat) = (a == b) := by rw [Bool.eq_iff_iff]; simp [BitVec.toNat_inj]
    simp [alu, ncmp, signedOf_toNat, BitVec.slt, hz]
  case tst =>
    have hz : ((a.toNat &&& b.toNat) == 0) = (a &&& b == 0) := by
      rw [← BitVec.toNat_and, Bool.eq_iff_iff]; simp [← BitVec.toNat_inj]
    simp [alu, setZN, hz, BitVec.msb_eq_getLsbD_last, BitVec.getLsbD]
  case logic =>
    intro fn hfn
    simp only [List.mem_cons, List.not_mem_nil, or_false] at hfn
    rcases hfn with rfl | rfl | rfl | rfl | rfl | rfl | rfl | rfl | rfl | rfl | rfl | rfl | rfl | rfl | rfl <;> rfl
  case unshifted =>
    intro h0 fn hfn
    simp only [List.mem_cons, List.not_mem_nil, or_false] at hfn
    rcases hfn with rfl | rfl | rfl | rfl <;> simp [alu, nshl, nshr, nasr, nrol, setZN, h0]
  case shifted =>
    intro hpos hle
    have hk : b.toNat ≠ 0 := by omega
    simp [alu, nshl, nshr, nasr, setZN, hk, hle, BitVec.getLsbD]

end Sys2Proof.Machine
end

section
/-! SUPPORT. The outcome of every command: an effect in one of the two frames of R15 and R26, behind checks for misuse where there may be
some. What every command leaves. -/

namespace Sys2Proof.Machine

/-! ### The form of an outcome -/

/-- An outcome that is an effect, behind checks for misuse where there may be some: in the frame of `shift` where the device state may
change, of `stay` elsewhere. -/
inductive Checked (s : State) : (moves : Bool) → Host.Outcome State Fault Refusal → Prop
  | stays (f : Dev → Dev) : Checked s false (stay s f)
  | shifts (f : Dev → Dev) : Checked s true (shift s f)
  | check (m : Option Misuse) {moves : Bool} {o : Host.Outcome State Fault Refusal} (h : Checked s moves o) :
      Checked s moves (unlessMisuse m o)

theorem execRegisterWrite_checked (addr : Fin 67108864) (size : Fin 4) (value : BitVec 64) (s : State) :
    Checked s true (execRegisterWrite addr size value s) := by
  simp only [execRegisterWrite]
  repeat' split
  · exact .shifts _
  · exact .shifts _
  · exact .check _ (.shifts _)
  · exact .check _ (.check _ (.shifts _))

theorem execSoftResetWrite_checked (addr : Fin 67108864) (value : Word) (s : State) :
    Checked s true (execSoftResetWrite addr value s) := by
  unfold execSoftResetWrite
  split
  · exact .check _ (.shifts _)
  · exact .shifts _

theorem execSoftResetDone_checked (addr : Fin 67108864) (s : State) : Checked s true (execSoftResetDone addr s) := by
  unfold execSoftResetDone
  split <;> exact .shifts _

theorem execCmdSlotWrite_checked (word : Fin 4096) (value : Word) (s : State) : Checked s false (execCmdSlotWrite word value s) := by
  unfold execCmdSlotWrite
  split
  · exact .check _ (.stays _)
  · exact .stays _

theorem execPushHeadWrite_checked (basket : Fin 14) (value : Word) (s : State) :
    Checked s false (execPushHeadWrite basket value s) := by
  unfold execPushHeadWrite
  split
  · exact .check _ (.check _ (.stays _))
  · exact .stays _

theorem execPushDataWrite_checked (basket : Fin 14) (value : Word) (s : State) :
    Checked s false (execPushDataWrite basket value s) := by
  unfold execPushDataWrite
  split
  · exact .check _ (.stays _)
  · exact .stays _

/-- Every command but RESET_N's release. The arms without a lemma of their own are one effect, with one check or none. -/
theorem exec_checked (c : Instr) (s : State) (hc : c ≠ .resetNRelease) : Checked s (movesState c) (exec c s) := by
  cases c
  case resetNRelease => exact absurd rfl hc
  case registerWrite addr size value => exact execRegisterWrite_checked addr size value s
  case softResetWrite addr value => exact execSoftResetWrite_checked addr value s
  case softResetDone addr => exact execSoftResetDone_checked addr s
  case cmdSlotWrite word value => exact execCmdSlotWrite_checked word value s
  case pushHeadWrite basket value => exact execPushHeadWrite_checked basket value s
  case pushDataWrite basket value => exact execPushDataWrite_checked basket value s
  all_goals dsimp only [exec]
  all_goals first
    | exact .stays _
    | exact .check _ (.stays _)
    | exact .shifts _
    | exact .check _ (.shifts _)

section
variable {s t : State} {moves : Bool} {o : Host.Outcome State Fault Refusal}

/-! ### What an outcome of the form leaves -/

theorem Checked.next_pending (h : Checked s moves o) (ho : o = .next t) : t.pending = s.pending := by
  induction h with
  | stays f => cases ho; rfl
  | shifts f => cases ho; rfl
  | check m _ ih => exact ih (unlessMisuse_next ho).2

theorem Checked.next_timebase (h : Checked s moves o) (ho : o = .next t) : t.dev.timebase = s.dev.timebase := by
  induction h with
  | stays f => cases ho; rfl
  | shifts f => cases ho; rfl
  | check m _ ih => exact ih (unlessMisuse_next ho).2

theorem Checked.next_mode (h : Checked s false o) (ho : o = .next t) : t.dev.mode = s.dev.mode := by
  generalize hm : false = moves at h
  induction h with
  | stays f => cases ho; rfl
  | shifts f => cases hm
  | check m _ ih => exact ih (unlessMisuse_next ho).2 hm

end

/-! ### RESET_N's release (R15, R74) -/

theorem exec_resetNRelease_low {s : State} (h : s.dev.host.resetLow = true) :
    exec .resetNRelease s = .next { s with dev := s.dev.released } := if_pos h

theorem exec_resetNRelease_high {s : State} (h : s.dev.host.resetLow = false) : exec .resetNRelease s = .next s :=
  if_neg (by simp [h])

/-! ### The statements over all commands -/

/-- Settles O27. -/
theorem stepRunsFrontCommand : Obligations.StepRunsFrontCommand := by
  intro s c rest h
  rw [step, h]

/-- Settles O28. -/
theorem emptyQueueTicks : Obligations.EmptyQueueTicks := by
  intro s h
  rw [step, h]
  cases hl : s.dev.host.resetLow <;> simp [Dev.tick, hl]

/-- After reset every register element has its Reset value (R12). -/
theorem reset_rd (f : Field) (i j : Nat) : State.reset.dev.rd f i j = f.resetAt j := Nat.zero_xor _

/-- Settles O29. -/
theorem resetLeaves : Obligations.ResetLeaves := by
  refine ⟨rfl, rfl, rfl, by decide, rfl, fun _ => rfl, fun i => ?_, fun l => reset_rd .., fun r => ?_, fun e => ⟨?_, reset_rd ..⟩⟩
  · rw [reset_rd]; exact ite_congr (propext (Fin.val_eq_zero_iff (a := i))) (fun _ => rfl) (fun _ => rfl)
  · rw [Dev.on, reset_rd]; rfl
  · rw [Dev.on, reset_rd]; rfl

/-- Settles O33, by the form of every command's outcome. -/
theorem everyCommandLeaves : Obligations.EveryCommandLeaves := by
  intro c s t h
  by_cases hc : c = .resetNRelease
  · subst hc
    refine ⟨?_, fun hm => Bool.noConfusion hm⟩
    cases hl : s.dev.host.resetLow
    · rw [exec_resetNRelease_high hl] at h; cases h; rfl
    · rw [exec_resetNRelease_low hl] at h; cases h; rfl
  · have hf := exec_checked c s hc
    exact ⟨hf.next_pending h, fun hm => (hm ▸ hf).next_mode h⟩

/-- An engine that runs a store (ST n3, n1, 5) of 1 to the upper half of a CHK unit's reserved word: engine 95, PC 0, N1 = 0xA003C. -/
def reservedChkStore : Dev :=
  let d : Dev := { Dev.reset with needle := { NeedleSt.reset with
    istore := [(95 * 4096, nencode (.mem .st 3 1 5) ^^^ 0xFFFFFF)]
    engines := [(95, { EngineSt.reset with running := some ⟨⟨0, none, 0, 0, 0, [], []⟩, 0, none, false⟩ })] } }
  ((d.wr (HDR.STATE .ndl) 95 0 2).wr NDL.N 95 1 0xA003C).wr NDL.N 95 3 1

theorem ndlMisuse_reservedChkStore : reservedChkStore.ndlMisuse (95 : Fin 96) = some .reservedWrite := by decide +kernel

theorem exec_st_of_misuse {s : State} {e : Fin 96} {m : Misuse} (h : s.dev.ndlMisuse e = some m) :
    exec (.st e) s = .fault (.misuse m) := by
  change unlessMisuse (s.dev.ndlMisuse e) _ = _
  rw [h, unlessMisuse_some]

/-- Refutes O34: ST is no host write and no command start, and a store to a reserved word of a CHK unit is misuse (R11, R431). -/
theorem not_onlyHostWritesStop : ¬ Obligations.OnlyHostWritesStop := by
  intro h
  obtain ⟨t, ht⟩ := (h (.st 95) ⟨[], reservedChkStore⟩).2 rfl
  rw [exec_st_of_misuse (s := ⟨[], reservedChkStore⟩) ndlMisuse_reservedChkStore] at ht
  cases ht

/-- Settles O30: a command's frame keeps TIMEBASE, the release zeroes it, and an empty queue ticks. -/
theorem timebaseOfEveryStep : Obligations.TimebaseOfEveryStep := by
  intro s t h
  cases hp : s.pending with
  | nil =>
    rw [emptyQueueTicks s hp] at h
    cases h
    rfl
  | cons c rest =>
    rw [stepRunsFrontCommand s c rest hp] at h
    by_cases hc : c = .resetNRelease
    · subst hc
      cases hl : s.dev.host.resetLow
      · rw [exec_resetNRelease_high (s := { s with pending := rest }) hl] at h; cases h; simp
      · rw [exec_resetNRelease_low (s := { s with pending := rest }) hl] at h; cases h; rfl
    · simpa [hc] using (exec_checked c _ hc).next_timebase h

end Sys2Proof.Machine
end

section

/-! SUPPORT. What no effect but a few alters: the device state and the Hamper's memory. One rule for each
effect of the model, in the model's order; the effects that do alter one of the two have rules of their own. -/

set_option Elab.async false

namespace Sys2Proof.Machine

/-- What no effect but a few alters: the device state and the Hamper's memory. -/
@[irreducible] def Dev.calm (d : Dev) : Mode × FMap Nat := (d.mode, d.hamper.mem)

@[simp] theorem Dev.calm_eta (d : Dev) : (d.mode, d.hamper.mem) = d.calm := by unfold Dev.calm; rfl

@[simp] theorem Dev.calm_mk (tb mode calFrom regs flash free host arch line lint sys starch lines mangle needle service hamper pair) :
    (Dev.mk tb mode calFrom regs flash free host arch line lint sys starch lines mangle needle service hamper pair).calm =
      (mode, hamper.mem) := by unfold Dev.calm; rfl

@[simp] theorem Dev.calm_ite (c : Prop) [Decidable c] (a b : Dev) :
    (if c then a else b).calm = if c then a.calm else b.calm :=
  apply_ite Dev.calm c a b

@[simp] theorem Dev.calm_foldl {α : Type} (g : Dev → α → Dev) (xs : List α) (d : Dev) (hg : ∀ d a, (g d a).calm = d.calm) :
    (xs.foldl g d).calm = d.calm := foldl_keeps Dev.calm g hg xs d

@[simp] theorem Dev.calm_snd_foldl {α β : Type} (g : β × Dev → α → β × Dev) (xs : List α) (x : β × Dev)
    (hg : ∀ x a, (g x a).2.calm = x.2.calm) : (xs.foldl g x).2.calm = x.2.calm := foldl_keeps (fun x : β × Dev => x.2.calm) g hg xs x

@[simp] theorem Dev.calm_fst_foldl {α β : Type} (g : Dev × β → α → Dev × β) (xs : List α) (x : Dev × β)
    (hg : ∀ x a, (g x a).1.calm = x.1.calm) : (xs.foldl g x).1.calm = x.1.calm := foldl_keeps (fun x : Dev × β => x.1.calm) g hg xs x


@[simp] theorem Dev.wr_calm (d : Dev) (f : Field) (inst idx v : Nat) : (d.wr f inst idx v).calm = d.calm := by
  simp [Dev.wr]
@[simp] theorem Dev.inc_calm (d : Dev) (f : Field) (inst : Nat) (idx : Nat) (n : Nat) :
    (d.inc f inst idx n).calm = d.calm := by
  simp [Dev.inc]
@[simp] theorem Dev.flag_calm (d : Dev) (f : Field) (inst idx : Nat) (b : Bool) :
    (d.flag f inst idx b).calm = d.calm := by
  simp [Dev.flag]
@[simp] theorem Dev.restore_calm (d : Dev) (f : Field) (inst idx : Nat) : (d.restore f inst idx).calm = d.calm := by
  simp [Dev.restore]
@[simp] theorem Dev.restoreAll_calm (d : Dev) (fs : List Field) (inst : Nat) :
    (d.restoreAll fs inst).calm = d.calm := by
  simp [Dev.restoreAll]
@[simp] theorem whenDev_calm (c : Dev → Bool) (f : Dev → Dev) (d : Dev) (hf : (f d).calm = d.calm) :
    (whenDev c f d).calm = d.calm := by
  unfold whenDev; split <;> simp [hf]
@[simp] theorem Dev.emit_calm (d : Dev) (o : Output) : (d.emit o).calm = d.calm := by simp [Dev.emit]
@[simp] theorem Dev.msixSend_calm (d : Dev) (v : Nat) : (d.msixSend v).calm = d.calm := by simp [Dev.msixSend]
@[simp] theorem Dev.jrnAdd_calm (d : Dev) (kind : Nat) (payload : List Nat) :
    (d.jrnAdd kind payload).calm = d.calm := by
  simp [Dev.jrnAdd]
@[simp] theorem Dev.ringPut_calm (d : Dev) (r : Nat) (words : List Nat) : (d.ringPut r words).calm = d.calm := by
  simp [Dev.ringPut]
@[simp] theorem Dev.choose_calm (d : Dev) : d.choose.2.calm = d.calm := by simp [Dev.choose]
@[simp] theorem Dev.setPort_calm (d : Dev) (n : Nat) (m : PortMode) : (d.setPort n m).calm = d.calm := by
  simp [Dev.setPort]
@[simp] theorem Dev.setPortSt_calm (d : Dev) (n : Nat) (x : PortSt) : (d.setPortSt n x).calm = d.calm := by
  simp [Dev.setPortSt]
@[simp] theorem Dev.modPort_calm (d : Dev) (n : Nat) (f : PortSt → PortSt) : (d.modPort n f).calm = d.calm := by
  simp [Dev.modPort]
@[simp] theorem Dev.setLane_calm (d : Dev) (n dir : Nat) (fs : List PortFrame) :
    (d.setLane n dir fs).calm = d.calm := by
  simp [Dev.setLane]
@[simp] theorem Dev.modFrame_calm (d : Dev) (n dir num : Nat) (f : PortFrame → PortFrame) :
    (d.modFrame n dir num f).calm = d.calm := by
  simp [Dev.modFrame]
@[simp] theorem Dev.dropFrame_calm (d : Dev) (n dir num : Nat) : (d.dropFrame n dir num).calm = d.calm := by
  simp [Dev.dropFrame]
@[simp] theorem Dev.vecRise_calm (d0 : Dev) (v : Nat) (d : Dev) : (Dev.vecRise d0 v d).calm = d.calm := by
  simp [Dev.vecRise]
@[simp] theorem Dev.setEvt_calm (d : Dev) (p : Page) (inst bit : Nat) : (d.setEvt p inst bit).calm = d.calm := by
  simp [Dev.setEvt]
@[simp] theorem Dev.evtItem_calm (fuel : Nat) (d0 : Dev) (l : Nat) (d : Dev) :
    (Dev.evtItem fuel d0 l d).calm = d.calm := by
  induction fuel generalizing d0 l d with
  | zero => rfl
  | succ n ih => simp only [Dev.evtItem]; (repeat' split) <;> simp [ih]
@[simp] theorem Dev.leavesRise_calm (d0 : Dev) (ls : List Nat) (d : Dev) : (d0.leavesRise ls d).calm = d.calm := by
  simp [Dev.leavesRise]
@[simp] theorem Dev.allRise_calm (d0 d : Dev) : (Dev.allRise d0 d).calm = d.calm := by simp [Dev.allRise]
@[simp] theorem Dev.raise_calm (d : Dev) (p : Page) (inst bit : Nat) :
    (d.raise p inst bit).calm = d.calm := by unfold Dev.raise; split <;> simp
@[simp] theorem Dev.condSet_calm (d : Dev) (p : Page) (inst bit : Nat) : (d.condSet p inst bit).calm = d.calm := by
  simp [Dev.condSet]
@[simp] theorem Dev.condClear_calm (d : Dev) (p : Page) (inst bit : Nat) : (d.condClear p inst bit).calm = d.calm := by
  simp [Dev.condClear]
@[simp] theorem Dev.cond_calm (d : Dev) (p : Page) (inst bit : Nat) (b : Bool) :
    (d.cond p inst bit b).calm = d.calm := by
  simp [Dev.cond]
@[simp] theorem Dev.setSrc_calm (d : Dev) (n : Nat) (x : SrcSt) : (d.setSrc n x).calm = d.calm := by
  simp [Dev.setSrc]
@[simp] theorem Dev.presentCond_calm (d : Dev) : d.presentCond.calm = d.calm := by simp [Dev.presentCond]
@[simp] theorem Dev.fault_calm (d : Dev) (n : Nat) (detail : Nat) : (d.fault n detail).calm = d.calm := by
  simp [Dev.fault]
@[simp] theorem Dev.faultCond_calm (d : Dev) (n : Nat) (b : Bool) : (d.faultCond n b).calm = d.calm := by
  simp [Dev.faultCond]
@[simp] theorem Dev.countInflight_calm (d : Dev) : d.countInflight.calm = d.calm := by
  simp [Dev.countInflight]
@[simp] theorem Dev.cplDrain_calm (ws : List (List Nat)) (d : Dev) : (Dev.cplDrain ws d).calm = d.calm := by
  induction ws generalizing d with
  | nil => simp [Dev.cplDrain]
  | cons w ws ih => unfold Dev.cplDrain; split <;> simp [ih]
@[simp] theorem Dev.countStatus_calm (d : Dev) (st : Status) :
    (d.countStatus st).calm = d.calm := by cases st <;> simp [Dev.countStatus]
@[simp] theorem Dev.cplPush_calm (d : Dev) (c : Inflight) (st : Status) (aborted : Bool) (res : List Nat) :
    (d.cplPush c st aborted res).calm = d.calm := by simp [Dev.cplPush]
@[simp] theorem Dev.complete_calm (d : Dev) (tag : Nat) (st : Status) (res : List Nat) (aborted : Bool) :
    (d.complete tag st res aborted).calm = d.calm := by unfold Dev.complete; split <;> simp
@[simp] theorem Dev.start_calm (d : Dev) (tag : Nat) : (d.start tag).calm = d.calm := by simp [Dev.start]
@[simp] theorem Dev.startCmd_calm (d : Dev) (code tag : Nat) (run : Inflight → Dev → Dev) (hr : ∀ c d, (run c d).calm = d.calm) :
    (d.startCmd code tag run).calm = d.calm := by
  unfold Dev.startCmd; split
  · rfl
  · (repeat' split) <;> simp [hr]
@[simp] theorem Dev.abortIllegal_calm (d : Dev) : d.abortIllegal.calm = d.calm := by simp [Dev.abortIllegal]
@[simp] theorem Dev.busErr_calm (d : Dev) (f : Field) (addr : Nat) : (d.busErr f addr).calm = d.calm := by
  simp [Dev.busErr]
@[simp] theorem Dev.writeElem_calm (d : Dev) (addr : Nat) (f : Field) (inst v idx : Nat) :
    (d.writeElem addr f inst v idx).calm = d.calm := by
  have hput : (match d.guard f inst idx with
      | .yes => if (d.ranged f inst idx (f.part idx v)).2 then (d.wr f inst idx (d.ranged f inst idx (f.part idx v)).1).busErr DEV.RANGE addr
        else d.wr f inst idx (d.ranged f inst idx (f.part idx v)).1
      | _ => d).calm = d.calm := by
    split <;> simp
  unfold Dev.writeElem
  dsimp only
  split
  · exact hput
  · split
    · exact hput
    · rfl
  · simp
  · rfl
  · rfl
  · rfl
@[simp] theorem Dev.writeFields_calm (d : Dev) (addr : Nat) (p : Page) (inst off v : Nat) :
    (d.writeFields addr p inst off v).calm = d.calm := by
  simp [Dev.writeFields]
@[simp] theorem Dev.setBin_calm (d : Dev) (p b e tap : Nat) : (d.setBin p b e tap).calm = d.calm := by
  simp [Dev.setBin]
@[simp] theorem Dev.checkBin_calm (d : Dev) (p b : Nat) : (d.checkBin p b).calm = d.calm := by
  simp [Dev.checkBin]
@[simp] theorem Dev.stepTaps_calm (d : Dev) : d.stepTaps.calm = d.calm := by simp [Dev.stepTaps]
@[simp] theorem Dev.updateCaps_calm (d : Dev) : d.updateCaps.calm = d.calm := by simp [Dev.updateCaps]
@[simp] theorem Dev.setTput_calm (d : Dev) (tput : List Nat) : (d.setTput tput).calm = d.calm := by
  simp [Dev.setTput]
@[simp] theorem Dev.refreshAdvice_calm (d : Dev) : d.refreshAdvice.calm = d.calm := by
  simp [Dev.refreshAdvice]
@[simp] theorem Dev.readSensor_calm (others : List Int) (d : Dev) (k : Nat) (r : Int) :
    (d.readSensor others k r).calm = d.calm := by
  simp [Dev.readSensor]
@[simp] theorem Dev.readSensors_calm (d : Dev) (rs : List Int) : (d.readSensors rs).calm = d.calm := by
  simp [Dev.readSensors]
@[simp] theorem Dev.countSteps_calm (d : Dev) (n : Nat) : (d.countSteps n).calm = d.calm := by
  simp [Dev.countSteps]
@[simp] theorem Dev.sensorReading_calm (d : Dev) (rs : List Int) (tput : List Nat) :
    (d.sensorReading rs tput).calm = d.calm := by
  simp [Dev.sensorReading]
@[simp] theorem Dev.takeItems_calm (d : Dev) (n take : Nat) (x : PortItems) : (d.takeItems n take x).calm = d.calm := by
  simp [Dev.takeItems]
@[simp] theorem Dev.countDeferred_calm (d : Dev) : d.countDeferred.calm = d.calm := by
  simp [Dev.countDeferred]
@[simp] theorem Dev.defer_calm (d : Dev) (n : Nat) : (d.defer n).calm = d.calm := by simp [Dev.defer]
@[simp] theorem Dev.takeCal_calm (d : Dev) (loaded : Bool) : (d.takeCal loaded).calm = d.calm := by
  simp [Dev.takeCal]
@[simp] theorem Dev.undefer_calm (d : Dev) (n : Nat) : (d.undefer n).calm = d.calm := by simp [Dev.undefer]
@[simp] theorem Dev.setSuspect_calm (d : Dev) (n items bad : Nat) : (d.setSuspect n items bad).calm = d.calm := by
  simp [Dev.setSuspect]
@[simp] theorem Dev.portResult_calm (d : Dev) (items n : Nat) (ps : List PortItems) :
    (d.portResult items n ps).calm = d.calm := by unfold Dev.portResult; dsimp only; split <;> (try split) <;> simp
@[simp] theorem Dev.fillElem_calm (d : Dev) (p b e t : Nat) : (d.fillElem p b e t).calm = d.calm := by
  simp [Dev.fillElem]
@[simp] theorem Dev.takeTap_calm (d : Dev) (bin : Option Nat) (e t : Nat) (sat sus : Bool) :
    (d.takeTap bin e t sat sus).calm = d.calm := by unfold Dev.takeTap; split <;> simp
@[simp] theorem Dev.keepTap_calm (d : Dev) (bin : Option Nat) (e : Nat) : (d.keepTap bin e).calm = d.calm := by
  simp [Dev.keepTap]
@[simp] theorem Dev.calElem_calm (c : CalData) (bin : Option Nat) (d : Dev) (e : Nat) :
    (d.calElem c bin e).calm = d.calm := by unfold Dev.calElem; split <;> simp
@[simp] theorem Dev.countSuspect_calm (d : Dev) : d.countSuspect.calm = d.calm := by simp [Dev.countSuspect]
@[simp] theorem Dev.journalFlash_calm (d : Dev) (type value : Nat) : (d.journalFlash type value).calm = d.calm := by
  simp [Dev.journalFlash]; split <;> simp
@[simp] theorem Dev.calDelays_calm (d : Dev) (c : CalData) (refresh : Bool) :
    (d.calDelays c refresh).calm = d.calm := by
  unfold Dev.calDelays
  extract_lets bin d1 src d2 qs
  have h1 : d1.calm = d.calm := Dev.calm_foldl (Dev.calElem c bin) _ d (fun d e => Dev.calElem_calm c bin d e)
  clear_value d1 bin
  have h2 : d2.calm = d.calm := (Dev.countSuspect_calm _).trans (by simp [h1])
  clear_value d2
  cases bin with
  | none => exact h2
  | some b => simp [h2]
@[simp] theorem Dev.calEnd_calm (d : Dev) (tj : Int) : (d.calEnd tj).calm = d.calm := by simp [Dev.calEnd]
@[simp] theorem Dev.countShadows_calm (d : Dev) : d.countShadows.calm = d.calm := by simp [Dev.countShadows]
@[simp] theorem Dev.openShadow_calm (d : Dev) (x : Shadow) : (d.openShadow x).calm = d.calm := by
  simp [Dev.openShadow]
@[simp] theorem Dev.closeShadows_calm (d : Dev) : d.closeShadows.calm = d.calm := by simp [Dev.closeShadows]
@[simp] theorem Dev.endShadow_calm (d : Dev) (b : ResetBlock) : (d.endShadow b).calm = d.calm := by
  simp [Dev.endShadow]
@[simp] theorem Dev.laneFlag_calm (d : Dev) (f : Field) (l : Nat) : (d.laneFlag f l).calm = d.calm := by
  simp [Dev.laneFlag]
@[simp] theorem Dev.planMigration_calm (l : Nat) (d : Dev) (t : Nat) : (d.planMigration l t).calm = d.calm := by
  simp [Dev.planMigration]; split <;> simp
@[simp] theorem Dev.planReaction_calm (d : Dev) (l : Nat) : (d.planReaction l).calm = d.calm := by
  simp [Dev.planReaction]
@[simp] theorem Dev.laneOverrun_calm (d : Dev) (l : Nat) : (d.laneOverrun l).calm = d.calm := by
  simp [Dev.laneOverrun]; split <;> simp
@[simp] theorem Dev.deadlineMiss_calm (d : Dev) (n l dir stage : Nat) (abandon migrate : Bool) :
    (d.deadlineMiss n l dir stage abandon migrate).calm = d.calm := by
  simp [Dev.deadlineMiss]
@[simp] theorem Dev.migBusy_calm (d : Dev) : d.migBusy.calm = d.calm := by simp [Dev.migBusy]
@[simp] theorem Dev.settleMoves_calm (d : Dev) : d.settleMoves.calm = d.calm := by
  simp [Dev.settleMoves]; split <;> simp
@[simp] theorem Dev.chooseFrame_calm (d : Dev) (m : Move) : (d.chooseFrame m).calm = d.calm := by
  simp [Dev.chooseFrame]
@[simp] theorem Dev.startMoves_calm (d : Dev) (b : Nat) : (d.startMoves b).calm = d.calm := by
  simp [Dev.startMoves]
@[simp] theorem Dev.moveSwitch_calm (d : Dev) (n : Nat) : (d.moveSwitch n).calm = d.calm := by
  simp [Dev.moveSwitch]
@[simp] theorem Dev.beginChange_calm (d : Dev) (c : ProgChange) : (d.beginChange c).calm = d.calm := by
  simp [Dev.beginChange]
@[simp] theorem Dev.beginHeld_calm (d : Dev) : d.beginHeld.calm = d.calm := by unfold Dev.beginHeld; split <;> simp
@[simp] theorem Dev.copyDone_calm (d : Dev) (m : Move) : (d.copyDone m).calm = d.calm := by
  simp [Dev.copyDone]
@[simp] theorem Dev.endCopies_calm (d : Dev) : d.endCopies.calm = d.calm := by simp [Dev.endCopies]
@[simp] theorem Dev.laneResetEnd_calm (d : Dev) (l : Nat) : (d.laneResetEnd l).calm = d.calm := by
  simp [Dev.laneResetEnd]
@[simp] theorem Dev.planEngine_calm (d : Dev) (n x : Nat) : (d.planEngine n x).calm = d.calm := by
  simp [Dev.planEngine]
@[simp] theorem Dev.sortEngines_calm (d : Dev) : (d.sortEngines).calm = d.calm := by
  unfold Dev.sortEngines
  split
  · rfl
  · exact Dev.calm_foldl _ _ _ (fun d n => by dsimp only; split <;> simp)
@[simp] theorem Dev.takeEngine_calm (d : Dev) (n : Nat) :
    (d.takeEngine n).calm = d.calm := by unfold Dev.takeEngine; split <;> simp
@[simp] theorem Dev.sortReplace_calm (d : Dev) : d.sortReplace.calm = d.calm := by simp [Dev.sortReplace]
@[simp] theorem Dev.evict_calm (d : Dev) (l b : Nat) : (d.evict l b).calm = d.calm := by
  simp [Dev.evict]; split <;> simp
@[simp] theorem Dev.relieveEngine_calm (d : Dev) (e cap : Nat) : (d.relieveEngine e cap).calm = d.calm := by
  simp [Dev.relieveEngine]; split <;> simp
@[simp] theorem Dev.relieveBank_calm (d : Dev) (b : Nat) : (d.relieveBank b).calm = d.calm := by
  simp [Dev.relieveBank]
@[simp] theorem Dev.applyPin_calm (d : Dev) (b n : Nat) (p : PinReq) : (d.applyPin b n p).calm = d.calm := by
  simp [Dev.applyPin]
@[simp] theorem Dev.applyTribPin_calm (d : Dev) (t : Nat) (p : TribPin) : (d.applyTribPin t p).calm = d.calm := by
  simp [Dev.applyTribPin]
@[simp] theorem Dev.applyPins_calm (d : Dev) (b : Nat) : (d.applyPins b).calm = d.calm := by
  unfold Dev.applyPins
  extract_lets keep src d0 d1 d2 engs banks d3 src3 d4 lanes
  have h1 : d1.calm = d.calm := by
    refine (Dev.calm_foldl _ _ d0 ?_).trans (by simp [d0])
    intro d e
    split <;> simp
  have h2 : d2.calm = d.calm := by
    refine (Dev.calm_foldl _ _ d1 ?_).trans h1
    intro d e
    split <;> simp
  have h4 : d4.calm = d.calm := by simp [d4, d3, h2]
  simp [h4]
@[simp] theorem Dev.sortBoundary_calm (d : Dev) (b : Nat) : (d.sortBoundary b).calm = d.calm := by
  simp [Dev.sortBoundary]
@[simp] theorem Dev.placeLane_calm (d : Dev) (n : Nat) : (d.placeLane n).calm = d.calm := by
  simp [Dev.placeLane]; split <;> simp
@[simp] theorem Dev.placeEngine_calm (d : Dev) (n : Nat) : (d.placeEngine n).calm = d.calm := by
  simp [Dev.placeEngine]; split <;> simp
@[simp] theorem Dev.placeBanks_calm (d : Dev) (n : Nat) : (d.placeBanks n).calm = d.calm := by
  simp [Dev.placeBanks]
@[simp] theorem Dev.writePlace_calm (d : Dev) (n v : Nat) : (d.writePlace n v).calm = d.calm := by
  simp [Dev.writePlace]
@[simp] theorem Dev.writeTribPlace_calm (d : Dev) (t v : Nat) : (d.writeTribPlace t v).calm = d.calm := by
  simp [Dev.writeTribPlace]
@[simp] theorem Dev.changeDone_calm (d : Dev) (c : ProgChange) : (d.changeDone c).calm = d.calm := by
  simp [Dev.changeDone]
@[simp] theorem Dev.applyProg_calm (d : Dev) (p : Nat) : (d.applyProg p).calm = d.calm := by
  simp [Dev.applyProg]
@[simp] theorem Dev.afterWalk_calm (d : Dev) (c : ProgChange) : (d.afterWalk c).calm = d.calm := by
  simp [Dev.afterWalk]
@[simp] theorem Dev.walkStep_calm (d : Dev) (c : ProgChange) :
    (d.walkStep c).calm = d.calm := by unfold Dev.walkStep; split <;> simp
@[simp] theorem Dev.avsFail_calm (d : Dev) (c : ProgChange) : (d.avsFail c).calm = d.calm := by
  simp [Dev.avsFail]
@[simp] theorem Dev.bootRecord_calm (d : Dev) (step : Nat) : (d.bootRecord step).calm = d.calm := by
  simp [Dev.bootRecord]
@[simp] theorem Dev.bootProg_calm (d : Dev) (c : ProgChange) (ok : Bool) : (d.bootProg c ok).calm = d.calm := by
  simp [Dev.bootProg]
@[simp] theorem Dev.modPair_calm (d : Dev) (f : PairSt → PairSt) : (d.modPair f).calm = d.calm := by
  simp [Dev.modPair]
@[simp] theorem Dev.mateSend_calm (d : Dev) (type : Nat) (payload : List Nat) :
    (d.mateSend type payload).calm = d.calm := by
  simp [Dev.mateSend]
@[simp] theorem Dev.setTrk_calm (d : Dev) (l : Nat) (x : TrkRef) : (d.setTrk l x).calm = d.calm := by
  simp [Dev.setTrk]
@[simp] theorem Dev.setEntry_calm (d : Dev) (e : Nat) (x : EntrySt) : (d.setEntry e x).calm = d.calm := by
  simp [Dev.setEntry]
@[simp] theorem Dev.judgeEntry_calm (d : Dev) (e : Nat) : (d.judgeEntry e).calm = d.calm := by
  simp [Dev.judgeEntry]
@[simp] theorem Dev.timingEvent_calm (d : Dev) : d.timingEvent.calm = d.calm := by simp [Dev.timingEvent]
@[simp] theorem Dev.loseLock_calm (d : Dev) :
    d.loseLock.1.calm = d.calm := by unfold Dev.loseLock; dsimp only; split <;> (try split) <;> simp
@[simp] theorem Dev.reselect_calm (d : Dev) :
    d.reselect.calm = d.calm := by unfold Dev.reselect; dsimp only; (repeat' split) <;> simp
@[simp] theorem Dev.showEntries_calm (d : Dev) : d.showEntries.calm = d.calm := by simp [Dev.showEntries]
@[simp] theorem Dev.timingUpdate_calm (d : Dev) : d.timingUpdate.calm = d.calm := by simp [Dev.timingUpdate]
@[simp] theorem Dev.takeSources_calm (d : Dev) : d.takeSources.calm = d.calm := by simp [Dev.takeSources]
@[simp] theorem Dev.phaseSample_calm (d : Dev) (ref : Nat) : (d.phaseSample ref).calm = d.calm := by
  simp [Dev.phaseSample]
@[simp] theorem Dev.sampleIf_calm (d : Dev) (kind lane ref : Nat) :
    (d.sampleIf kind lane ref).calm = d.calm := by unfold Dev.sampleIf; split <;> simp
@[simp] theorem Dev.fsyncPeriod_calm (d : Dev) (good : Bool) : (d.fsyncPeriod good).calm = d.calm := by
  simp [Dev.fsyncPeriod]
@[simp] theorem Dev.fsyncEdge_calm (d : Dev) (t : Nat) :
    (d.fsyncEdge t).calm = d.calm := by unfold Dev.fsyncEdge; split <;> simp
@[simp] theorem Dev.fsyncTimeout_calm (d : Dev) :
    d.fsyncTimeout.calm = d.calm := by unfold Dev.fsyncTimeout; split <;> simp
@[simp] theorem Dev.trunkFaw_calm (d : Dev) (l t : Nat) : (d.trunkFaw l t).calm = d.calm := by
  simp [Dev.trunkFaw]; split <;> simp
@[simp] theorem Dev.trunkAligned_calm (d : Dev) (l : Nat) (b : Bool) : (d.trunkAligned l b).calm = d.calm := by
  simp [Dev.trunkAligned]
@[simp] theorem Dev.setSlip_calm (d : Dev) (k : Nat) (x : SlipSt) : (d.setSlip k x).calm = d.calm := by
  simp [Dev.setSlip]
@[simp] theorem Dev.slipRestart_calm (d : Dev) (k : Nat) : (d.slipRestart k).calm = d.calm := by
  simp [Dev.slipRestart]
@[simp] theorem Dev.alignJump_calm (d : Dev) (ref : Nat) : (d.alignJump ref).calm = d.calm := by
  simp [Dev.alignJump]
@[simp] theorem Dev.setMaster_calm (d : Dev) (m : Nat) (x : MasterSt) : (d.setMaster m x).calm = d.calm := by
  simp [Dev.setMaster]
@[simp] theorem Dev.spiKick_calm (d : Dev) (m : Nat) : (d.spiKick m).calm = d.calm := by
  simp [Dev.spiKick]; split <;> simp
@[simp] theorem Dev.spiQueue_calm (d : Dev) (j : SpiJob) : (d.spiQueue j).calm = d.calm := by
  simp [Dev.spiQueue]
@[simp] theorem Dev.setLink_calm (d : Dev) (k : Nat) (x : LinkSt) : (d.setLink k x).calm = d.calm := by
  simp [Dev.setLink]
@[simp] theorem Dev.showLink_calm (d : Dev) (k : Nat) :
    (d.showLink k).calm = d.calm := by unfold Dev.showLink; split <;> simp
@[simp] theorem Dev.linkSync_calm (d : Dev) (k : Nat) : (d.linkSync k).calm = d.calm := by simp [Dev.linkSync]
@[simp] theorem Dev.linkEvent_calm (d : Dev) (k bit : Nat) :
    (d.linkEvent k bit).calm = d.calm := by unfold Dev.linkEvent; split <;> simp
@[simp] theorem Dev.linkFault_calm (d : Dev) (k loc : Nat) :
    (d.linkFault k loc).calm = d.calm := by unfold Dev.linkFault; split <;> simp
@[simp] theorem Dev.showFE_calm (d : Dev) (k : Nat) : (d.showFE k).calm = d.calm := by unfold Dev.showFE; split <;> simp
@[simp] theorem Dev.followEnables_calm (d : Dev) : d.followEnables.calm = d.calm := by
  simp [Dev.followEnables]
@[simp] theorem Dev.linkUp_calm (d : Dev) (k : Nat) : (d.linkUp k).calm = d.calm := by simp [Dev.linkUp]
@[simp] theorem Dev.setRinse_calm (d : Dev) (n : Nat) (x : RinseSt) : (d.setRinse n x).calm = d.calm := by
  simp [Dev.setRinse]
@[simp] theorem Dev.gainFail_calm (d : Dev) (n cause : Nat) : (d.gainFail n cause).calm = d.calm := by
  simp [Dev.gainFail]
@[simp] theorem Dev.gainStart_calm (d : Dev) (n code : Nat) : (d.gainStart n code).calm = d.calm := by
  simp [Dev.gainStart]
@[simp] theorem Dev.gainByte_calm (d : Dev) (n code : Nat) :
    (d.gainByte n code).calm = d.calm := by unfold Dev.gainByte; split <;> simp
@[simp] theorem Dev.gainNext_calm (d : Dev) (n : Nat) (newest : Option Nat) :
    (d.gainNext n newest).calm = d.calm := by unfold Dev.gainNext; split <;> simp
@[simp] theorem Dev.gainOk_calm (d : Dev) (n : Nat) (g : GainJob) : (d.gainOk n g).calm = d.calm := by
  simp [Dev.gainOk]
@[simp] theorem Dev.rinseCounts_calm (d : Dev) (n overs : Nat) (filled alarm : Bool) :
    (d.rinseCounts n overs filled alarm).calm = d.calm := by
  simp [Dev.rinseCounts]
@[simp] theorem Dev.rinseMfEnd_calm (d : Dev) (n : Nat) : (d.rinseMfEnd n).calm = d.calm := by
  simp [Dev.rinseMfEnd]
@[simp] theorem Dev.showLevel_calm (d : Dev) (n pow : Nat) : (d.showLevel n pow).calm = d.calm := by
  simp [Dev.showLevel]
@[simp] theorem Dev.laneLoss_calm (d : Dev) (why : LinkLoss) : (d.laneLoss why).calm = d.calm := by
  cases why <;> simp [Dev.laneLoss]
@[simp] theorem Dev.pauseGain_calm (d : Dev) (m : Nat) (held : Bool) : (d.pauseGain m held).calm = d.calm := by
  unfold Dev.pauseGain
  exact Dev.calm_foldl _ _ _ (fun d n => by cases h : (d.rinse n).gain <;> simp)
@[simp] theorem Dev.releaseHold_calm (d : Dev) (m : Nat) : (d.releaseHold m).calm = d.calm := by
  simp [Dev.releaseHold]
@[simp] theorem Dev.setStn_calm (d : Dev) (n s : Nat) (x : StnRx) : (d.setStn n s x).calm = d.calm := by
  simp [Dev.setStn]
@[simp] theorem Dev.modStn_calm (d : Dev) (n s : Nat) (f : StnRx → StnRx) : (d.modStn n s f).calm = d.calm := by
  simp [Dev.modStn]
@[simp] theorem Dev.formWindows_calm (d : Dev) (n : Nat) : (d.formWindows n).calm = d.calm := by
  simp [Dev.formWindows]
@[simp] theorem Dev.setEngine_calm (d : Dev) (e : Nat) (x : EngineSt) : (d.setEngine e x).calm = d.calm := by
  simp [Dev.setEngine]
@[simp] theorem Dev.modEngine_calm (d : Dev) (e : Nat) (f : EngineSt → EngineSt) : (d.modEngine e f).calm = d.calm := by
  simp [Dev.modEngine]
@[simp] theorem Dev.hook_calm (d : Dev) (e : Nat) (ev : HookEv) :
    (d.hook e ev).calm = d.calm := by unfold Dev.hook; split <;> simp
@[simp] theorem Dev.portHook_calm (d : Dev) (n : Nat) (ev : HookEv) : (d.portHook n ev).calm = d.calm := by
  simp [Dev.portHook]
@[simp] theorem Dev.labelHook_calm (d : Dev) (n s cause trib value : Nat) :
    (d.labelHook n s cause trib value).calm = d.calm := by
  simp [Dev.labelHook]
@[simp] theorem Dev.pmAddTo_calm (d : Dev) (n i k : Nat) (now : Bool) : (d.pmAddTo n i k now).calm = d.calm := by
  simp [Dev.pmAddTo]
@[simp] theorem Dev.pmAdd_calm (d : Dev) (n i k ref : Nat) : (d.pmAdd n i k ref).calm = d.calm := by
  simp [Dev.pmAdd]
@[simp] theorem Dev.pmBack_calm (d : Dev) (n i : Nat) : (d.pmBack n i).calm = d.calm := by simp [Dev.pmBack]
@[simp] theorem Dev.pmClassify_calm (d : Dev) (n : Nat) (old new : PmSec) : (d.pmClassify n old new).calm = d.calm := by
  simp [Dev.pmClassify]
@[simp] theorem Dev.pmMark_calm (d : Dev) (n ref : Nat) (f : PmSec → PmSec) :
    (d.pmMark n ref f).calm = d.calm := by unfold Dev.pmMark; split <;> simp
@[simp] theorem Dev.judgeFailure_calm (d : Dev) (n : Nat) : (d.judgeFailure n).calm = d.calm := by
  simp [Dev.judgeFailure]
@[simp] theorem Dev.fallbackCause_calm (d : Dev) (n : Nat) : (d.fallbackCause n).calm = d.calm := by
  simp [Dev.fallbackCause]
@[simp] theorem Dev.countLof_calm (d : Dev) (n : Nat) : (d.countLof n).calm = d.calm := by simp [Dev.countLof]
@[simp] theorem Dev.portDown_calm (d : Dev) (n : Nat) : (d.portDown n).calm = d.calm := by simp [Dev.portDown]
@[simp] theorem Dev.judgeService_calm (d : Dev) (n : Nat) : (d.judgeService n).calm = d.calm := by
  simp [Dev.judgeService]
@[simp] theorem Dev.defectState_calm (d : Dev) (n b : Nat) (declared : Bool) :
    (d.defectState n b declared).calm = d.calm := by
  simp [Dev.defectState]
@[simp] theorem Dev.judgeShared_calm (d : Dev) (n : Nat) : (d.judgeShared n).calm = d.calm := by
  simp [Dev.judgeShared]
@[simp] theorem Dev.setDefect_calm (d : Dev) (n s b : Nat) (v : Bool) : (d.setDefect n s b v).calm = d.calm := by
  simp [Dev.setDefect]
@[simp] theorem Dev.setLos_calm (d : Dev) (n : Nat) (v : Bool) : (d.setLos n v).calm = d.calm := by
  simp [Dev.setLos]
@[simp] theorem Dev.clearFreezing_calm (d : Dev) (n s b : Nat) : (d.clearFreezing n s b).calm = d.calm := by
  simp [Dev.clearFreezing]
@[simp] theorem Dev.windowEnd_calm (d : Dev) (n s b : Nat) : (d.windowEnd n s b).calm = d.calm := by
  simp [Dev.windowEnd]
@[simp] theorem Dev.windowCount_calm (d : Dev) (n s b : Nat) (errored : Bool) :
    (d.windowCount n s b errored).calm = d.calm := by
  simp [Dev.windowCount]
@[simp] theorem Dev.crcResult_calm (d : Dev) (n s ref : Nat) (r : CrcRes) :
    (d.crcResult n s ref r).calm = d.calm := by unfold Dev.crcResult; split <;> simp
@[simp] theorem Dev.restartWindows_calm (d : Dev) (n : Nat) : (d.restartWindows n).calm = d.calm := by
  simp [Dev.restartWindows]
@[simp] theorem Dev.judgePortLabel_calm (d : Dev) (n s : Nat) : (d.judgePortLabel n s).calm = d.calm := by
  simp [Dev.judgePortLabel]; split <;> simp
@[simp] theorem Dev.setTribDefect_calm (d : Dev) (t : Nat) (p u : Bool) : (d.setTribDefect t p u).calm = d.calm := by
  simp [Dev.setTribDefect]
@[simp] theorem Dev.judgeTribLabel_calm (d : Dev) (t : Nat) : (d.judgeTribLabel t).calm = d.calm := by
  simp [Dev.judgeTribLabel]
@[simp] theorem Dev.judgeTim_calm (d : Dev) (n s : Nat) : (d.judgeTim n s).calm = d.calm := by
  simp [Dev.judgeTim]
@[simp] theorem Dev.judgeAll_calm (d : Dev) (n s : Nat) : (d.judgeAll n s).calm = d.calm := by
  simp [Dev.judgeAll]
@[simp] theorem Dev.preWarn_calm (d : Dev) (n errs bits : Nat) : (d.preWarn n errs bits).calm = d.calm := by
  simp [Dev.preWarn]
@[simp] theorem Dev.portUp_calm (d : Dev) (n : Nat) : (d.portUp n).calm = d.calm := by simp [Dev.portUp]
@[simp] theorem Dev.recheckLabels_calm (d : Dev) (n : Nat) : (d.recheckLabels n).calm = d.calm := by
  simp [Dev.recheckLabels]
@[simp] theorem Dev.modLab_calm (d : Dev) (n s : Nat) (f : LabelSt → LabelSt) : (d.modLab n s f).calm = d.calm := by
  simp [Dev.modLab]
@[simp] theorem Dev.hemEvent_calm (n s ref : Nat) (d : Dev) (e : HemEv) : (Dev.hemEvent n s ref d e).calm = d.calm := by
  cases e <;> simp [Dev.hemEvent]
@[simp] theorem Dev.labelRdi_calm (d : Dev) (n s : Nat) (rdi : Bool) : (d.labelRdi n s rdi).calm = d.calm := by
  simp [Dev.labelRdi]
@[simp] theorem Dev.labelAis_calm (d : Dev) (n s : Nat) (c : MfCapture) : (d.labelAis n s c).calm = d.calm := by
  simp [Dev.labelAis]
@[simp] theorem Dev.commitSig_calm (d : Dev) (n s : Nat) (c : MfCapture) (good : Bool) :
    (d.commitSig n s c good).calm = d.calm := by
  simp [Dev.commitSig]
@[simp] theorem Dev.takePortLabel_calm (d : Dev) (n s v : Nat) : (d.takePortLabel n s v).calm = d.calm := by
  simp [Dev.takePortLabel]
@[simp] theorem Dev.takeTribLabel_calm (d : Dev) (n s k v : Nat) : (d.takeTribLabel n s k v).calm = d.calm := by
  simp [Dev.takeTribLabel]
@[simp] theorem Dev.takeTrace_calm (d : Dev) (n s : Nat) (b : Option (Bool × Nat)) :
    (d.takeTrace n s b).calm = d.calm := by
  simp [Dev.takeTrace]
@[simp] theorem Dev.takeStatus_calm (d : Dev) (n s v : Nat) : (d.takeStatus n s v).calm = d.calm := by
  simp [Dev.takeStatus]
@[simp] theorem Dev.takeF9_calm (d : Dev) (n s v : Nat) : (d.takeF9 n s v).calm = d.calm := by
  simp [Dev.takeF9]
@[simp] theorem Dev.takeF7_calm (d : Dev) (n ref v : Nat) : (d.takeF7 n ref v).calm = d.calm := by
  simp [Dev.takeF7]
@[simp] theorem Dev.mfReady_calm (d : Dev) (n s ref : Nat) (c : MfCapture) (r : CrcRes) :
    (d.mfReady n s ref c r).calm = d.calm := by unfold Dev.mfReady; split <;> simp
@[simp] theorem Dev.mfComplete_calm (d : Dev) (n s : Nat) (c : MfCapture) : (d.mfComplete n s c).calm = d.calm := by
  simp [Dev.mfComplete]
@[simp] theorem Dev.labelEnds_calm (d : Dev) (n s : Nat) (fa : Bool) : (d.labelEnds n s fa).calm = d.calm := by
  simp [Dev.labelEnds]
@[simp] theorem Dev.labelCloses_calm (d : Dev) (n s ref : Nat) (o : HemOut) :
    (d.labelCloses n s ref o).calm = d.calm := by unfold Dev.labelCloses; split <;> simp
@[simp] theorem Dev.labelFrame_calm (d : Dev) (n s ref : Nat) (o : HemOut) :
    (d.labelFrame n s ref o).calm = d.calm := by
  cases h0 : o.ends <;> cases h1 : o.oh0 <;> cases h2 : o.fidx <;> simp [Dev.labelFrame, h0, h1, h2]
@[simp] theorem Dev.labelSlip_calm (d : Dev) (n s : Nat) : (d.labelSlip n s).calm = d.calm := by
  simp [Dev.labelSlip]
@[simp] theorem Dev.hemFrame_calm (d : Dev) (n s ref masked : Nat) (bits : Option (List Bool)) :
    (d.hemFrame n s ref masked bits).1.calm = d.calm := by
  simp [Dev.hemFrame, Dev.hemEvent_calm]
@[simp] theorem Dev.dccDiscard_calm (d : Dev) (n : Nat) (m : List Nat) (cause : Nat) :
    (d.dccDiscard n m cause).calm = d.calm := by
  simp [Dev.dccDiscard]
@[simp] theorem Dev.dccRing_calm (d : Dev) (n s : Nat) (m : List Nat) : (d.dccRing n s m).calm = d.calm := by
  simp [Dev.dccRing]
@[simp] theorem Dev.dccAccept_calm (d : Dev) (n s : Nat) (m : List Nat) : (d.dccAccept n s m).calm = d.calm := by
  simp [Dev.dccAccept]
@[simp] theorem Dev.dccCheck_calm (d : Dev) (n s : Nat) (m : List Nat) (incomplete : Bool) :
    (d.dccCheck n s m incomplete).calm = d.calm := by
  simp [Dev.dccCheck]; split <;> simp
@[simp] theorem Dev.setPleat_calm (d : Dev) (p : Nat) (x : PleatSt) : (d.setPleat p x).calm = d.calm := by
  simp [Dev.setPleat]
@[simp] theorem Dev.setDesync_calm (d : Dev) (p : Nat) (x : DesyncSt) : (d.setDesync p x).calm = d.calm := by
  simp [Dev.setDesync]
@[simp] theorem Dev.pleatSlip_calm (d : Dev) (p : Nat) :
    (d.pleatSlip p).calm = d.calm := by unfold Dev.pleatSlip; split <;> simp
@[simp] theorem Dev.pleatWord_calm (d : Dev) (p w : Nat) : (d.pleatWord p w).calm = d.calm := by
  simp [Dev.pleatWord]
@[simp] theorem Dev.pleatAis_calm (d : Dev) (p : Nat) : (d.pleatAis p).calm = d.calm := by simp [Dev.pleatAis]
@[simp] theorem Dev.pleatTake_calm (d : Dev) (p : Nat) (just : Int) : (d.pleatTake p just).calm = d.calm := by
  simp [Dev.pleatTake]
@[simp] theorem Dev.pleatDecide_calm (d : Dev) (p : Nat) :
    (d.pleatDecide p).calm = d.calm := by unfold Dev.pleatDecide; split <;> simp
@[simp] theorem Dev.pleatBoundary_calm (d : Dev) : d.pleatBoundary.calm = d.calm := by
  simp [Dev.pleatBoundary]
@[simp] theorem Dev.showDesync_calm (d : Dev) (p : Nat) :
    (d.showDesync p).calm = d.calm := by unfold Dev.showDesync; split <;> simp
@[simp] theorem Dev.jcReceive_calm (d : Dev) (l p w : Nat) : (d.jcReceive l p w).calm = d.calm := by
  simp [Dev.jcReceive]
@[simp] theorem Dev.desyncWrite_calm (d : Dev) (p : Nat) (bits : List Bool) : (d.desyncWrite p bits).calm = d.calm := by
  simp [Dev.desyncWrite]
@[simp] theorem Dev.desyncWord_calm (d : Dev) (p f w : Nat) : (d.desyncWord p f w).calm = d.calm := by
  simp [Dev.desyncWord]
@[simp] theorem Dev.desyncRead_calm (d : Dev) (p : Nat) :
    (d.desyncRead p).2.calm = d.calm := by
  unfold Dev.desyncRead
  dsimp only
  split
  · simp
  · split <;> simp
@[simp] theorem Dev.tribLoop_calm (d : Dev) (n : Nat) : (d.tribLoop n).calm = d.calm := by simp [Dev.tribLoop]
@[simp] theorem Dev.setTrx_calm (d : Dev) (l : Nat) (x : TrunkRx) : (d.setTrx l x).calm = d.calm := by
  simp [Dev.setTrx]
@[simp] theorem Dev.modTrx_calm (d : Dev) (l : Nat) (f : TrunkRx → TrunkRx) : (d.modTrx l f).calm = d.calm := by
  simp [Dev.modTrx]
@[simp] theorem Dev.judgeTrunk_calm (d : Dev) (l : Nat) : (d.judgeTrunk l).calm = d.calm := by
  simp [Dev.judgeTrunk]
@[simp] theorem Dev.setTDefect_calm (d : Dev) (l b : Nat) (v : Bool) : (d.setTDefect l b v).calm = d.calm := by
  simp [Dev.setTDefect]
@[simp] theorem Dev.showAlign_calm (d : Dev) (l : Nat) : (d.showAlign l).calm = d.calm := by
  simp [Dev.showAlign]
@[simp] theorem Dev.trunkCut_calm (d : Dev) (l : Nat) : (d.trunkCut l).calm = d.calm := by simp [Dev.trunkCut]
@[simp] theorem Dev.trunkLoss_calm (d : Dev) (l : Nat) : (d.trunkLoss l).calm = d.calm := by
  simp [Dev.trunkLoss]
@[simp] theorem Dev.trunkRestart_calm (d : Dev) (l : Nat) : (d.trunkRestart l).calm = d.calm := by
  simp [Dev.trunkRestart]
@[simp] theorem Dev.trunkHunt_calm (d : Dev) (l : Nat) (faws : List (Nat × Nat × Bool)) :
    (d.trunkHunt l faws).calm = d.calm := by
  simp [Dev.trunkHunt]; split <;> simp
@[simp] theorem Dev.wrTrace_calm (d : Dev) (f : Field) (i : Nat) (t : List Nat) : (d.wrTrace f i t).calm = d.calm := by
  simp [Dev.wrTrace]
@[simp] theorem Dev.judgeTrunkLabels_calm (d : Dev) (l : Nat) : (d.judgeTrunkLabels l).calm = d.calm := by
  simp [Dev.judgeTrunkLabels]
@[simp] theorem Dev.trunkOverhead_calm (d : Dev) (l : Nat) (m : FMap Nat) : (d.trunkOverhead l m).calm = d.calm := by
  simp [Dev.trunkOverhead]
@[simp] theorem Dev.tsdWindow_calm (d : Dev) (l : Nat) : (d.tsdWindow l).calm = d.calm := by
  simp [Dev.tsdWindow]
@[simp] theorem Dev.tsdEnd_calm (d : Dev) (l : Nat) : (d.tsdEnd l).calm = d.calm := by simp [Dev.tsdEnd]
@[simp] theorem Dev.tsdCount_calm (d : Dev) (l : Nat) (bad : Bool) : (d.tsdCount l bad).calm = d.calm := by
  simp [Dev.tsdCount]
@[simp] theorem Dev.trunkSigs_calm (d : Dev) (l : Nat) (good : Bool) : (d.trunkSigs l good).calm = d.calm := by
  simp [Dev.trunkSigs]
@[simp] theorem Dev.trunkMfEnd_calm (d : Dev) (l : Nat) (w3 : Nat) : (d.trunkMfEnd l w3).calm = d.calm := by
  simp [Dev.trunkMfEnd]; split <;> simp
@[simp] theorem Dev.trunkJc_calm (d : Dev) (l f : Nat) (words : List Nat) : (d.trunkJc l f words).calm = d.calm := by
  simp [Dev.trunkJc]
@[simp] theorem Dev.trunkContent_calm (d : Dev) (l f : Nat) (raw : List Nat) (last : Nat) :
    (d.trunkContent l f raw last).calm = d.calm := by
  simp [Dev.trunkContent]
@[simp] theorem Dev.trunkTrack_calm (d : Dev) (l : Nat) (ws : List Nat) (first last : Nat) :
    (d.trunkTrack l ws first last).calm = d.calm := by
  unfold Dev.trunkTrack
  extract_lets fawOk x bad d0 held other ais aisRun noAis src d1 d2 d3 w2 y next e4 f ok k src4 d4 found
  have h0 : d0.calm = d.calm := by simp [d0]
  clear_value d0
  have h1 : d1.calm = d.calm := by simp [d1, h0]
  clear_value d1
  have h2 : d2.calm = d.calm := by simp [d2, h1]
  clear_value d2
  have h3 : d3.calm = d.calm := by simp [d3, h2]
  clear_value d3
  have he : e4.calm = d.calm := by simp [e4, h3]
  clear_value e4
  have h4 : d4.calm = d.calm := by simp [d4, h3]
  clear_value d4
  have hf : ∀ d y f, (found d y f).calm = d.calm := fun d y f => by simp [found]
  clear_value found
  split
  · simp [h0]
  split
  · split
    · split <;> simp [he]
    · exact he
  split
  · split
    · split <;> simp [h4]
    · simp [h3]
  split
  · split <;> simp [hf, h3]
  · split
    · dsimp only; split <;> split <;> simp [hf, h3]
    · simp [h3]
@[simp] theorem Dev.trunkReceive_calm (d : Dev) (l : Nat) (ws : List Nat) : (d.trunkReceive l ws).calm = d.calm := by
  simp [Dev.trunkReceive]; split <;> simp
@[simp] theorem Dev.pleatHit_calm (d : Dev) (l : Nat) : (d.pleatHit l).calm = d.calm := by simp [Dev.pleatHit]
@[simp] theorem Dev.trunkSlip_calm (d : Dev) (l : Nat) :
    (d.trunkSlip l).calm = d.calm := by
  unfold Dev.trunkSlip
  dsimp only
  split
  · simp
  · split <;> simp
@[simp] theorem Dev.trunkEnable_calm (d : Dev) (l : Nat) (was : Bool) : (d.trunkEnable l was).calm = d.calm := by
  simp [Dev.trunkEnable]
@[simp] theorem Dev.protSwitch_calm (d : Dev) (f : Field) (inst idx : Nat) (changed : Bool) :
    (d.protSwitch f inst idx changed).calm = d.calm := by
  simp [Dev.protSwitch]
@[simp] theorem Dev.showGroup_calm (d : Dev) (n : Nat) : (d.showGroup n).calm = d.calm := by
  simp [Dev.showGroup]
@[simp] theorem Dev.evalGroup_calm (d : Dev) (n : Nat) : (d.evalGroup n).calm = d.calm := by
  simp [Dev.evalGroup]
@[simp] theorem Dev.evalPair_calm (d : Dev) (p : Nat) : (d.evalPair p).calm = d.calm := by simp [Dev.evalPair]
@[simp] theorem Dev.evalEntry_calm (d : Dev) (c : Conn) :
    (d.evalEntry c).calm = d.calm := by unfold Dev.evalEntry; split <;> simp
@[simp] theorem Dev.dropMs_calm (d : Dev) (c : Conn) :
    (d.dropMs c).calm = d.calm := by unfold Dev.dropMs; split <;> simp
@[simp] theorem Dev.evalEntries_calm (d : Dev) : d.evalEntries.calm = d.calm := by simp [Dev.evalEntries]
@[simp] theorem Dev.modSel_calm (d : Dev) (f : SelSt → SelSt) (r : SelRef) : (d.modSel f r).calm = d.calm := by
  cases r <;> simp [Dev.modSel]
@[simp] theorem Dev.dropSelectors_calm (d : Dev) : d.dropSelectors.calm = d.calm := by
  simp [Dev.dropSelectors]
@[simp] theorem Dev.dropGroups_calm (d : Dev) : d.dropGroups.calm = d.calm := by simp [Dev.dropGroups]
@[simp] theorem Dev.protWrite_calm (d : Dev) (r : ProtRef) (value : Nat) : (d.protWrite r value).calm = d.calm := by
  simp [Dev.protWrite]
@[simp] theorem Dev.apsReceive_calm (d : Dev) (n f4 f5 : Nat) : (d.apsReceive n f4 f5).calm = d.calm := by
  simp [Dev.apsReceive]
@[simp] theorem Dev.showQuery_calm (d : Dev) : d.showQuery.calm = d.calm := by simp [Dev.showQuery]
@[simp] theorem Dev.modHamper_calm (d : Dev) (f : HamperSt → HamperSt) :
    (d.modHamper f).calm = (d.mode, (f d.hamper).mem) := by
  simp [Dev.modHamper]
@[simp] theorem Dev.setStream_calm (d : Dev) (k : Nat) (x : Option RecStream) : (d.setStream k x).calm = d.calm := by
  simp [Dev.setStream]
@[simp] theorem Dev.setRank_calm (d : Dev) (r : Nat) (x : RankSt) : (d.setRank r x).calm = d.calm := by
  simp [Dev.setRank]
@[simp] theorem Dev.recPlace_calm (d : Dev) (k : Nat) :
    (d.recPlace k).2.calm = d.calm := by
  unfold Dev.recPlace
  dsimp only
  split
  · simp
  · split <;> simp
@[simp] theorem Dev.showStream_calm (d : Dev) (k : Nat) (active : Bool) : (d.showStream k active).calm = d.calm := by
  simp [Dev.showStream]
@[simp] theorem Dev.recStep_calm (d : Dev) (k : Nat) : (d.recStep k).calm = d.calm := by
  simp [Dev.recStep]; split <;> simp
@[simp] theorem Dev.recUnrefuse_calm (d : Dev) (t : Nat) : (d.recUnrefuse t).calm = d.calm := by
  simp [Dev.recUnrefuse]
@[simp] theorem Dev.openStripe_calm (start : Nat) (d : Dev) (r : Nat) : (d.openStripe start r).calm = d.calm := by
  simp [Dev.openStripe]
@[simp] theorem Dev.recTap_calm (d : Dev) (k j word kind : Nat) (held sub failed : Bool) :
    (d.recTap k j word kind held sub failed).calm = d.calm := by unfold Dev.recTap; split <;> simp
@[simp] theorem Dev.extractOne_calm (x : Extract) (ue : List Nat) (acc : Dev × ExtractSum) (p : Period) :
    (Dev.extractOne x ue acc p).1.calm = acc.1.calm := by
  obtain ⟨d, r⟩ := acc
  simp only [Dev.extractOne]
  split
  · (repeat' split) <;> simp
  · rfl
  · rfl
  · rfl
@[simp] theorem Dev.dlyWrite_calm (d : Dev) (e v : Nat) : (d.dlyWrite e v).calm = d.calm := by
  simp [Dev.dlyWrite]
@[simp] theorem Dev.dlyEnter_calm (d : Dev) (e : Nat) : (d.dlyEnter e).calm = d.calm := by simp [Dev.dlyEnter]
@[simp] theorem Dev.dlyStep_calm (d : Dev) (e j word kind sig : Nat) :
    (d.dlyStep e j word kind sig).2.2.2.calm = d.calm := by
  unfold Dev.dlyStep
  dsimp only
  split <;> simp
@[simp] theorem Dev.showPlays_calm (d : Dev) : d.showPlays.calm = d.calm := by simp [Dev.showPlays]
@[simp] theorem Dev.setPlay_calm (d : Dev) (ch : Nat) (p : Option Play) : (d.setPlay ch p).calm = d.calm := by
  simp [Dev.setPlay]
@[simp] theorem Dev.playTake_calm (d : Dev) (r : PlayReq) : (d.playTake r).calm = d.calm := by
  simp [Dev.playTake]
@[simp] theorem Dev.playsDue_calm (d : Dev) (walk : Nat) : (d.playsDue walk).calm = d.calm := by
  simp [Dev.playsDue]
@[simp] theorem Dev.playsStep_calm (d : Dev) : d.playsStep.calm = d.calm := by simp [Dev.playsStep]
@[simp] theorem Dev.modMangle_calm (d : Dev) (f : MangleSt → MangleSt) : (d.modMangle f).calm = d.calm := by
  simp [Dev.modMangle]
@[simp] theorem Dev.cmDrop_calm (d : Dev) : d.cmDrop.calm = d.calm := by simp [Dev.cmDrop]
@[simp] theorem Dev.showEntries'_calm (d : Dev) : d.showEntries'.calm = d.calm := by simp [Dev.showEntries']
@[simp] theorem Dev.cmCommit_calm (d : Dev) (g i v : Nat) : (d.cmCommit g i v).calm = d.calm := by
  simp [Dev.cmCommit]
@[simp] theorem Dev.cmHalf_calm (d : Dev) (g i : Nat) (high : Bool) (v : Nat) :
    (d.cmHalf g i high v).calm = d.calm := by
  have hput : ∀ (d1 : Dev) (x : Staging), d1.calm = d.calm → (match x.lo, x.hi with
      | some lo, some hi => ({ d1 with host := { d1.host with staging := none } }).cmCommit g i (lo + hi * 2 ^ 32)
      | _, _ => { d1 with host := { d1.host with staging := some x } }).calm = d.calm := fun d1 x h => by
    split <;> simp [h]
  unfold Dev.cmHalf
  dsimp only
  split
  · simp
  · apply hput
    cases d.host.staging with
    | none => rfl
    | some x => dsimp only; split <;> simp
@[simp] theorem Dev.swapDone_calm (d : Dev) (x : SwapSt) : (d.swapDone x).calm = d.calm := by
  simp [Dev.swapDone]
@[simp] theorem Dev.carrySelectors_calm (d : Dev) (old new : Nat) : (d.carrySelectors old new).calm = d.calm := by
  simp [Dev.carrySelectors]
@[simp] theorem Dev.swapPoint_calm (d : Dev) (walk : Nat) :
    (d.swapPoint walk).calm = d.calm := by unfold Dev.swapPoint; split <;> simp
@[simp] theorem Dev.copyPage_calm (d : Dev) : d.copyPage.calm = d.calm := by simp [Dev.copyPage]
@[simp] theorem Dev.putDue_calm (d : Dev) (k b : Nat) (words failed : List Nat) :
    (d.putDue k b words failed).calm = d.calm := by
  simp [Dev.putDue]
@[simp] theorem Dev.takeDue_calm (d : Dev) (b : Nat) : (d.takeDue b).1.calm = d.calm := by
  unfold Dev.takeDue
  exact (Dev.calm_fst_foldl _ _ _ (fun a e => by dsimp only; split <;> simp))
@[simp] theorem Dev.connBad_calm (d : Dev) (c : Conn) (cause : Nat) : (d.connBad c cause).calm = d.calm := by
  simp [Dev.connBad]
@[simp] theorem Dev.prbsCheck_calm (d : Dev) (c : Nat) (w : SrcWord) : (d.prbsCheck c w).calm = d.calm := by
  simp [Dev.prbsCheck]
@[simp] theorem Dev.connWord_calm (d : Dev) (w : Walk) (c : Conn) (cause : Option Nat) :
    (d.connWord w c cause).1.calm = d.calm := by
  unfold Dev.connWord
  split
  · rfl
  · rfl
  · rfl
  · rfl
  · split
    · rfl
    · split <;> rfl
  · (repeat' split) <;> simp [Dev.dlyStep_calm]
  · rfl
  · rfl
@[simp] theorem Dev.walkEntry_calm (w : Walk) (acc : Dev × List Conn × FMap DestWord) (c : Conn) :
    (Dev.walkEntry w acc c).1.calm = acc.1.calm := by
  obtain ⟨d, before, out⟩ := acc
  cases h : d.connCause before c <;> simp [Dev.walkEntry, h, apply_ite Prod.fst, Dev.connWord_calm]
@[simp] theorem Dev.recTaps_calm (d : Dev) (w : Walk) : (d.recTaps w).calm = d.calm := by simp [Dev.recTaps]
@[simp] theorem Dev.takeTrunk_calm (d : Dev) (b : Nat) (l : Nat) : (d.takeTrunk b l).calm = d.calm := by
  simp [Dev.takeTrunk]; split <;> simp
@[simp] theorem Dev.walkLate_calm (d : Dev) (prev out : FMap DestWord) (late : List Nat) :
    (d.walkLate prev out late).1.calm = d.calm := by
  unfold Dev.walkLate
  split <;> simp
@[simp] theorem Dev.keepLine_calm (d : Dev) (b : Nat) (out : FMap DestWord) : (d.keepLine b out).calm = d.calm := by
  simp [Dev.keepLine]
@[simp] theorem Dev.walk_calm (d : Dev) (b ticks : Nat) (late : List Nat) : (d.walk b ticks late).calm = d.calm := by
  simp [Dev.walk, Dev.takeDue_calm, Dev.walkEntry_calm, Dev.walkLate_calm]
@[simp] theorem Dev.takeWalk_calm (d : Dev) (b : Nat) :
    (d.takeWalk b).calm = d.calm := by
  unfold Dev.takeWalk
  dsimp only
  split
  · simp
  · split <;> simp
@[simp] theorem Dev.pressBoundary_calm (d : Dev) (f : Nat) : (d.pressBoundary f).calm = d.calm := by
  simp [Dev.pressBoundary]
@[simp] theorem Dev.portSlip_calm (d : Dev) (n : Nat) (f : PortFrame) : (d.portSlip n f).calm = d.calm := by
  simp [Dev.portSlip]; split <;> simp
@[simp] theorem Dev.modMtx_calm (d : Dev) (f : MtxSt → MtxSt) : (d.modMtx f).calm = d.calm := by
  simp [Dev.modMtx]
@[simp] theorem Dev.mtxCount_calm (d : Dev) : d.mtxCount.calm = d.calm := by simp [Dev.mtxCount]
@[simp] theorem Dev.mtxHolds_calm (before rs : List MtxReq) (d : Dev) : (Dev.mtxHolds before rs d).1.calm = d.calm := by
  induction rs generalizing before d with
  | nil => rfl
  | cons r rs ih => simp [Dev.mtxHolds, ih]
@[simp] theorem Dev.mtxGrant_calm (d : Dev) (r : MtxReq) (key : Nat) : (d.mtxGrant r key).calm = d.calm := by
  simp [Dev.mtxGrant]
@[simp] theorem Dev.mtxServe_calm (d : Dev) (t : Nat) : (d.mtxServe t).calm = d.calm := by
  unfold Dev.mtxServe
  split
  · rfl
  · dsimp only
    split <;> simp [Dev.mtxHolds_calm]
@[simp] theorem Dev.mtxArbitrate_calm (d : Dev) : d.mtxArbitrate.calm = d.calm := by simp [Dev.mtxArbitrate]
@[simp] theorem Dev.matrixAbortAt_calm (d : Dev) (m t : Nat) : (d.matrixAbortAt m t).calm = d.calm := by
  simp [Dev.matrixAbortAt]
@[simp] theorem Dev.matrixAbort_calm (d : Dev) (m : Nat) : (d.matrixAbort m).calm = d.calm := by
  simp [Dev.matrixAbort]; split <;> simp
@[simp] theorem Dev.dccQueue_calm (d : Dev) (n s : Nat) (m : DccMsg) : (d.dccQueue n s m).calm = d.calm := by
  simp [Dev.dccQueue]
@[simp] theorem Dev.dccTxItem_calm (d : Dev) (ws : List Nat) : (d.dccTxItem ws).calm = d.calm := by
  simp [Dev.dccTxItem]
@[simp] theorem Dev.setBasket_calm (d : Dev) (i : Nat) (b : Basket) : (d.setBasket i b).calm = d.calm := by
  simp [Dev.setBasket]
@[simp] theorem Dev.mbxItem_calm (d : Dev) (c : Nat) (ws : List Nat) : (d.mbxItem c ws).calm = d.calm := by
  simp [Dev.mbxItem]
@[simp] theorem Dev.pushItem_calm (d : Dev) (i : Nat) (ws : List Nat) : (d.pushItem i ws).calm = d.calm := by
  simp [Dev.pushItem]
@[simp] theorem Dev.openItem_calm (d : Dev) (i h : Nat) : (d.openItem i h).calm = d.calm := by
  simp [Dev.openItem]
@[simp] theorem Dev.addWord_calm (d : Dev) (i v : Nat) (ws : List Nat) : (d.addWord i v ws).calm = d.calm := by
  simp [Dev.addWord]
@[simp] theorem Dev.flushDiscard_calm (d : Dev) (i : Nat) : (d.flushDiscard i).calm = d.calm := by
  simp [Dev.flushDiscard]
@[simp] theorem Dev.slotWrite_calm (d : Dev) (word v : Nat) : (d.slotWrite word v).calm = d.calm := by
  simp [Dev.slotWrite]; split <;> simp
@[simp] theorem Dev.pushData_calm (d : Dev) (i v : Nat) : (d.pushData i v).calm = d.calm := by
  simp [Dev.pushData]; split <;> simp
@[simp] theorem Dev.pushHead_calm (d : Dev) (i h : Nat) : (d.pushHead i h).calm = d.calm := by
  simp [Dev.pushHead]
@[simp] theorem Dev.flushBasket_calm (d : Dev) (i : Nat) : (d.flushBasket i).calm = d.calm := by
  simp [Dev.flushBasket]
@[simp] theorem Dev.seqReset_calm (d : Dev) (r : Nat) : (d.seqReset r).calm = d.calm := by simp [Dev.seqReset]
@[simp] theorem Dev.ringReset_calm (d : Dev) (r : Nat) : (d.ringReset r).calm = d.calm := by
  simp [Dev.ringReset]
@[simp] theorem Dev.drainCpl_calm (d : Dev) (r : Nat) : (d.drainCpl r).calm = d.calm := by simp [Dev.drainCpl]
@[simp] theorem Dev.ringCtrl_calm (d : Dev) (r v : Nat) : (d.ringCtrl r v).calm = d.calm := by
  simp [Dev.ringCtrl]
@[simp] theorem Dev.ringCi_calm (d : Dev) (r v : Nat) : (d.ringCi r v).calm = d.calm := by simp [Dev.ringCi]
@[simp] theorem Dev.setChk_calm (d : Dev) (u : Nat) (x : ChkUnit) : (d.setChk u x).calm = d.calm := by
  simp [Dev.setChk]
@[simp] theorem Dev.setPair_calm (d : Dev) (lo hi : Field) (u v : Nat) : (d.setPair lo hi u v).calm = d.calm := by
  simp [Dev.setPair]
@[simp] theorem Dev.chkStatus_calm (d : Dev) (u : Nat) : (d.chkStatus u).calm = d.calm := by
  simp [Dev.chkStatus]
@[simp] theorem Dev.chkPut_calm (d : Dev) (u : Nat) (e : ChkEntry) : (d.chkPut u e).calm = d.calm := by
  simp [Dev.chkPut]
@[simp] theorem Dev.chkResult_calm (d : Dev) (u : Nat) : (d.chkResult u).calm = d.calm := by
  simp [Dev.chkResult]
@[simp] theorem Dev.chkEntry_calm (d : Dev) (u : Nat) (x : ChkEntry) :
    (d.chkEntry u x).calm = d.calm := by cases x <;> simp [Dev.chkEntry]
@[simp] theorem Dev.chkCfg_calm (d : Dev) (u v : Nat) : (d.chkCfg u v).calm = d.calm := by simp [Dev.chkCfg]
@[simp] theorem Dev.chkLo_calm (d : Dev) (u p v : Nat) : (d.chkLo u p v).calm = d.calm := by simp [Dev.chkLo]
@[simp] theorem Dev.chkHi_calm (d : Dev) (u p v : Nat) : (d.chkHi u p v).calm = d.calm := by simp [Dev.chkHi]
@[simp] theorem Dev.chkLatch_calm (d : Dev) (u : Nat) : (d.chkLatch u).calm = d.calm := by simp [Dev.chkLatch]
@[simp] theorem Dev.chkEvent_calm (d : Dev) (u b : Nat) : (d.chkEvent u b).calm = d.calm := by
  simp [Dev.chkEvent]
@[simp] theorem Dev.chkAlive_calm (d : Dev) (u v : Nat) : (d.chkAlive u v).calm = d.calm := by
  simp [Dev.chkAlive]
@[simp] theorem Dev.chkUse_calm (d : Dev) (u m o v : Nat) : (d.chkUse u m o v).calm = d.calm := by
  simp [Dev.chkUse]
@[simp] theorem Dev.chkWrite_calm (d : Dev) (u o v : Nat) :
    (d.chkWrite u o v).calm = d.calm := by unfold Dev.chkWrite; split <;> simp
@[simp] theorem Dev.spinFeed_calm (d : Dev) (n : Nat) (p : Int) (zs : List Cx) :
    (d.spinFeed n p zs).1.calm = d.calm := by
  simp [Dev.spinFeed]
@[simp] theorem Dev.wringFeed_calm (d : Dev) (n : Nat) (p : Int) (vs : List Int) :
    (d.wringFeed n p vs).1.calm = d.calm := by
  simp [Dev.wringFeed]
@[simp] theorem Dev.rinseOut_calm (d : Dev) (n first : Nat) (ys : List Int) :
    (d.rinseOut n first ys).1.calm = d.calm := by unfold Dev.rinseOut; split <;> simp
@[simp] theorem Dev.latchScale_calm (d : Dev) (n : Nat) : (d.latchScale n).calm = d.calm := by
  simp [Dev.latchScale]
@[simp] theorem Dev.dataSymbol_calm (d : Dev) (n : Nat) (until' : Int) : (d.dataSymbol n until').calm = d.calm := by
  simp [Dev.dataSymbol]; split <;> simp
@[simp] theorem Dev.showSnr_calm (d : Dev) (n : Nat) : (d.showSnr n).calm = d.calm := by simp [Dev.showSnr]
@[simp] theorem Dev.wringAdvance_calm (d : Dev) (n : Nat) : (d.wringAdvance n).calm = d.calm := by
  simp [Dev.wringAdvance]
@[simp] theorem Dev.showPam_calm (d : Dev) (n : Nat) : (d.showPam n).calm = d.calm := by simp [Dev.showPam]
@[simp] theorem Dev.saveSignal_calm (d : Dev) (n : Nat) : (d.saveSignal n).calm = d.calm := by
  simp [Dev.saveSignal]
@[simp] theorem Dev.emitSamples_calm (d : Dev) (n : Nat) (mute : Bool) (vs : List Int) :
    (d.emitSamples n mute vs).calm = d.calm := by
  simp [Dev.emitSamples]
@[simp] theorem Dev.sendChips_calm (d : Dev) (n t : Nat) (mute : Bool) (us : List Cx) :
    (d.sendChips n t mute us).calm = d.calm := by
  simp [Dev.sendChips]
@[simp] theorem Dev.sendLevels_calm (d : Dev) (n t : Nat) (mute : Bool) (ls : List Int) :
    (d.sendLevels n t mute ls).calm = d.calm := by
  simp [Dev.sendLevels]
@[simp] theorem Dev.sendSymbols_calm (d : Dev) (n t : Nat) (mute : Bool) (ss : List Nat) :
    (d.sendSymbols n t mute ss).calm = d.calm := by
  simp [Dev.sendSymbols]
@[simp] theorem Dev.judgeCfg_calm (d : Dev) (n : Nat) : (d.judgeCfg n).calm = d.calm := by simp [Dev.judgeCfg]
@[simp] theorem Dev.darnFeed_calm (d : Dev) (n last : Nat) : (d.darnFeed n last).calm = d.calm := by
  simp [Dev.darnFeed]
@[simp] theorem Dev.alignRestart_calm (d : Dev) (n : Nat) : (d.alignRestart n).calm = d.calm := by
  simp [Dev.alignRestart]
@[simp] theorem Dev.rxRestart_calm (d : Dev) (n t : Nat) : (d.rxRestart n t).calm = d.calm := by
  simp [Dev.rxRestart]
@[simp] theorem Dev.signalReset_calm (d : Dev) (n : Nat) : (d.signalReset n).calm = d.calm := by
  simp [Dev.signalReset]
@[simp] theorem Dev.txStartAt_calm (d : Dev) (n t : Nat) : (d.txStartAt n t).calm = d.calm := by
  simp [Dev.txStartAt]
@[simp] theorem Dev.txStop_calm (d : Dev) (n : Nat) : (d.txStop n).calm = d.calm := by simp [Dev.txStop]
@[simp] theorem Dev.rxBoundary_calm (d : Dev) (n t : Nat) : (d.rxBoundary n t).calm = d.calm := by
  simp [Dev.rxBoundary]
@[simp] theorem Dev.offerStart_calm (d : Dev) (n : Nat) : (d.offerStart n).calm = d.calm := by
  simp [Dev.offerStart]
@[simp] theorem Dev.offerFail_calm (d : Dev) (n : Nat) (answered : Bool) : (d.offerFail n answered).calm = d.calm := by
  simp [Dev.offerFail]
@[simp] theorem Dev.preambleAccepted_calm (d : Dev) (n : Nat) (end_ f : Int) :
    (d.preambleAccepted n end_ f).calm = d.calm := by
  simp [Dev.preambleAccepted]; split <;> simp
@[simp] theorem Dev.pamAttempt_calm (d : Dev) (n t : Nat) : (d.pamAttempt n t).calm = d.calm := by
  simp [Dev.pamAttempt]
@[simp] theorem Dev.pamPhase_calm (d : Dev) (n phase t : Nat) : (d.pamPhase n phase t).calm = d.calm := by
  simp [Dev.pamPhase]
@[simp] theorem Dev.threshStart_calm (d : Dev) (n : Nat) : (d.threshStart n).calm = d.calm := by
  simp [Dev.threshStart]
@[simp] theorem Dev.pamNext_calm (d : Dev) (n len : Nat) : (d.pamNext n len).calm = d.calm := by
  simp [Dev.pamNext]
@[simp] theorem Dev.returnToChirp_calm (d : Dev) (n : Nat) : (d.returnToChirp n).calm = d.calm := by
  simp [Dev.returnToChirp]
@[simp] theorem Dev.pamFail_calm (d : Dev) (n : Nat) : (d.pamFail n).calm = d.calm := by simp [Dev.pamFail]
@[simp] theorem Dev.pamEnergy_calm (d : Dev) (n : Nat) (low high : Bool) : (d.pamEnergy n low high).calm = d.calm := by
  simp [Dev.pamEnergy]
@[simp] theorem Dev.sharedStart_calm (d : Dev) (n : Nat) : (d.sharedStart n).calm = d.calm := by
  simp [Dev.sharedStart]
@[simp] theorem Dev.portStart_calm (d : Dev) (n : Nat) : (d.portStart n).calm = d.calm := by
  simp [Dev.portStart]
@[simp] theorem Dev.dropHooks_calm (d : Dev) (n : Nat) : (d.dropHooks n).calm = d.calm := by
  simp [Dev.dropHooks]
@[simp] theorem Dev.clearDefects_calm (d : Dev) (n : Nat) : (d.clearDefects n).calm = d.calm := by
  simp [Dev.clearDefects]
@[simp] theorem Dev.portStop_calm (d : Dev) (n : Nat) : (d.portStop n).calm = d.calm := by simp [Dev.portStop]
@[simp] theorem Dev.stopAll_calm (d : Dev) : d.stopAll.calm = d.calm := by simp [Dev.stopAll]
@[simp] theorem Dev.stopStill_calm (d : Dev) : d.stopStill.calm = d.calm := by simp [Dev.stopStill]
@[simp] theorem Dev.lateStops_calm (d : Dev) : d.lateStops.calm = d.calm := by simp [Dev.lateStops]
@[simp] theorem Dev.startPort_calm (d : Dev) (tag n : Nat) : (d.startPort tag n).calm = d.calm := by
  simp [Dev.startPort]
@[simp] theorem Dev.lateStarts_calm (d : Dev) : d.lateStarts.calm = d.calm := by simp [Dev.lateStarts]
@[simp] theorem Dev.pwReject_calm (d : Dev) (n w : Nat) : (d.pwReject n w).calm = d.calm := by
  simp [Dev.pwReject]
@[simp] theorem Dev.correlate_calm (d : Dev) (n : Nat) (m : ChirpSym) : (d.correlate n m).1.calm = d.calm := by
  simp [Dev.correlate]
@[simp] theorem Dev.setCorr_calm (d : Dev) (n : Nat) (p : Int) : (d.setCorr n p).calm = d.calm := by
  simp [Dev.setCorr]
@[simp] theorem Dev.spinTrim_calm (d : Dev) (n : Nat) (p : Int) : (d.spinTrim n p).calm = d.calm := by
  simp [Dev.spinTrim]
@[simp] theorem Dev.touchWindow_calm (d : Dev) (n : Nat) : (d.touchWindow n).calm = d.calm := by
  simp [Dev.touchWindow]
@[simp] theorem Dev.chirpInterval_calm (d : Dev) (n : Nat) :
    (d.chirpInterval n).calm = d.calm := by unfold Dev.chirpInterval; dsimp only; split <;> (try split) <;> simp
@[simp] theorem Dev.chirpSymbol_calm (d : Dev) (n : Nat) : (d.chirpSymbol n).calm = d.calm := by
  simp [Dev.chirpSymbol]
@[simp] theorem Dev.modShared_calm (d : Dev) (n : Nat) (f : SharedSt → SharedSt) : (d.modShared n f).calm = d.calm := by
  simp [Dev.modShared]
@[simp] theorem Dev.setStnState_calm (d : Dev) (n s v : Nat) : (d.setStnState n s v).calm = d.calm := by
  simp [Dev.setStnState]
@[simp] theorem Dev.showMap_calm (d : Dev) (n : Nat) : (d.showMap n).calm = d.calm := by simp [Dev.showMap]
@[simp] theorem Dev.sendVendor_calm (d : Dev) (n s : Nat) (m : DccMsg) : (d.sendVendor n s m).calm = d.calm := by
  simp [Dev.sendVendor]
@[simp] theorem Dev.stnFree_calm (d : Dev) (n s : Nat) : (d.stnFree n s).calm = d.calm := by
  simp [Dev.stnFree]
@[simp] theorem Dev.renumberApply_calm (d : Dev) (n : Nat) :
    (d.renumberApply n).calm = d.calm := by unfold Dev.renumberApply; split <;> simp
@[simp] theorem Dev.groupBoundary_calm (d : Dev) (n : Nat) : (d.groupBoundary n).calm = d.calm := by
  simp [Dev.groupBoundary]
@[simp] theorem Dev.sharedBoundary_calm (d : Dev) (n t : Nat) (first : Bool) :
    (d.sharedBoundary n t first).calm = d.calm := by
  simp [Dev.sharedBoundary]
@[simp] theorem Dev.setSlot_calm (d : Dev) (n : Nat) (fork : Bool) (r : Option Reception) :
    (d.setSlot n fork r).calm = d.calm := by
  simp [Dev.setSlot]
@[simp] theorem Dev.collReport_calm (d : Dev) (n o : Nat) (c : Collision) :
    (d.collReport n o c).calm = d.calm := by unfold Dev.collReport; split <;> simp
@[simp] theorem Dev.collSettle_calm (d : Dev) (n : Nat) : (d.collSettle n).calm = d.calm := by
  simp [Dev.collSettle]
@[simp] theorem Dev.collUpdate_calm (d : Dev) (n : Nat) (slot : Bool) (a b : Collision → Collision) :
    (d.collUpdate n slot a b).calm = d.calm := by
  simp [Dev.collUpdate]
@[simp] theorem Dev.countDropped_calm (d : Dev) (n : Nat) (r : Reception) : (d.countDropped n r).calm = d.calm := by
  simp [Dev.countDropped]
@[simp] theorem Dev.collDrop_calm (d : Dev) (n : Nat) (slot : Bool) : (d.collDrop n slot).calm = d.calm := by
  simp [Dev.collDrop]
@[simp] theorem Dev.candidateRow_calm (d : Dev) (n : Nat) (b : Reception) : (d.candidateRow n b).1.calm = d.calm := by
  unfold Dev.candidateRow
  extract_lets margin one
  have h : ∀ slot a, (one slot a).1.calm = d.calm := fun slot a => by
    simp only [one]; (repeat' split) <;> simp
  split
  · simp
  · exact h _ _
  · exact h _ _
  · simp
@[simp] theorem Dev.settleDropped_calm (d : Dev) (n : Nat) (slot : Bool) (a : Reception) :
    (d.settleDropped n slot a).calm = d.calm := by
  simp [Dev.settleDropped]
@[simp] theorem Dev.candidate_calm (d : Dev) (n : Nat) (b : Reception) : (d.candidate n b).calm = d.calm := by
  have h := Dev.candidateRow_calm d n b
  unfold Dev.candidate
  split
  · next he => rw [he] at h; simpa using h
  · next he => rw [he] at h; exact h
@[simp] theorem Dev.settleAccepted_calm (d : Dev) (n : Nat) : (d.settleAccepted n).calm = d.calm := by
  simp [Dev.settleAccepted]
@[simp] theorem Dev.joinReject_calm (d : Dev) (n : Nat) : (d.joinReject n).calm = d.calm := by
  simp [Dev.joinReject]
@[simp] theorem Dev.joinAssign_calm (d : Dev) (n : Nat) (j : JoinReq) :
    (d.joinAssign n j).calm = d.calm := by unfold Dev.joinAssign; split <;> simp
@[simp] theorem Dev.joinSettle_calm (d : Dev) (n : Nat) : (d.joinSettle n).calm = d.calm := by
  simp [Dev.joinSettle]
@[simp] theorem Dev.slotEnd_calm (d : Dev) (n : Nat) (slot passed : Bool) :
    (d.slotEnd n slot passed).calm = d.calm := by unfold Dev.slotEnd; split <;> simp
@[simp] theorem Dev.slotTook_calm (d : Dev) (n : Nat) (slot : Bool) (r : Reception) (ls : List LayerRx) :
    (d.slotTook n slot r ls).calm = d.calm := by
  simp [Dev.slotTook]
@[simp] theorem Dev.slotPreamble_calm (d : Dev) (n : Nat) (slot : Bool) (r : Reception) (xs : List Cx) :
    (d.slotPreamble n slot r xs).calm = d.calm := by unfold Dev.slotPreamble; dsimp only; repeat' split <;> simp
@[simp] theorem Dev.contextSymbol_calm (d : Dev) (n : Nat) (slot : Bool) :
    (d.contextSymbol n slot).calm = d.calm := by unfold Dev.contextSymbol; split <;> simp
@[simp] theorem Dev.sharedSymbol_calm (d : Dev) (n : Nat) :
    (d.sharedSymbol n).calm = d.calm := by unfold Dev.sharedSymbol; dsimp only; repeat' split <;> simp
@[simp] theorem Dev.arrival_calm (d : Dev) (n s : Nat) (off : Int) : (d.arrival n s off).calm = d.calm := by
  simp [Dev.arrival]
@[simp] theorem Dev.burstSettle_calm (d : Dev) (n : Nat) (slot : Bool) (r : Reception) :
    (d.burstSettle n slot r).calm = d.calm := by
  unfold Dev.burstSettle
  dsimp only
  split
  · simp
  · split <;> simp
@[simp] theorem Dev.burstHeader_calm (d : Dev) (n : Nat) (slot : Bool) (r : Reception) :
    (d.burstHeader n slot r).calm = d.calm := by
  simp [Dev.burstHeader]
@[simp] theorem Dev.stnFrame_calm (d : Dev) (n s ref : Nat) (bits : Option (List Bool)) :
    (d.stnFrame n s ref bits).calm = d.calm := by
  simp [Dev.stnFrame]
@[simp] theorem Dev.stnAbsent_calm (d : Dev) (n s cycle : Nat) : (d.stnAbsent n s cycle).calm = d.calm := by
  simp [Dev.stnAbsent]
@[simp] theorem Dev.burstBad_calm (d : Dev) (n s cycle : Nat) : (d.burstBad n s cycle).calm = d.calm := by
  simp [Dev.burstBad]
@[simp] theorem Dev.taAdjust_calm (d : Dev) (n s : Nat) (off : Int) : (d.taAdjust n s off).calm = d.calm := by
  simp [Dev.taAdjust]
@[simp] theorem Dev.burstGood_calm (d : Dev) (n s : Nat) (r : Reception) (snr off : Int) (frames : List (List Bool)) :
    (d.burstGood n s r snr off frames).calm = d.calm := by
  simp [Dev.burstGood]
@[simp] theorem Dev.burstPayload_calm (d : Dev) (n : Nat) (slot : Bool) (r : Reception) :
    (d.burstPayload n slot r).calm = d.calm := by
  simp [Dev.burstPayload]
@[simp] theorem Dev.stationLost_calm (d : Dev) (n s : Nat) : (d.stationLost n s).calm = d.calm := by
  simp [Dev.stationLost]
@[simp] theorem Dev.addFrame_calm (d : Dev) (n dir : Nat) (f : PortFrame) : (d.addFrame n dir f).calm = d.calm := by
  simp [Dev.addFrame]
@[simp] theorem Dev.stageDone_calm (d : Dev) (n dir stage : Nat) (f : PortFrame) :
    (d.stageDone n dir stage f).calm = d.calm := by
  simp [Dev.stageDone]
@[simp] theorem Dev.looseSlip_calm (d : Dev) (n ref : Nat) : (d.looseSlip n ref).calm = d.calm := by
  simp [Dev.looseSlip]
@[simp] theorem Dev.wander_calm (d : Dev) (n phi stamp : Nat) :
    (d.wander n phi stamp).1.calm = d.calm := by
  unfold Dev.wander
  dsimp only
  split
  · simp
  · split <;> simp
@[simp] theorem Dev.refOf_calm (d : Dev) (n stamp : Nat) : (d.refOf n stamp).1.calm = d.calm := by
  unfold Dev.refOf
  dsimp only
  split
  · rfl
  · split
    · simp
    · split <;> simp
@[simp] theorem Dev.fixPhase_calm (d : Dev) (n stamp : Nat) : (d.fixPhase n stamp).calm = d.calm := by
  simp [Dev.fixPhase]
@[simp] theorem Dev.startFrame_calm (d : Dev) (n ref stamp stage : Nat) :
    (d.startFrame n ref stamp stage).calm = d.calm := by
  simp [Dev.startFrame]
@[simp] theorem Dev.levelAdd_calm (d : Dev) (n : Nat) (zs : List (Nat × Nat)) : (d.levelAdd n zs).calm = d.calm := by
  simp [Dev.levelAdd]
@[simp] theorem Dev.levelEnd_calm (d : Dev) (n t : Nat) : (d.levelEnd n t).calm = d.calm := by
  simp [Dev.levelEnd]
@[simp] theorem Dev.rinseEnd_calm (d : Dev) (n t : Nat) : (d.rinseEnd n t).calm = d.calm := by
  simp [Dev.rinseEnd]
@[simp] theorem Dev.rinseFrame_calm (d : Dev) (n num index stamp : Nat) (ends : Bool) (ws : List Nat) :
    (d.rinseFrame n num index stamp ends ws).calm = d.calm := by
  simp [Dev.rinseFrame]
@[simp] theorem Dev.rinseStage_calm (d : Dev) (n index : Nat) (ws : List Nat) :
    (d.rinseStage n index ws).calm = d.calm := by
  simp [Dev.rinseStage]; split <;> simp
@[simp] theorem Dev.losFrame_calm (d : Dev) (n : Nat) (f : PortFrame) : (d.losFrame n f).calm = d.calm := by
  simp [Dev.losFrame]
@[simp] theorem Dev.preReport_calm (d : Dev) (n ref : Nat) : (d.preReport n ref).calm = d.calm := by
  simp [Dev.preReport]
@[simp] theorem Dev.sharedDone_calm (d : Dev) (n : Nat) (f : PortFrame) : (d.sharedDone n f).calm = d.calm := by
  simp [Dev.sharedDone]
theorem Dev.takeSymbols_calm {d d1 : Dev} {n num : Nat} {ss : List (List Int)} (h : d.takeSymbols n num = some (ss, d1)) : d1.calm = d.calm := by
  unfold Dev.takeSymbols at h
  dsimp only at h
  (repeat' split at h) <;> cases h <;> simp
@[simp] theorem Dev.demodEnd_calm (d : Dev) (n : Nat) : (d.demodEnd n).calm = d.calm := by simp [Dev.demodEnd]
@[simp] theorem Dev.spinStage_calm (d : Dev) (n : Nat) : (d.spinStage n).calm = d.calm := by
  unfold Dev.spinStage
  split
  · rfl
  · dsimp only
    split
    · rfl
    · next f hf o ss d0 he =>
      have h0 : d0.calm = d.calm := by
        split at he
        · exact Dev.takeSymbols_calm he
        · cases he; rfl
      simp [h0]
@[simp] theorem Dev.moveThresh_calm (d : Dev) (n : Nat) : (d.moveThresh n).calm = d.calm := by
  unfold Dev.moveThresh
  exact Dev.calm_foldl _ _ _ (fun d i => by dsimp only; split <;> simp)
@[simp] theorem Dev.wringStage_calm (d : Dev) (n : Nat) : (d.wringStage n).calm = d.calm := by
  unfold Dev.wringStage
  split
  · rfl
  · dsimp only
    split
    · simp
    · next f hf o ss d1 he =>
      have h1 : d1.calm = (d.wringAdvance n).calm := by
        split at he
        · exact Dev.takeSymbols_calm he
        · cases he; rfl
      simp [h1, Dev.moveThresh_calm]
@[simp] theorem Dev.darnStage_calm (d : Dev) (n : Nat) :
    (d.darnStage n).calm = d.calm := by unfold Dev.darnStage; dsimp only; repeat' split <;> simp
@[simp] theorem Dev.hemStage_calm (d : Dev) (n : Nat) : (d.hemStage n).calm = d.calm := by
  simp [Dev.hemStage]; split <;> simp
@[simp] theorem Dev.deliver_calm (d : Dev) (n num : Nat) : (d.deliver n num).calm = d.calm := by
  simp [Dev.deliver]; split <;> simp
@[simp] theorem Dev.labelStage_calm (d : Dev) (n : Nat) : (d.labelStage n).calm = d.calm := by
  simp [Dev.labelStage]; split <;> simp
@[simp] theorem Dev.slipStage_calm (d : Dev) (n : Nat) : (d.slipStage n).calm = d.calm := by
  simp [Dev.slipStage]; split <;> simp
@[simp] theorem Dev.pleatStage_calm (d : Dev) (n : Nat) : (d.pleatStage n).calm = d.calm := by
  unfold Dev.pleatStage
  split
  · rfl
  · next f hf =>
    dsimp only
    rw [Dev.deliver_calm, Dev.stageDone_calm]
    refine Dev.calm_foldl _ _ _ ?_
    intro d t
    split <;> simp
@[simp] theorem Dev.abandon_calm (d : Dev) (n : Nat) (f : PortFrame) : (d.abandon n f).calm = d.calm := by
  simp [Dev.abandon]
@[simp] theorem Dev.takeSig_calm (d : Dev) (n t : Nat) : (d.takeSig n t).calm = d.calm := by
  simp [Dev.takeSig]
@[simp] theorem Dev.mfTake_calm (d : Dev) (n t : Nat) : (d.mfTake n t).calm = d.calm := by simp [Dev.mfTake]
@[simp] theorem Dev.foldReads_calm (d : Dev) (n : Nat) (m : FMap DestWord) : (d.foldReads n m).1.calm = d.calm := by
  unfold Dev.foldReads
  exact Dev.calm_fst_foldl _ _ _ (fun a q => by dsimp only; split <;> simp)
@[simp] theorem Dev.foldRdi_calm (d : Dev) (n i : Nat) : (d.foldRdi n i).calm = d.calm := by
  simp [Dev.foldRdi]
@[simp] theorem Dev.foldStage_calm (d : Dev) (n : Nat) : (d.foldStage n).calm = d.calm := by
  simp [Dev.foldStage]; split <;> simp
@[simp] theorem Dev.encodeStage_calm (d : Dev) (n : Nat) : (d.encodeStage n).calm = d.calm := by
  simp [Dev.encodeStage]; split <;> simp
@[simp] theorem Dev.sendStage_calm (d : Dev) (n : Nat) : (d.sendStage n).calm = d.calm := by
  simp [Dev.sendStage]; split <;> simp
@[simp] theorem Dev.sendFrame_calm (d : Dev) (n : Nat) (f : PortFrame) : (d.sendFrame n f).calm = d.calm := by
  simp [Dev.sendFrame]
@[simp] theorem Dev.sendPhase_calm (d : Dev) (n b : Nat) : (d.sendPhase n b).calm = d.calm := by
  simp [Dev.sendPhase]
@[simp] theorem Dev.sendBeacon_calm (d : Dev) (n b : Nat) : (d.sendBeacon n b).calm = d.calm := by
  simp [Dev.sendBeacon]
@[simp] theorem Dev.lineFrame_calm (b : Nat) (d : Dev) (n : Nat) : (d.lineFrame b n).calm = d.calm := by
  simp [Dev.lineFrame]; split <;> simp
@[simp] theorem Dev.showIdle_calm (d : Dev) : d.showIdle.calm = d.calm := by simp [Dev.showIdle]
@[simp] theorem Dev.lineBoundary_calm (d : Dev) (b : Nat) : (d.lineBoundary b).calm = d.calm := by
  simp [Dev.lineBoundary]
@[simp] theorem Dev.stage_calm (d : Dev) (n : Nat) (st : StageData) : (d.stage n st).calm = d.calm := by
  simp [Dev.stage]; split <;> simp
@[simp] theorem Dev.portToReset_calm (d : Dev) (n : Nat) : (d.portToReset n).calm = d.calm := by
  simp [Dev.portToReset]
@[simp] theorem Dev.laneReset_calm (d : Dev) (l : Nat) : (d.laneReset l).calm = d.calm := by
  simp [Dev.laneReset]
@[simp] theorem Dev.fallbackApply_calm (d : Dev) (n t : Nat) : (d.fallbackApply n t).calm = d.calm := by
  simp [Dev.fallbackApply]
@[simp] theorem Dev.pamRestart_calm (d : Dev) (n t : Nat) : (d.pamRestart n t).calm = d.calm := by
  simp [Dev.pamRestart]
@[simp] theorem Dev.chirpBoundary_calm (d : Dev) (n t : Nat) : (d.chirpBoundary n t).calm = d.calm := by
  simp [Dev.chirpBoundary]
@[simp] theorem Dev.pamBoundary_calm (d : Dev) (n t : Nat) : (d.pamBoundary n t).calm = d.calm := by
  simp [Dev.pamBoundary]
@[simp] theorem Dev.sharedPortBoundary_calm (d : Dev) (n t : Nat) :
    (d.sharedPortBoundary n t).calm = d.calm := by unfold Dev.sharedPortBoundary; dsimp only; repeat' split <;> simp
@[simp] theorem Dev.dsBoundary_calm (d : Dev) (n t : Nat) : (d.dsBoundary n t).calm = d.calm := by
  simp [Dev.dsBoundary]
@[simp] theorem Dev.setNdlState_calm (d : Dev) (e v : Nat) : (d.setNdlState e v).calm = d.calm := by
  simp [Dev.setNdlState]
@[simp] theorem Dev.setNreg_calm (d : Dev) (e : Nat) (r : Fin 16) (v : Nat) : (d.setNreg e r v).calm = d.calm := by
  simp [Dev.setNreg]
@[simp] theorem Dev.setNflags_calm (d : Dev) (e : Nat) (f : NFlags) : (d.setNflags e f).calm = d.calm := by
  simp [Dev.setNflags]
@[simp] theorem Dev.setNpc_calm (d : Dev) (e pc : Nat) : (d.setNpc e pc).calm = d.calm := by simp [Dev.setNpc]
@[simp] theorem Dev.ndlEnd_calm (d : Dev) (e : Nat) : (d.ndlEnd e).calm = d.calm := by
  simp [Dev.ndlEnd]; split <;> simp
@[simp] theorem Dev.ndlRecord_calm (d : Dev) (e cause pc : Nat) (port : Option Nat) :
    (d.ndlRecord e cause pc port).calm = d.calm := by
  simp [Dev.ndlRecord]
@[simp] theorem Dev.skipHooks_calm (d : Dev) (n : Nat) : (d.skipHooks n).calm = d.calm := by
  simp [Dev.skipHooks]
@[simp] theorem Dev.portSpend_calm (d : Dev) (n : Nat) : (d.portSpend n).calm = d.calm := by
  simp [Dev.portSpend]
@[simp] theorem Dev.ndlOverrun_calm (d : Dev) (e n pc : Nat) : (d.ndlOverrun e n pc).calm = d.calm := by
  simp [Dev.ndlOverrun]
@[simp] theorem Dev.mbxTaken_calm (d : Dev) (e : Nat) (ev : HookEv) : (d.mbxTaken e ev).calm = d.calm := by
  simp [Dev.mbxTaken]
@[simp] theorem Dev.mbxDropped_calm (d : Dev) (e : Nat) (evs : List HookEv) : (d.mbxDropped e evs).calm = d.calm := by
  simp [Dev.mbxDropped]
@[simp] theorem Dev.acctOverrun_calm (d : Dev) (e pc : Nat) : (d.acctOverrun e pc).calm = d.calm := by
  simp [Dev.acctOverrun]
@[simp] theorem Dev.ndlFault_calm (d : Dev) (e : Nat) (iv : Invocation) (f : NFault) :
    (d.ndlFault e iv f).calm = d.calm := by
  simp [Dev.ndlFault]; split <;> simp
@[simp] theorem Dev.ndlCharge_calm (d : Dev) (e pc : Nat) (iv : Invocation) : (d.ndlCharge e pc iv).calm = d.calm := by
  simp [Dev.ndlCharge]; split <;> simp
@[simp] theorem Dev.chkLoad_calm (d : Dev) (e a : Nat) :
    (d.chkLoad e a).2.calm = d.calm := by
  unfold Dev.chkLoad
  dsimp only
  split
  · simp
  · split <;> simp
theorem Dev.nload_calm {d d1 : Dev} {e : Nat} {iv : Invocation} {cust : Bool} {a v : Nat} (h : d.nload e iv cust a = some (v, d1)) :
    d1.calm = d.calm := by
  unfold Dev.nload at h
  split at h
  · rw [← (Prod.mk.inj (Option.some.inj h)).2]
  split at h
  · rw [← (Prod.mk.inj (Option.some.inj h)).2]
  split at h
  · split at h
    · split at h
      · obtain ⟨w, _, hw⟩ := Option.map_eq_some_iff.mp h
        rw [← (Prod.mk.inj hw).2]
      · cases h
    · cases h
  split at h
  · split at h
    · rw [← (Prod.mk.inj (Option.some.inj h)).2]
    · cases h
  split at h
  · rw [← (Prod.mk.inj (Option.some.inj h)).2]
  split at h
  · have hcalm := Dev.chkLoad_calm d e a
    rwa [Option.some.inj h] at hcalm
  split at h
  · split at h
    · rw [← (Prod.mk.inj (Option.some.inj h)).2]
      simp
    · cases h
  split at h
  · split at h
    · cases h
    · rw [← (Prod.mk.inj (Option.some.inj h)).2]
      simp
  · cases h
/-- What a store may answer: a device that is calm beside `d`, or an abort. -/
def StoreRes.calmFrom (d : Dev) : StoreRes → Prop
  | .ok t => t.calm = d.calm
  | .abort _ => True
@[simp] theorem StoreRes.calmFrom_ok (d t : Dev) : (StoreRes.ok t).calmFrom d ↔ t.calm = d.calm := Iff.rfl
@[simp] theorem StoreRes.calmFrom_abort (d : Dev) (f : NFault) : (StoreRes.abort f).calmFrom d := trivial
@[simp] theorem Dev.bell_calm (d : Dev) (e n : Nat) (cust : Bool) : (d.bell e n cust).calmFrom d := by
  unfold Dev.bell
  dsimp only
  (repeat' split) <;> simp
@[simp] theorem Dev.stageWord_calm (d : Dev) (n f v : Nat) : (d.stageWord n f v).calm = d.calm := by
  simp [Dev.stageWord]
@[simp] theorem Dev.portStore_calm (d : Dev) (e n : Nat) (cust : Bool) (a v : Nat) :
    (d.portStore e n cust a v).calmFrom d := by
  unfold Dev.portStore
  split
  · have h : ∀ (b : Prop) [Decidable b] (f : Nat), (if b then StoreRes.ok (d.stageWord n f v) else .abort .access).calmFrom d :=
      fun b _ f => by split <;> simp
    exact h _ _
  split
  · simp
  split
  · simp
  split
  · exact Dev.bell_calm d e n cust
  simp
@[simp] theorem Dev.mbxPush_calm (d : Dev) (e hi : Nat) : (d.mbxPush e hi).calmFrom d := by
  unfold Dev.mbxPush
  dsimp only
  split <;> simp
@[simp] theorem Dev.timerSet_calm (d : Dev) (e : Nat) (iv : Invocation) (t v : Nat) :
    (d.timerSet e iv t v).calm = d.calm := by
  simp [Dev.timerSet]
@[simp] theorem Dev.chkStore_calm (d : Dev) (e a v : Nat) : (d.chkStore e a v).calm = d.calm := by
  simp [Dev.chkStore]
@[simp] theorem Dev.nstore_calm (d : Dev) (e : Nat) (iv : Invocation) (cust : Bool) (a v : Nat) :
    (d.nstore e iv cust a v).calmFrom d := by
  unfold Dev.nstore
  split
  · simp
  split
  · simp
  split
  · split
    · split <;> simp [Dev.portStore_calm]
    · simp
  split
  · simp
  split
  · simp
  split
  · exact Dev.mbxPush_calm d e v
  split
  · simp
  split
  · split <;> simp
  split
  · split <;> simp
  simp
@[simp] theorem Dev.ndlNext_calm (d0 : Dev) (e : Nat) (iv : Invocation) (d : Dev) :
    (Dev.ndlNext d0 e iv d).calm = d.calm := by
  simp [Dev.ndlNext]
@[simp] theorem Dev.nresult_calm (d : Dev) (e : Nat) (r : Fin 16) (x : NResult) : (d.nresult e r x).calm = d.calm := by
  simp [Dev.nresult]; split <;> simp
@[simp] theorem Dev.ndlJump_calm (d : Dev) (e : Nat) (iv : Invocation) (link : Bool) (target : Nat) :
    (d.ndlJump e iv link target).calm = d.calm := by
  simp [Dev.ndlJump]
@[simp] theorem Dev.ndlWait_calm (d : Dev) (e : Nat) (iv : Invocation) (mask : Nat) :
    (d.ndlWait e iv mask).calm = d.calm := by
  simp [Dev.ndlWait]
@[simp] theorem Dev.ndlBrk_calm (d : Dev) (e : Nat) (iv : Invocation) : (d.ndlBrk e iv).calm = d.calm := by
  simp [Dev.ndlBrk]
@[simp] theorem Dev.ndlLd_calm (d : Dev) (e : Nat) (iv : Invocation) (r base : Fin 16) (off : Nat) :
    (d.ndlLd e iv r base off).calm = d.calm := by
  unfold Dev.ndlLd
  split
  · next he => simp [Dev.nload_calm he]
  · simp
@[simp] theorem Dev.ndlSt_calm (d : Dev) (e : Nat) (iv : Invocation) (r base : Fin 16) (off : Nat) :
    (d.ndlSt e iv r base off).calm = d.calm := by
  have h := Dev.nstore_calm d e iv (custRights (d.engine e).pc) (d.naddr e base off) (d.nreg e r)
  unfold Dev.ndlSt
  split
  · next he => rw [he] at h; simpa using h
  · simp
@[simp] theorem Dev.ndlXch_calm (d : Dev) (e : Nat) (iv : Invocation) (r base : Fin 16) (off : Nat) :
    (d.ndlXch e iv r base off).calm = d.calm := by
  simp [Dev.ndlXch]
@[simp] theorem Dev.ndlExec_calm (d : Dev) (e : Nat) (iv : Invocation) (i : NInstr) :
    (d.ndlExec e iv i).calm = d.calm := by
  cases i with
  | mem op r b o => cases op <;> simp [Dev.ndlExec, Dev.ndlLd_calm, Dev.ndlSt_calm]
  | _ => simp [Dev.ndlExec]
@[simp] theorem Dev.ndlRun_calm (d : Dev) (e : Nat) (want : NInstr → Bool) : (d.ndlRun e want).calm = d.calm := by
  unfold Dev.ndlRun
  split
  · split
    · split <;> simp [Dev.ndlExec_calm]
    · rfl
  · rfl
@[simp] theorem Dev.apsSend_calm (d : Dev) (n : Nat) :
    (d.apsSend n).calm = d.calm := by unfold Dev.apsSend; dsimp only; split <;> simp
@[simp] theorem Dev.baseHandler_calm (d : Dev) (ev : HookEv) :
    (d.baseHandler ev).calm = d.calm := by unfold Dev.baseHandler; dsimp only; repeat' split <;> simp
@[simp] theorem Dev.ndlStart_calm (d : Dev) (e : Nat) (ev : HookEv) (h : Nat) (then? : Option Nat) :
    (d.ndlStart e ev h then?).calm = d.calm := by
  simp [Dev.ndlStart]
@[simp] theorem Dev.ndlDispatch_calm (d : Dev) (e : Nat) : (d.ndlDispatch e).calm = d.calm := by
  unfold Dev.ndlDispatch
  dsimp only
  split
  · simp
  · split
    · rfl
    · split <;> simp
@[simp] theorem Dev.ndlEnable_calm (d : Dev) (e : Nat) (was : Bool) : (d.ndlEnable e was).calm = d.calm := by
  simp [Dev.ndlEnable]
@[simp] theorem Dev.ndlSoftReset_calm (d : Dev) (e : Nat) : (d.ndlSoftReset e).calm = d.calm := by
  simp [Dev.ndlSoftReset]
@[simp] theorem Dev.timerFire_calm (d : Dev) (e t : Nat) : (d.timerFire e t).calm = d.calm := by
  simp [Dev.timerFire]; split <;> simp
@[simp] theorem Dev.ndlDataWrite_calm (d : Dev) (e i v : Nat) : (d.ndlDataWrite e i v).calm = d.calm := by
  simp [Dev.ndlDataWrite]
@[simp] theorem Dev.ndlWinWrite_calm (d : Dev) (e i v : Nat) : (d.ndlWinWrite e i v).calm = d.calm := by
  simp [Dev.ndlWinWrite]
@[simp] theorem Dev.ndlEntryWrite_calm (d : Dev) (addr e off v : Nat) :
    (d.ndlEntryWrite addr e off v).calm = d.calm := by
  simp [Dev.ndlEntryWrite]
@[simp] theorem Dev.showPair_calm (d : Dev) : d.showPair.calm = d.calm := by simp [Dev.showPair]
@[simp] theorem Dev.judgeWire_calm (d : Dev) : d.judgeWire.calm = d.calm := by simp [Dev.judgeWire]
@[simp] theorem Dev.isolated_calm (d : Dev) (b : Bool) : (d.isolated b).calm = d.calm := by
  simp [Dev.isolated]
@[simp] theorem Dev.dropJobs_calm (d : Dev) : d.dropJobs.calm = d.calm := by simp [Dev.dropJobs]
@[simp] theorem Dev.rollStop_calm (d : Dev) : d.rollStop.calm = d.calm := by simp [Dev.rollStop]
@[simp] theorem Dev.driveClaim_calm (d : Dev) (b : Bool) : (d.driveClaim b).calm = d.calm := by
  simp [Dev.driveClaim]
@[simp] theorem Dev.nextEpoch_calm (d : Dev) : d.nextEpoch.calm = d.calm := by simp [Dev.nextEpoch]
@[simp] theorem Dev.takeAfes_calm (d : Dev) : d.takeAfes.calm = d.calm := by simp [Dev.takeAfes]
@[simp] theorem Dev.judgeWait_calm (d : Dev) : d.judgeWait.calm = d.calm := by simp [Dev.judgeWait]
@[simp] theorem Dev.judgeIsolated_calm (d : Dev) : d.judgeIsolated.calm = d.calm := by
  simp [Dev.judgeIsolated]
@[simp] theorem Dev.calPort_calm (c : CalData) (items : Nat) (powerUp : Bool) (d : Dev) (n : Nat) :
    (d.calPort c items powerUp n).calm = d.calm := by
  simp [Dev.calPort]
@[simp] theorem Dev.powerCal_calm (d : Dev) (c : CalData) : (d.powerCal c).calm = d.calm := by
  simp [Dev.powerCal]
@[simp] theorem Dev.quietFrame_calm (d : Dev) (n : Nat) : (d.quietFrame n).calm = d.calm := by
  simp [Dev.quietFrame]
@[simp] theorem Dev.rampStep_calm (d : Dev) (r : Ramp) : (d.rampStep r).calm = d.calm := by
  simp [Dev.rampStep]
@[simp] theorem Dev.starchFrame_calm (d : Dev) : d.starchFrame.calm = d.calm := by simp [Dev.starchFrame]
@[simp] theorem Dev.retryPass_calm (d : Dev) (n : Nat) (x : PortItems) (tone : Bool) :
    (d.retryPass n x tone).calm = d.calm := by
  simp [Dev.retryPass]; split <;> simp
@[simp] theorem Dev.markExpert_calm (d : Dev) (n item : Nat) : (d.markExpert n item).calm = d.calm := by
  simp [Dev.markExpert]
@[simp] theorem Dev.loadRegs_calm (d : Dev) (want : Nat → Bool) (xs : List (Nat × Nat)) :
    (d.loadRegs want xs).calm = d.calm := by
  simp [Dev.loadRegs]
@[simp] theorem Dev.loadSel_calm (d : Dev) (x : SelSave) : (d.loadSel x).calm = d.calm := by
  simp [Dev.loadSel]; split <;> simp
@[simp] theorem Dev.needleFromImage_calm (d : Dev) : d.needleFromImage.calm = d.calm := by
  simp [Dev.needleFromImage]
@[simp] theorem Dev.loadNeedle_calm (d : Dev) (crc : Nat) (fields shared : List (Nat × Nat)) :
    (d.loadNeedle crc fields shared).calm = d.calm := by
  simp [Dev.loadNeedle]
@[simp] theorem Dev.loadSection_calm (acc : Dev × PortPlan × List SelSave) (b : CkptBody) :
    (Dev.loadSection acc b).1.calm = acc.1.calm := by
  obtain ⟨d, ports, sels⟩ := acc
  cases b <;> simp [Dev.loadSection]
@[simp] theorem Dev.loadCold_calm (d : Dev) : d.loadCold.1.calm = d.calm := by simp [Dev.loadCold]
@[simp] theorem Dev.applyFields_calm (d : Dev) (p : Page) (inst off v : Nat) :
    (d.applyFields p inst off v).calm = d.calm := by
  simp [Dev.applyFields]
@[simp] theorem Dev.applyWrite_calm (d : Dev) (addr v : Nat) : (d.applyWrite addr v).calm = d.calm := by
  simp [Dev.applyWrite]; split <;> simp
@[simp] theorem Dev.applyPinsNow_calm (d : Dev) : d.applyPinsNow.calm = d.calm := by simp [Dev.applyPinsNow]
@[simp] theorem Dev.applyCommand_calm (d : Dev) (ports : PortPlan) (item : List Nat) :
    (d.applyCommand ports item).1.calm = d.calm := by
  simp [Dev.applyCommand]; split <;> simp
@[simp] theorem Dev.applyEntry_calm (acc : Dev × PortPlan) (e : JrnIn) :
    (Dev.applyEntry acc e).1.calm = acc.1.calm := by
  simp [Dev.applyEntry]; split <;> simp
@[simp] theorem Dev.loadSaved_calm (d : Dev) (x : LineSave) : (d.loadSaved x).calm = d.calm := by
  simp [Dev.loadSaved]
@[simp] theorem Dev.restorePort_calm (d : Dev) (x : LineSave) : (d.restorePort x).calm = d.calm := by
  simp [Dev.restorePort]
@[simp] theorem Dev.followRegs_calm (d0 d : Dev) : (Dev.followRegs d0 d).calm = d.calm := by
  simp [Dev.followRegs]
@[simp] theorem Dev.loadState_calm (d : Dev) : d.loadState.1.calm = d.calm := by
  unfold Dev.loadState
  split
  · simp
  · simp [Dev.loadSection_calm]
@[simp] theorem Dev.echoTake_calm (d0 d : Dev) (l : Nat) : (d0.echoTake d l).calm = d.calm := by
  unfold Dev.echoTake
  extract_lets step
  have hs : ∀ d f get put run sel, (step d f get put run sel).calm = d.calm := fun d f get put run sel => by
    simp only [step]
    split
    · rfl
    · split <;> simp
  split <;> simp [hs]
@[simp] theorem Dev.forceLost_calm (d : Dev) : d.forceLost.calm = d.calm := by simp [Dev.forceLost]
@[simp] theorem Dev.mateRx_calm (d : Dev) (crcOk : Bool) (f : Dev → Dev) (hf : (f d).calm = d.calm) :
    (d.mateRx crcOk f).calm = d.calm := by
  simp [Dev.mateRx, hf]
@[simp] theorem Dev.frameRx_calm (d : Dev) (type : Nat) (ws : List Nat) (f : List Nat → Dev → Dev) (hf : ∀ p d, (f p d).calm = d.calm) :
    (d.frameRx type ws f).calm = d.calm := by
  refine Dev.mateRx_calm _ _ _ ?_
  split <;> simp [hf]
@[simp] theorem Dev.jrnFrames_calm (k : Nat) (es : List JrnOut) (d : Dev) : (Dev.jrnFrames k es d).calm = d.calm := by
  induction k generalizing es d with
  | zero => simp [Dev.jrnFrames]
  | succ k ih => cases es <;> simp [Dev.jrnFrames, ih]
@[simp] theorem Dev.jrnPut_calm (d : Dev) (want : JrnOut → Bool) : (d.jrnPut want).calm = d.calm := by
  simp [Dev.jrnPut, Dev.jrnFrames_calm]
@[simp] theorem Dev.jrnSend_calm (d : Dev) : d.jrnSend.calm = d.calm := by simp [Dev.jrnSend]
@[simp] theorem Dev.jrnResend_calm (d : Dev) (want : JrnOut → Bool) : (d.jrnResend want).calm = d.calm := by
  simp [Dev.jrnResend]
@[simp] theorem Dev.switchDone_calm (d : Dev) (f : StatusFrame) : (d.switchDone f).calm = d.calm := by
  have h : ∀ (d1 : Dev) (tag : Option Nat), d1.calm = d.calm → (match tag with | some t => d1.complete t .ok [f.epoch] | none => d1).calm = d.calm :=
    fun d1 tag h1 => by cases tag <;> simp [h1]
  unfold Dev.switchDone
  split
  · split
    · apply h; simp
    · apply h; simp
    · rfl
  · rfl
@[simp] theorem Dev.takeOffset_calm (d : Dev) (f : StatusFrame) : (d.takeOffset f).calm = d.calm := by
  unfold Dev.takeOffset
  rw [Dev.wr_calm, Dev.wr_calm, Dev.modPair_calm]
@[simp] theorem Dev.setCkptSlot_calm (d : Dev) (gen : Nat) (x : SlotSt) : (d.setCkptSlot gen x).calm = d.calm := by
  simp [Dev.setCkptSlot]
@[simp] theorem Dev.ckptTake_calm (d : Dev) (gen : Nat) (data : CkptData) :
    (d.ckptTake gen data).calm = d.calm := by
  unfold Dev.ckptTake
  dsimp only
  split
  · simp
  · split <;> simp
@[simp] theorem Dev.ckptResend_calm (d : Dev) (gen id : Nat) : (d.ckptResend gen id).calm = d.calm := by
  unfold Dev.ckptResend
  split
  · split
    · split <;> simp
    · rfl
  · rfl
@[simp] theorem Dev.applyNow_calm (d : Dev) (e : JrnIn) : (d.applyNow e).calm = d.calm := by
  unfold Dev.applyNow
  split
  · split <;> simp
  · split <;> simp
  · rfl
@[simp] theorem Dev.followProg_calm (d : Dev) :
    d.followProg.calm = d.calm := by unfold Dev.followProg; dsimp only; split <;> simp
@[simp] theorem Dev.jrnStore_calm (acc : Dev × Bool) (e : JrnIn) :
    (Dev.jrnStore acc e).1.calm = acc.1.calm := by unfold Dev.jrnStore; dsimp only; (repeat' split) <;> simp
@[simp] theorem Dev.journalTakeIn_calm (d : Dev) (p : List Nat) : (d.journalTakeIn p).calm = d.calm := by
  simp [Dev.journalTakeIn]
@[simp] theorem Dev.sampleSrc_calm (bad : List Nat) (acc : Dev × List Rec) (n : Nat) :
    (Dev.sampleSrc bad acc n).1.calm = acc.1.calm := by
  unfold Dev.sampleSrc
  dsimp only
  split
  · rfl
  · split
    · simp
    · simp [apply_ite Prod.snd]
@[simp] theorem Dev.portReset_calm (d : Dev) (n : Nat) : (d.portReset n).calm = d.calm := by
  simp [Dev.portReset]
@[simp] theorem Dev.afecRestart_calm (d : Dev) : d.afecRestart.calm = d.calm := by simp [Dev.afecRestart]
@[simp] theorem Dev.dropQueue_calm (d : Dev) (e : Nat) : (d.dropQueue e).calm = d.calm := by
  simp [Dev.dropQueue]
@[simp] theorem Dev.bistEnd_calm (d : Dev) (r : BistRun) : (d.bistEnd r).calm = d.calm := by
  simp [Dev.bistEnd]
@[simp] theorem Dev.bistStop_calm (d : Dev) :
    d.bistStop.calm = d.calm := by unfold Dev.bistStop; dsimp only; split <;> simp
@[simp] theorem Dev.blockReset_calm (d : Dev) (n : Nat) :
    (d.blockReset n).calm = d.calm := by unfold Dev.blockReset; dsimp only; split <;> (try split) <;> simp
@[simp] theorem Dev.stick_calm (d : Dev) (n : Nat) : (d.stick n).calm = d.calm := by simp [Dev.stick]
@[simp] theorem Dev.latchFirst_calm (d : Dev) (r : Rec) (cls : Nat) (esc : Bool) :
    (d.latchFirst r cls esc).calm = d.calm := by
  simp [Dev.latchFirst]
@[simp] theorem Dev.latchHeader_calm (d : Dev) (r : Rec) (cls : Nat) (conseq : Bool) :
    (d.latchHeader r cls conseq).calm = d.calm := by
  simp [Dev.latchHeader]
@[simp] theorem Dev.recordFault_calm (d : Dev) (r : Rec) (cls : Nat) (esc conseq : Bool) :
    (d.recordFault r cls esc conseq).calm = d.calm := by
  simp [Dev.recordFault]
@[simp] theorem Dev.injRelease_calm (d : Dev) :
    d.injRelease.calm = d.calm := by unfold Dev.injRelease; dsimp only; split <;> simp
@[simp] theorem Dev.injStart_calm (d : Dev) (n mode : Nat) :
    (d.injStart n mode).calm = d.calm := by unfold Dev.injStart; dsimp only; split <;> simp
@[simp] theorem Dev.partStart_calm (d : Dev) (p : Nat) : (d.partStart p).calm = d.calm := by
  simp [Dev.partStart]
@[simp] theorem Dev.partInit_calm (d : Dev) (p : Nat) : (d.partInit p).calm = d.calm := by simp [Dev.partInit]
@[simp] theorem Dev.itemStart_calm (d : Dev) (item : Nat) :
    (d.itemStart item).calm = d.calm := by unfold Dev.itemStart; dsimp only; split <;> simp
@[simp] theorem Dev.itemFail_calm (d : Dev) (item sig : Nat) : (d.itemFail item sig).calm = d.calm := by
  simp [Dev.itemFail]
@[simp] theorem Dev.itemEnd_calm (d : Dev) (item sig : Nat) :
    (d.itemEnd item sig).calm = d.calm := by unfold Dev.itemEnd; dsimp only; split <;> simp
@[simp] theorem Dev.runItemDone_calm (d : Dev) (r : BistRun) (item sig : Nat) :
    (d.runItemDone r item sig).calm = d.calm := by unfold Dev.runItemDone; dsimp only; split <;> simp
@[simp] theorem Dev.rollItemDone_calm (d : Dev) (item sig : Nat) : (d.rollItemDone item sig).calm = d.calm := by
  simp [Dev.rollItemDone]
@[simp] theorem Dev.devAfter_calm (d0 d : Dev) (off : Nat) : (Dev.devAfter d0 d off).calm = d.calm := by
  simp [Dev.devAfter]
@[simp] theorem Dev.recheckDue_calm (d : Dev) (n : Nat) : (d.recheckDue n).calm = d.calm := by
  simp [Dev.recheckDue]
@[simp] theorem Dev.portAfter_calm (d : Dev) (n off v : Nat) : (d.portAfter n off v).calm = d.calm := by
  simp [Dev.portAfter]
@[simp] theorem Dev.tribAfter_calm (d : Dev) (t off v : Nat) : (d.tribAfter t off v).calm = d.calm := by
  simp [Dev.tribAfter]
@[simp] theorem Dev.hamperAfter_calm (d : Dev) (off v : Nat) : (d.hamperAfter off v).calm = d.calm := by
  simp [Dev.hamperAfter]
@[simp] theorem Dev.mangleAfter_calm (d : Dev) (off v : Nat) : (d.mangleAfter off v).calm = d.calm := by
  simp [Dev.mangleAfter]
@[simp] theorem Dev.jlaneAfter_calm (d0 d : Dev) (j off : Nat) : (Dev.jlaneAfter d0 d j off).calm = d.calm := by
  simp [Dev.jlaneAfter]
@[simp] theorem Dev.lintAfter_calm (d : Dev) (off v : Nat) : (d.lintAfter off v).calm = d.calm := by
  simp [Dev.lintAfter]
@[simp] theorem Dev.softRegs_calm (d : Dev) (p : Page) (inst : Nat) : (d.softRegs p inst).calm = d.calm := by
  simp [Dev.softRegs]
@[simp] theorem Dev.configValue_calm (d : Dev) (kv : Nat × Nat) :
    (d.configValue kv).calm = d.calm := by unfold Dev.configValue; dsimp only; split <;> simp
@[simp] theorem Dev.configProg_calm (d : Dev) (p : Nat) : (d.configProg p).calm = d.calm := by
  simp [Dev.configProg]
@[simp] theorem Dev.loadImage_calm (d : Dev) (ws : List Nat) (crc : Nat) (ss : List ImgSection) :
    (d.loadImage ws crc ss).calm = d.calm := by
  simp [Dev.loadImage]
@[simp] theorem Dev.checkBins_calm (d : Dev) : d.checkBins.calm = d.calm := by simp [Dev.checkBins]
@[simp] theorem Dev.bootSource_calm (d : Dev) (step src : Nat) : (d.bootSource step src).calm = d.calm := by
  simp [Dev.bootSource]
@[simp] theorem Dev.bootNext_calm (d : Dev) (step : Nat) : (d.bootNext step).calm = d.calm := by
  simp [Dev.bootNext]
theorem Dev.recordLoad_calm {d d1 : Dev} {step : Nat} {bs : List Nat} {crc : Nat} {signed : Bool} (h : d.recordLoad step bs crc signed = some d1) :
    d1.calm = d.calm := by
  unfold Dev.recordLoad at h
  split at h
  · cases h; simp
  · split at h
    · cases h
    · obtain ⟨ss, _, rfl⟩ := Option.map_eq_some_iff.mp h
      simp
  · split at h <;> cases h; simp
  · split at h <;> cases h; simp
  · split at h <;> cases h; simp
  · split at h <;> cases h; simp
  · cases h
@[simp] theorem Dev.showHdr_calm (d : Dev) : d.showHdr.calm = d.calm := by simp [Dev.showHdr]
@[simp] theorem Dev.modBoot_calm (d : Dev) (f : BootSt → BootSt) : (d.modBoot f).calm = d.calm := by
  simp [Dev.modBoot]
@[simp] theorem Dev.bootRead_calm (d : Dev) (r : BootRead) : (d.bootRead r).calm = d.calm := by
  simp [Dev.bootRead]
@[simp] theorem Dev.journalFrom_calm (d : Dev) (type seq : Nat) : (d.journalFrom type seq).calm = d.calm := by
  simp [Dev.journalFrom]
@[simp] theorem Dev.journalTake_calm (d : Dev) (es : List (Nat × List Nat)) : (d.journalTake es).calm = d.calm := by
  unfold Dev.journalTake
  extract_lets src d0 d1 d2
  have h0 : d0.calm = d.calm := by simp [d0]
  have h1 : d1.calm = d.calm := by
    simp only [d1]
    split
    · split <;> simp [h0]
    · exact h0
  have h2 : d2.calm = d.calm := by simp only [d2]; split <;> simp [h1]
  split <;> simp [h2]
@[simp] theorem Dev.perstReset_calm (d : Dev) : d.perstReset.calm = d.calm := by simp [Dev.perstReset]
@[simp] theorem Dev.takeItem_calm (d : Dev) (ws : List Nat) : (d.takeItem ws).calm = d.calm := by
  simp [Dev.takeItem]
@[simp] theorem Dev.shadowFrame_calm (d : Dev) : d.shadowFrame.calm = d.calm := by simp [Dev.shadowFrame]
@[simp] theorem Dev.heartbeat_calm (d : Dev) : d.heartbeat.calm = d.calm := by simp [Dev.heartbeat]
@[simp] theorem Dev.sigZero_calm (d : Dev) : d.sigZero.calm = d.calm := by simp [Dev.sigZero]
@[simp] theorem Dev.accountBoundary_calm (d : Dev) : d.accountBoundary.calm = d.calm := by
  simp [Dev.accountBoundary]
@[simp] theorem Dev.mirFrame_calm (first k : Nat) (ss : List (Nat × List Nat)) (d : Dev) :
    (Dev.mirFrame first k ss d).calm = d.calm := by
  induction k generalizing ss d with
  | zero => simp [Dev.mirFrame]
  | succ k ih => cases ss <;> simp [Dev.mirFrame, ih]
@[simp] theorem Dev.mirrorWords_calm (d : Dev) (mf : Nat) : (d.mirrorWords mf).calm = d.calm := by
  simp [Dev.mirrorWords, Dev.mirFrame_calm]
@[simp] theorem Dev.mfBoundary_calm (d : Dev) (b : Nat) : (d.mfBoundary b).calm = d.calm := by
  simp [Dev.mfBoundary]
@[simp] theorem Dev.pmSecondEnd_calm (d : Dev) : d.pmSecondEnd.calm = d.calm := by simp [Dev.pmSecondEnd]
@[simp] theorem Dev.wallTick_calm (d : Dev) (t : Nat) : (d.wallTick t).calm = d.calm := by simp [Dev.wallTick]
@[simp] theorem Dev.snapCopy_calm (d : Dev) (x : Snapshot) : (d.snapCopy x).calm = d.calm := by
  unfold Dev.snapCopy
  extract_lets f d1 seq secs t src
  have h1 : d1.calm = d.calm := by
    refine Dev.calm_foldl _ _ d ?_
    intro d n
    refine Dev.calm_foldl _ _ d ?_
    intro d i
    simp
  clear_value d1
  simp [h1]
@[simp] theorem Dev.tick_calm (d : Dev) : d.tick.calm = d.calm := by simp [Dev.tick]

end Sys2Proof.Machine

end

section

/-! SUPPORT. The effects that do alter the device state or the Hamper's memory: from which state to which each goes, and that the memory
keeps its canonical form. -/

set_option Elab.async false

namespace Sys2Proof.Machine

/-- An effect that leaves the device state or takes it where `R` allows, and keeps the Hamper's memory in its canonical form. -/
def Dev.Turns (R : Mode → List Mode) (d e : Dev) : Prop :=
  (e.calm.1 = d.calm.1 ∨ e.calm.1 ∈ R d.calm.1) ∧ (FMap.wf 0 d.calm.2 = true → FMap.wf 0 e.calm.2 = true)

/-- One move after the other, where each may also be left out. -/
def Mode.andThen (R S : Mode → List Mode) (a : Mode) : List Mode := R a ++ S a ++ (R a).flatMap S

/-- From RUN to STANDBY. -/
def Mode.demotes : Mode → List Mode
  | .run => [.standby]
  | _ => []

/-- From STANDBY to RUN. -/
def Mode.takesOver : Mode → List Mode
  | .standby => [.run]
  | _ => []

/-- From READY to the role resolved. -/
def Mode.resolves : Mode → List Mode
  | .ready => [.run, .standby]
  | _ => []

/-- To SAFE from every state but RESET. -/
def Mode.fails : Mode → List Mode
  | .reset => []
  | _ => [.safe]

/-- To READY, and on to a role, from the states in `from_`. -/
def Mode.readies (from_ : List Mode) (a : Mode) : List Mode := if a ∈ from_ then [.ready, .run, .standby] else []

/-- The states of R26. -/
def Mode.all : List Mode := [.reset, .boot, .cal, .ready, .run, .standby, .maint, .safe]

/-- What one step may do (Mode.moves). -/
def Mode.next (a : Mode) : List Mode := Mode.all.filter (fun b => a.moves b)

/-- Where `R` allows a move, `S` allows it too. -/
def Mode.within (R S : Mode → List Mode) : Bool := Mode.all.all (fun a => (R a).all (fun b => b == a || (S a).contains b))

theorem Dev.calm_fst (d : Dev) : d.calm.1 = d.mode := by unfold Dev.calm; rfl

theorem Dev.calm_snd (d : Dev) : d.calm.2 = d.hamper.mem := by unfold Dev.calm; rfl

theorem Dev.Turns.of_calm {R : Mode → List Mode} {d e : Dev} (h : e.calm = d.calm) : Dev.Turns R d e := by
  simp [Dev.Turns, h]

theorem Dev.Turns.refl {R : Mode → List Mode} (d : Dev) : Dev.Turns R d d := .of_calm rfl

theorem Dev.Turns.trans {R S : Mode → List Mode} {d e f : Dev} (h : Dev.Turns R d e) (h' : Dev.Turns S e f) :
    Dev.Turns (Mode.andThen R S) d f := by
  obtain ⟨hm, hw⟩ := h
  obtain ⟨hm', hw'⟩ := h'
  refine ⟨?_, fun hd => hw' (hw hd)⟩
  simp only [Mode.andThen, List.mem_append, List.mem_flatMap]
  rcases hm with hm | hm <;> rcases hm' with hm' | hm'
  · exact .inl (hm'.trans hm)
  · rw [hm] at hm'
    exact .inr (.inl (.inr hm'))
  · rw [hm']
    exact .inr (.inl (.inl hm))
  · exact .inr (.inr ⟨_, hm, hm'⟩)

theorem Dev.Turns.mono {R S : Mode → List Mode} {d e : Dev} (h : Dev.Turns R d e) (hRS : Mode.within R S = true) : Dev.Turns S d e := by
  obtain ⟨hm, hw⟩ := h
  refine ⟨hm.elim .inl fun hm => ?_, hw⟩
  have ha : d.calm.1 ∈ Mode.all := by cases d.calm.1 <;> decide
  simpa using List.all_eq_true.mp (List.all_eq_true.mp hRS _ ha) _ hm

theorem Dev.Turns.calm_left {R : Mode → List Mode} {d d' e : Dev} (hd : d'.calm = d.calm) (h : Dev.Turns R d' e) : Dev.Turns R d e := by
  rwa [Dev.Turns, hd] at h

theorem Dev.Turns.calm_right {R : Mode → List Mode} {d e e' : Dev} (h : Dev.Turns R d e) (he : e'.calm = e.calm) : Dev.Turns R d e' := by
  rwa [Dev.Turns, ← he] at h

theorem Dev.Turns.ite {R : Mode → List Mode} {d e f : Dev} (c : Prop) [Decidable c] (he : c → Dev.Turns R d e) (hf : ¬ c → Dev.Turns R d f) :
    Dev.Turns R d (if c then e else f) := by
  split
  · exact he ‹_›
  · exact hf ‹_›

/-- A move made from one state only. -/
theorem Dev.Turns.of_mode {R : Mode → List Mode} {d e : Dev} {a b : Mode} (ha : d.mode = a) (he : e.calm = (b, d.calm.2)) (hb : b ∈ R a) :
    Dev.Turns R d e := by
  refine ⟨.inr ?_, ?_⟩
  · rw [Dev.calm_fst d, ha, he]
    exact hb
  · rw [he]
    exact id

@[simp] theorem Dev.enterMode_calm (d : Dev) (m : Mode) : (d.enterMode m).calm = (m, d.calm.2) := by
  simp [Dev.enterMode, ← Dev.calm_snd]

@[simp] theorem Dev.enterStandby_calm (d : Dev) : d.enterStandby.calm = (.standby, d.calm.2) := by
  simp [Dev.enterStandby, ← Dev.calm_snd]
  simp [← Dev.calm_fst]

@[simp] theorem Dev.demote_calm (d : Dev) (cause : Nat) : (d.demote cause).calm = (.standby, d.calm.2) := by
  unfold Dev.demote
  dsimp only
  split
  · split <;> simp
  · simp

@[simp] theorem Dev.activate_calm (d : Dev) (cause trigger : Nat) : (d.activate cause trigger).calm = (.run, d.calm.2) := by
  simp [Dev.activate]

theorem Dev.enterSafe_turns (d : Dev) : Dev.Turns Mode.fails d d.enterSafe := by
  by_cases h : d.mode = .safe ∨ d.mode = .reset
  · simp only [Dev.enterSafe, h]
    exact .refl _
  · refine .of_mode rfl (b := .safe) ?_ ?_
    · simp [Dev.enterSafe, h]
    · rw [not_or] at h
      unfold Mode.fails; split
      · exact absurd ‹_› h.2
      · simp

theorem Dev.mode_eq_of_calm {d e : Dev} (h : e.calm = d.calm) : e.mode = d.mode := by
  rw [← e.calm_fst, h, d.calm_fst]

theorem Dev.judgeRole_turns (d : Dev) : Dev.Turns Mode.resolves d d.judgeRole := by
  refine .calm_left (d' := d.judgeWait) (by simp) ?_
  unfold Dev.judgeRole
  generalize d.judgeWait = d
  by_cases hready : (!d.paired || d.mode != .ready || !d.pair.resolving) = true
  · simp only [hready, if_true]
    exact .refl d
  have hmode : d.mode = .ready := by
    simp only [Bool.or_eq_true, not_or] at hready
    simpa using hready.1.2
  have hrun : ∀ e : Dev, e.calm = (.run, d.calm.2) → Dev.Turns Mode.resolves d e := fun e he => .of_mode hmode he (by decide)
  have hstandby : ∀ e : Dev, e.calm = (.standby, d.calm.2) → Dev.Turns Mode.resolves d e := fun e he => .of_mode hmode he (by decide)
  refine .ite _ (fun _ => .refl d) (fun _ => .ite _ (fun _ => .of_calm (by simp)) (fun _ => .ite _ (fun _ => hstandby _ (by simp)) (fun _ =>
    .ite _ (fun _ => ?_) (fun _ => .ite _ (fun _ => .of_calm (by simp)) (fun _ => ?_)))))
  · split
    · exact .of_calm (by simp)
    · exact .ite _ (fun _ => hrun _ (by simp)) (fun _ => .ite _ (fun _ => hrun _ (by simp)) (fun _ => hstandby _ (by simp)))
  · split
    · exact .ite _ (fun _ => .of_calm (by simp)) (fun _ => .ite _ (fun _ => hrun _ (by simp)) (fun _ => .of_calm (by simp)))
    · exact .refl d

theorem Dev.resolveStart_turns (d : Dev) : Dev.Turns Mode.resolves d d.resolveStart := by
  unfold Dev.resolveStart
  split
  · exact (Dev.judgeRole_turns _).calm_left (by simp)
  · exact .refl d

/-- What the entry into READY leads to. -/
theorem Dev.enterReady_turns {R : Mode → List Mode} {d : Dev} (h : R d.mode = [.ready, .run, .standby]) : Dev.Turns R d d.enterReady := by
  have hready : Dev.Turns R d (d.enterMode .ready).showPair := .of_mode rfl (b := .ready) (by simp) (by simp [h])
  unfold Dev.enterReady
  dsimp only
  split
  · obtain ⟨hm, hw⟩ := Dev.resolveStart_turns (d.enterMode .ready).showPair
    refine ⟨.inr ?_, ?_⟩
    · rw [d.calm_fst, h]
      simpa [Mode.resolves] using hm
    · simpa using hw
  · exact hready

theorem Dev.judgeEcho_turns (d : Dev) : Dev.Turns Mode.demotes d d.judgeEcho := by
  unfold Dev.judgeEcho
  dsimp only
  split
  · refine .of_mode (a := .run) (b := .standby) ?_ (by simp) (by decide)
    simp_all [Dev.pairActive]
  · exact .refl d

theorem Dev.judgePins_turns (d : Dev) : Dev.Turns Mode.demotes d d.judgePins := by
  unfold Dev.judgePins
  dsimp only
  split
  · refine .of_mode (a := .run) (b := .standby) ?_ (by simp) (by decide)
    simp_all [Dev.pairActive]
  · exact .refl d

theorem Dev.echoFollow_turns (d0 d : Dev) : Dev.Turns Mode.demotes d (Dev.echoFollow d0 d) := by
  unfold Dev.echoFollow
  split
  · exact (Dev.judgeEcho_turns _).calm_left (by simp)
  · exact .refl d


/-- The Hamper's memory in its canonical form. -/
def Dev.memWf (d : Dev) : Prop := FMap.wf 0 d.calm.2 = true

/-- An effect that keeps the device state, and the Hamper's memory in its canonical form. -/
theorem Dev.Turns.of_mem {R : Mode → List Mode} {d e : Dev} (hm : e.calm.1 = d.calm.1) (hw : d.memWf → e.memWf) : Dev.Turns R d e :=
  ⟨.inl hm, hw⟩

/-- The effects that write the memory leave the device state. -/
def Dev.Stores (d e : Dev) : Prop := e.calm.1 = d.calm.1 ∧ (d.memWf → e.memWf)

theorem Dev.Stores.of_calm {d e : Dev} (h : e.calm = d.calm) : Dev.Stores d e := by
  simp [Dev.Stores, Dev.memWf, h]

theorem Dev.Stores.trans {d e f : Dev} (h : Dev.Stores d e) (h' : Dev.Stores e f) : Dev.Stores d f :=
  ⟨h'.1.trans h.1, fun hd => h'.2 (h.2 hd)⟩

theorem Dev.Stores.calm_left {d d' e : Dev} (hd : d'.calm = d.calm) (h : Dev.Stores d' e) : Dev.Stores d e :=
  (Dev.Stores.of_calm hd).trans h

theorem Dev.Stores.calm_right {d e e' : Dev} (h : Dev.Stores d e) (he : e'.calm = e.calm) : Dev.Stores d e' :=
  h.trans (.of_calm he)

theorem Dev.Stores.foldl {α : Type} (g : Dev → α → Dev) (hg : ∀ d a, Dev.Stores d (g d a)) (xs : List α) (d : Dev) :
    Dev.Stores d (xs.foldl g d) := by
  induction xs generalizing d with
  | nil => exact .of_calm rfl
  | cons a xs ih => exact (hg d a).trans (ih (g d a))

theorem Dev.Stores.ite {d e f : Dev} (c : Prop) [Decidable c] (he : c → Dev.Stores d e) (hf : ¬ c → Dev.Stores d f) :
    Dev.Stores d (if c then e else f) := by
  split
  · exact he ‹_›
  · exact hf ‹_›

theorem Dev.Stores.turns {R : Mode → List Mode} {d e : Dev} (h : Dev.Stores d e) : Dev.Turns R d e := ⟨.inl h.1, h.2⟩

theorem Dev.ddrWrite_stores (d : Dev) (la : Nat) (bytes : List Nat) : Dev.Stores d (d.ddrWrite la bytes) := by
  refine ⟨by simp [Dev.ddrWrite, ← Dev.calm_fst], fun h => ?_⟩
  unfold Dev.memWf at h ⊢
  rw [Dev.calm_snd] at h ⊢
  exact Dev.ddrWrite_wf d la bytes h

theorem Dev.recWrite_stores (d : Dev) (k : Nat) (x : RecStream) (mf wall : Nat) : Dev.Stores d (d.recWrite k x mf wall) := by
  unfold Dev.recWrite
  split
  · exact .of_calm rfl
  · split
    · exact .of_calm rfl
    · split
      · exact .of_calm rfl
      · extract_lets i d1 r
        have h1 : Dev.Stores d d1 := (Dev.ddrWrite_stores d _ _).trans (.of_calm (Dev.inc_calm ..))
        exact h1.calm_right (by simp)

theorem Dev.periodBoundary_stores (d : Dev) : Dev.Stores d d.periodBoundary := by
  unfold Dev.periodBoundary
  extract_lets mf ended start d0 d1 d2 wall d1' stay start? d2' d3 d4 d5
  have h0 : d0.calm = d.calm := by simp [d0]
  split
  · have h2 : d2.calm = d.calm := by simp [d2, d1, h0]
    split
    · exact .of_calm h2
    · exact .of_calm (by simp [h2])
  · have h1 : Dev.Stores d d1' := by
      refine .calm_left h0 (.foldl _ ?_ _ _)
      intro d e
      split
      · exact Dev.recWrite_stores ..
      · exact .of_calm rfl
    have hstay : stay.calm = d1'.calm := by simp [stay]
    have h2 : d2'.calm = stay.calm := by
      simp only [d2']
      rw [Dev.calm_foldl _ _ _ Dev.recUnrefuse_calm, Dev.calm_foldl _ _ _ Dev.recStep_calm]
    clear_value d1' stay start? d2'
    have hopened : ∀ e : Dev, (e.modHamper (fun h => { h with
        nextFirst := []
        refused := h.refused.filter e.recWaits
        perWall := wall
        periods := ⟨start, none⟩ :: h.periods })).calm = e.calm := fun e => (Dev.modHamper_calm ..).trans e.calm_eta
    have h3 : d3.calm = d2'.calm := hopened d2'
    clear_value d3
    have h4 : d4.calm = d3.calm := by simp [d4]
    clear_value d4
    have h5 : d5.calm = d4.calm := by simp [d5]
    clear_value d5
    have h : d5.calm = d1'.calm := by rw [h5, h4, h3, h2, hstay]
    split
    · exact h1.calm_right (by simp [h])
    · exact h1.calm_right h

theorem Dev.mirWrite_stores (d : Dev) (p : MirPeriod) : Dev.Stores d (d.mirWrite p) := by
  unfold Dev.mirWrite
  refine .foldl _ (fun d r => ?_) _ _
  refine .calm_left (d' := d.setRank r.rank ((d.rank r.rank).mirror r p.start p.epoch)) (by simp) (.foldl _ (fun d x => ?_) _ _)
  exact (Dev.ddrWrite_stores d _ _).trans (.of_calm (Dev.inc_calm ..))

theorem Dev.mirClose_stores (d : Dev) : Dev.Stores d d.mirClose := by
  unfold Dev.mirClose
  extract_lets d1
  have h1 : Dev.Stores d d1 := by
    simp only [d1]
    split
    · split
      · exact .of_calm (by simp)
      · exact Dev.mirWrite_stores ..
    · exact .of_calm (by simp)
  exact h1.calm_right (by simp)

theorem Dev.mirTake_stores (d : Dev) (seq : Nat) (data : MirData) : Dev.Stores d (d.mirTake seq data) := by
  unfold Dev.mirTake
  extract_lets gap d1
  have h1 : d1.calm = d.calm := by simp [d1]
  cases data with
  | layout start epoch mf wall ranks =>
    have h2 : Dev.Stores d d1.mirClose := (Dev.mirClose_stores d1).calm_left h1
    refine .ite _ (fun _ => .of_calm (by simp [h1])) fun _ => ?_
    exact h2.calm_right (by simp; rfl)
  | words first ws =>
    refine Dev.Stores.calm_right (.ite _ (fun _ => ?_) (fun _ => .of_calm h1)) (Dev.modPair_calm ..)
    exact ((Dev.mirClose_stores _).calm_left ((Dev.modPair_calm ..).trans h1)).calm_right (Dev.modPair_calm ..)

theorem Dev.takeover_turns (d : Dev) (cause : Nat) : Dev.Turns Mode.takesOver d (d.takeover cause) := by
  unfold Dev.takeover
  split
  · exact .refl d
  next hstandby =>
    have hmode : d.mode = .standby := by simp_all
    extract_lets dm
    have hdm : Dev.Stores d dm := by
      simp only [dm]
      split
      · exact Dev.mirClose_stores d
      · exact .of_calm rfl
    have hload := Dev.loadState_calm dm
    split
    next d1 ports sels hl =>
    rw [hl] at hload
    extract_lets d2 arch hamper d3 d4 d5
    have h3 : d3.calm = dm.calm := by simp [d3, d2, hamper, ← Dev.calm_snd, ← Dev.calm_fst, hload]
    have h4 : d4.calm = (.run, dm.calm.2) := by simp [d4, h3]
    have h5 : d5.calm = (.run, dm.calm.2) := by simp [d5, h4]
    refine Dev.Turns.calm_right ⟨.inr ?_, ?_⟩ (e := d5) (by simp)
    · simp [h5, d.calm_fst, hmode, Mode.takesOver]
    · rw [h5]
      exact hdm.2

theorem Dev.silentPeer_turns (d : Dev) : Dev.Turns Mode.takesOver d d.silentPeer := by
  unfold Dev.silentPeer
  exact .ite _ (fun _ => .refl d) (fun _ => .ite _ (fun _ => d.takeover_turns 1) (fun _ => .ite _ (fun _ => d.takeover_turns 2) (fun _ => .refl d)))

/-- A demotion of the active unit. -/
theorem Dev.demote_turns {d : Dev} (h : d.mode = .run) (cause : Nat) : Dev.Turns Mode.demotes d (d.demote cause) :=
  .of_mode h (b := .standby) (by simp) (by decide)

theorem Dev.mode_of_pairActive {d : Dev} (h : d.pairActive = true) : d.mode = .run := by
  unfold Dev.pairActive at h
  simp only [Bool.and_eq_true] at h
  simpa using h.2

theorem Dev.handOver_turns {d : Dev} (h : d.pairActive = true) : Dev.Turns Mode.demotes d d.handOver := by
  unfold Dev.handOver
  split
  · exact .of_mode (d.mode_of_pairActive h) (b := .standby) (by simp) (by decide)
  · exact .refl d

theorem Dev.switchTry_turns (d : Dev) : Dev.Turns Mode.demotes d d.switchTry := by
  unfold Dev.switchTry
  split
  · exact .ite _ (fun h => Dev.handOver_turns h.1) (fun _ => .refl d)
  · exact .refl d

theorem Dev.switchStart_turns (d : Dev) (tag : Option Nat) : Dev.Turns Mode.demotes d (d.switchStart tag) :=
  (Dev.switchTry_turns _).calm_left (by simp)

theorem Dev.pairCtl_turns (d : Dev) (v : Nat) : Dev.Turns Mode.resolves d (d.pairCtl v) := by
  unfold Dev.pairCtl
  extract_lets d1 d3 d2
  have h1 : d1.calm = d.calm := by simp [d1]
  have h2 : Dev.Turns Mode.resolves d d2 := by
    refine .ite _ (fun _ => ?_) (fun _ => .of_calm h1)
    exact (d1.resolveStart_turns.calm_left h1).calm_right (e := d3) (by simp)
  refine .ite _ (fun h => ?_) (fun _ => h2)
  have hready : d2.mode = .ready := by
    simp only [Bool.and_eq_true] at h
    simpa using h.1.1.2
  exact (h2.trans (.of_mode (R := Mode.resolves) hready (b := .run) (by simp) (by decide))).mono (by decide)

theorem Dev.statusTake_turns (d : Dev) (f : StatusFrame) : Dev.Turns (Mode.andThen Mode.demotes Mode.resolves) d (d.statusTake f) := by
  unfold Dev.statusTake
  extract_lets newEpoch beat d1 d2 bad d3 lost d4 rule1 d5
  have h4 : d4.calm = d.calm := by simp [d4, d3, d2, d1]
  have h5 : Dev.Turns Mode.demotes d d5 := by
    refine .ite _ (fun h => ?_) (fun _ => .of_calm h4)
    rw [Bool.and_eq_true] at h
    exact (Dev.demote_turns (d4.mode_of_pairActive h.1) 8).calm_left h4
  exact (h5.trans d5.judgeRole_turns).calm_right (by simp)

theorem Dev.takeFault_turns (d : Dev) (r : Rec) : Dev.Turns Mode.fails d (d.takeFault r) := by
  unfold Dev.takeFault
  extract_lets conseq cls esc d1 ts
  have h1 : d1.calm = d.calm := by simp [d1]
  exact .ite _ (fun _ => d1.enterSafe_turns.calm_left h1) (fun _ => .ite _ (fun _ => .of_calm (by simp [h1])) (fun _ => .of_calm h1))

theorem Dev.Turns.foldl {α : Type} {R : Mode → List Mode} (hR : Mode.within (Mode.andThen R R) R = true) (g : Dev → α → Dev)
    (hg : ∀ d a, Dev.Turns R d (g d a)) (xs : List α) (d : Dev) : Dev.Turns R d (xs.foldl g d) := by
  induction xs generalizing d with
  | nil => exact .refl d
  | cons a xs ih => exact ((hg d a).trans (ih (g d a))).mono hR

theorem Dev.lintWindow_turns (d : Dev) (bad : List Nat) : Dev.Turns Mode.fails d (d.lintWindow bad) := by
  unfold Dev.lintWindow
  extract_lets bad'
  have hs := foldl_keeps (fun x : Dev × List Rec => x.1.calm) (Dev.sampleSrc bad') (fun x n => Dev.sampleSrc_calm bad' x n)
    (d.windowSrcs bad') (d, [])
  split
  next d1 rs hfold =>
  rw [hfold] at hs
  extract_lets lint d2
  have h2 : d2.calm = d.calm := by
    rw [← show d1.calm = d.calm from hs]
    simp [d2]
  exact ((Dev.Turns.foldl (by decide) _ Dev.takeFault_turns _ d2).calm_left h2).calm_right (Dev.presentCond_calm _)

/-- Where a write of a page's word may take the device state: PAIR's words alone move it (R387, R404). -/
def Mode.writes (p : Page) (off : Nat) : Mode → List Mode :=
  if p = .pair then (if off = 0x44 then Mode.resolves else Mode.demotes) else fun _ => []

theorem Dev.pageAfter_turns (d0 d : Dev) (p : Page) (inst off v : Nat) (hoff : ¬ (p = .pair ∧ off = 0x44)) :
    Dev.Turns (Mode.writes p off) d (Dev.pageAfter d0 d p inst off v) := by
  unfold Dev.pageAfter
  extract_lets d1
  have h1 : d1.calm = d.calm := by simp [d1]
  clear_value d1
  cases p
  case pair =>
    rw [Mode.writes, if_pos rfl, if_neg (by simpa using hoff)]
    exact .ite _ (fun _ => (d1.judgeEcho_turns.calm_left h1).calm_right (by simp)) (fun _ => .of_calm h1)
  all_goals exact .of_calm (by simp [h1])

theorem Dev.pageWrite_turns (d : Dev) (a : Nat) (p : Page) (inst off v : Nat) :
    Dev.Turns (Mode.writes p off) d (d.pageWrite a p inst off v) := by
  unfold Dev.pageWrite
  refine .ite _ (fun _ => .refl d) (fun _ => ?_)
  split
  · exact .of_calm (by simp)
  · refine .ite _ (fun _ => .of_calm (by simp)) (fun _ => .ite _ (fun _ => .of_calm (by simp)) (fun _ => .ite _ (fun h => ?_) (fun h => ?_)))
    · rw [Mode.writes, if_pos h.1, if_pos h.2]
      exact d.pairCtl_turns v
    · exact (Dev.pageAfter_turns d _ p inst off v h).calm_left (by simp)

/-- The moves of a write: the role resolved, or a demotion. -/
def Mode.roles : Mode → List Mode := Mode.andThen Mode.resolves Mode.demotes

theorem Dev.busWrite_turns (d : Dev) (a v : Nat) : Dev.Turns Mode.roles d (d.busWrite a v) := by
  unfold Dev.busWrite
  refine .ite _ (fun _ => .refl d) (fun _ => ?_)
  split
  next p inst off _ =>
    have hw : Mode.within (Mode.writes p off) Mode.roles = true := by
      unfold Mode.writes
      (repeat' split) <;> decide
    exact (d.pageWrite_turns a p inst off v).mono hw
  all_goals exact .of_calm (by simp)

theorem Dev.ctrlWrite_turns (d : Dev) (a : Nat) (p : Page) (inst v : Nat) : Dev.Turns Mode.demotes d (d.ctrlWrite a p inst v) := by
  unfold Dev.ctrlWrite
  extract_lets d1
  have h1 : d1.calm = d.calm := by simp [d1]
  clear_value d1
  cases p
  case pair => exact (d1.judgeEcho_turns.calm_left h1).calm_right (by simp)
  all_goals exact .of_calm (by simp [h1])

theorem Dev.softStart_turns (d : Dev) (a : Nat) (p : Page) (inst v : Nat) : Dev.Turns Mode.demotes d (d.softStart a p inst v) := by
  unfold Dev.softStart
  extract_lets d1 d2
  have h1 : Dev.Turns Mode.demotes d d1 := d.ctrlWrite_turns a p inst v
  have h2 : d2.calm = d1.calm := by
    cases p
    all_goals simp [d2]
  exact h1.calm_right (by simp [h2])

/-- The end of a run of a block that is reset: CAL ends where it came from. -/
def Mode.calEnds : Mode → List Mode
  | .cal => [.ready, .maint]
  | _ => []

theorem Dev.softEnd_turns (d : Dev) (p : Page) : Dev.Turns (fun a => if p = .starch then Mode.calEnds a else []) d (d.softEnd p) := by
  unfold Dev.softEnd
  extract_lets tags d1
  refine .ite _ (fun _ => .refl d) (fun _ => ?_)
  have h1 : d1.calm = d.calm := by simp [d1]
  refine .ite _ (fun h => ?_) (fun _ => .of_calm h1)
  obtain ⟨hp, hcal, _⟩ := h
  simp only [hp, if_true]
  refine .calm_left h1 (.ite _ (fun _ => ?_) (fun _ => ?_))
  · exact .of_mode hcal (b := .maint) (by simp [← Dev.calm_snd]) (by decide)
  · exact .of_mode hcal (b := .ready) (by simp [← Dev.calm_snd]) (by decide)

theorem Dev.pairRestart_turns (d : Dev) : Dev.Turns Mode.demotes d d.pairRestart := by
  unfold Dev.pairRestart
  extract_lets t reset d1 d2 d3
  have h3 : d3.calm = d.calm := by simp [d3, d2, d1]
  exact (d3.judgeEcho_turns.calm_left h3).calm_right (by simp)

theorem Dev.softLogic_turns (d0 d : Dev) (p : Page) (inst : Nat) :
    Dev.Turns (fun a => if p = .pair then Mode.demotes a else []) d (Dev.softLogic d0 d p inst) := by
  unfold Dev.softLogic
  cases p
  case pair => exact d.pairRestart_turns
  case hamper =>
    dsimp only
    refine .ite _ (fun _ => .of_calm ?_) (fun _ => .of_calm ?_) <;> simp [← Dev.calm_fst, ← Dev.calm_snd]
  all_goals exact .of_calm (by simp)

theorem Dev.softDone_turns (d : Dev) (p : Page) (inst : Nat) :
    Dev.Turns (Mode.andThen Mode.calEnds Mode.demotes) d (d.softDone p inst) := by
  unfold Dev.softDone
  have h := ((d.softEnd_turns p).calm_right (e' := (d.softEnd p).softRegs p inst) (by simp)).trans
    (Dev.softLogic_turns (d.softEnd p) ((d.softEnd p).softRegs p inst) p inst)
  exact h.mono (by by_cases h1 : p = .starch <;> by_cases h2 : p = .pair <;> simp only [h1, h2] <;> decide)

/-- The effects of reset: the state is RESET and the memory is empty. -/
theorem Dev.Turns.of_reset {R : Mode → List Mode} {d e : Dev} (he : e.calm = (.reset, [])) (hR : .reset ∈ R d.mode) : Dev.Turns R d e :=
  ⟨.inr (by rw [he, d.calm_fst]; exact hR), fun _ => by rw [he]; decide⟩

@[simp] theorem Dev.held_calm (d : Dev) : d.held.calm = (.reset, []) := by unfold Dev.calm; rfl

@[simp] theorem Dev.released_calm (d : Dev) : d.released.calm = (.reset, []) := by unfold Dev.calm; rfl

@[simp] theorem Dev.internal_calm (d : Dev) (at_ from_ : Option Nat) : (d.internal at_ from_).calm = (.reset, []) := by unfold Dev.calm; rfl

@[simp] theorem Dev.latchStraps_calm (d : Dev) (pcie test src role : Nat) : (d.latchStraps pcie test src role).calm = (.boot, d.calm.2) := by
  simp [Dev.latchStraps, ← Dev.calm_snd]

theorem Dev.recordMissing_turns (d : Dev) (step : Nat) : Dev.Turns Mode.fails d (d.recordMissing step) := by
  unfold Dev.recordMissing
  extract_lets d1 d2
  have h1 : d1.calm = d.calm := by simp [d1]
  clear_value d1
  split
  · exact (Dev.enterSafe_turns _).calm_left (by simp [d2, h1])
  all_goals exact .of_calm (by simp [h1])

theorem Dev.recordBad_turns (d : Dev) (copy : Bool) : Dev.Turns Mode.fails d (d.recordBad copy) := by
  unfold Dev.recordBad
  extract_lets step
  refine .ite _ (fun _ => d.recordMissing_turns step) (fun _ => ?_)
  split
  · exact .of_calm (by simp)
  · exact d.recordMissing_turns step
  · exact .of_calm (by simp)

theorem Dev.headerRead_turns (d : Dev) (copy : Bool) (dir : Option (List DirEntry)) : Dev.Turns Mode.fails d (d.headerRead copy dir) := by
  unfold Dev.headerRead
  extract_lets ok es d1
  have h1 : d1.calm = d.calm := by simp [d1]
  clear_value d1
  exact .ite _ (fun _ => .ite _ (fun _ => .of_calm (by simp [h1])) (fun _ => .ite _ (fun _ => .of_calm (by simp [h1]))
    (fun _ => (d1.recordMissing_turns 3).calm_left h1)))
    (fun _ => .ite _ (fun _ => .of_calm (by simp [h1])) (fun _ => (d1.recordMissing_turns _).calm_left h1))

theorem Dev.recordRead_turns (d : Dev) (copy : Bool) (ws : List Nat) (sig : Bool) : Dev.Turns Mode.fails d (d.recordRead copy ws sig) := by
  unfold Dev.recordRead
  extract_lets step d1
  have h1 : d1.calm = d.calm := by simp [d1]
  clear_value d1
  split
  · split
    next hload => exact .of_calm (by rw [Dev.recordLoad_calm hload]; simp [h1])
    · exact d.recordBad_turns copy
  · exact d.recordBad_turns copy

theorem Dev.enterCal_calm (d : Dev) : d.enterCal.calm = (.cal, d.calm.2) := by
  simp [Dev.enterCal, ← Dev.calm_snd]

theorem Dev.leaveRun_turns {R : Mode → List Mode} {d : Dev} (h : R d.mode = [.ready, .run, .standby]) : Dev.Turns R d d.leaveRun := by
  unfold Dev.leaveRun
  refine (Dev.enterReady_turns (R := R) ?_).calm_left (by simp)
  rw [Dev.mode_eq_of_calm (d := d) (by simp), h]

theorem Dev.leaveStep_turns {R : Mode → List Mode} {d : Dev} (tag : Nat) (h : R d.mode = [.ready, .run, .standby]) :
    Dev.Turns R d (d.leaveStep tag) := by
  unfold Dev.leaveStep
  extract_lets d1
  have h1 : d1.calm = d.calm := by simp [d1]
  refine .ite _ (fun _ => ?_) (fun _ => .of_calm h1)
  refine ((Dev.leaveRun_turns (R := R) ?_).calm_left h1).calm_right (by simp)
  rw [Dev.mode_eq_of_calm h1, h]

theorem Dev.moveFrame_turns (d : Dev) : Dev.Turns (Mode.readies [.run]) d d.moveFrame := by
  unfold Dev.moveFrame
  extract_lets d1
  have h1 : d1.calm = d.calm := by simp [d1]
  split
  next c hc =>
    have hrun : d1.mode = .run := by
      refine Classical.byContradiction (fun hne => ?_)
      simp [Dev.leaving, hne] at hc
    exact (Dev.leaveStep_turns c.tag (by rw [hrun]; decide)).calm_left h1
  · exact .of_calm h1

theorem Dev.pairFrame_turns (d : Dev) (b : Nat) : Dev.Turns Mode.roles d (d.pairFrame b) := by
  unfold Dev.pairFrame
  refine .ite _ (fun _ => .refl d) (fun _ => ?_)
  extract_lets d1 d2 d3 d4
  have h3 : d3.calm = d.calm := by simp [d3, d2, d1]
  have h4 : Dev.Turns Mode.roles d d4 := (d3.judgeRole_turns.calm_left h3).trans (Dev.judgeEcho_turns _)
  exact h4.calm_right (by simp)

theorem Dev.frameBoundary_turns (d : Dev) (b : Nat) : Dev.Turns Mode.next d (d.frameBoundary b) := by
  unfold Dev.frameBoundary
  extract_lets f sys d0 mangle d1 d2
  have h0 : d0.calm = d.calm := by simp [d0]
  refine .ite _ (fun _ => .of_calm (by simp [h0])) (fun _ => ?_)
  have h1 : Dev.Turns Mode.demotes d d1 := (Dev.echoFollow_turns _ _).calm_left (by simp [h0])
  have h2 : Dev.Turns Mode.demotes d d2 := h1.calm_right (by simp [d2])
  have h := (h2.trans ((d2.takeSources.pairFrame_turns b).calm_left (by simp))).trans
    ((Dev.moveFrame_turns (((d2.takeSources).pairFrame b).starchFrame.shadowFrame)).calm_left (d := d2.takeSources.pairFrame b) (by simp))
  exact (h.mono (by decide)).calm_right (by simp)

theorem Dev.toState_turns (d : Dev) (tag target : Nat) : Dev.Turns Mode.next d (d.toState tag target) := by
  unfold Dev.toState
  split
  · exact .of_reset (by simp) (by cases d.mode <;> decide)
  next hmode =>
    exact .ite _ (fun _ => .of_calm (by simp)) (fun _ => .of_mode hmode (b := .run) (by simp) (by decide))
  next hmode =>
    have hmode' : (d.start tag).mode = .run := by rw [Dev.mode_eq_of_calm (d.start_calm tag), hmode]
    exact ((Dev.leaveStep_turns (R := Mode.readies [.run]) tag (by rw [hmode']; decide)).calm_left (d.start_calm tag)).mono (by decide)
  next hmode =>
    have hmode' : (d.start tag).mode = .maint := by rw [Dev.mode_eq_of_calm (d.start_calm tag), hmode]
    exact (((Dev.enterReady_turns (R := Mode.readies [.maint]) (by rw [hmode']; decide)).calm_left (d.start_calm tag)).calm_right
      (Dev.complete_calm ..)).mono (by decide)
  next hmode => exact .of_mode hmode (b := .maint) (by simp) (by decide)
  · exact .of_calm (by simp)

theorem Dev.calRunEnd_turns {d : Dev} (hcal : d.mode = .cal) (r : CalRun) (c : CalData) : Dev.Turns Mode.next d (d.calRunEnd r c) := by
  unfold Dev.calRunEnd
  extract_lets items ports d1 d2 d3 ws starch d4 d5
  have h1 : d1.calm = d.calm := by simp [d1]
  have h2 : d2.calm = d.calm := by simp [d2, h1]
  have h3 : d3.calm = d.calm := by simp [d3, h2]
  have h5 : Dev.Turns Mode.calEnds d d5 := by
    refine Dev.Turns.calm_right (e := d4) ?_ (by simp [d5])
    by_cases hm : d3.calFrom = Mode.maint
    · exact .of_mode hcal (b := .maint) (by simp [d4, hm, ← Dev.calm_snd, h3]) (by decide)
    · exact .of_mode hcal (b := .ready) (by simp [d4, hm, ← Dev.calm_snd, h3]) (by decide)
  refine .ite _ (fun hready => ?_) (fun _ => (h5.mono (by decide)).calm_right (by simp))
  exact (h5.trans (Dev.enterReady_turns (R := Mode.readies [.ready]) (by rw [hready]; decide))).mono (by decide)

end Sys2Proof.Machine

end

section

/-! PROOFS. O31 and O32: every command keeps the memory's canonical form and moves the device state only along R26's table. -/

set_option Elab.async false

namespace Sys2Proof.Machine

/-- What a command leaves of the device state and of the Hamper's memory's form, after the misuse checks: an effect that stores, or one
that moves the device state where R26 allows. -/
inductive Turned (s : State) : Host.Outcome State Fault Refusal → Prop
  | stays (f : Dev → Dev) (h : Dev.Stores s.dev (f s.dev)) : Turned s (stay s f)
  | shifts (f : Dev → Dev) (h : Dev.Turns Mode.next s.dev (f s.dev)) : Turned s (shift s f)
  | check (m : Option Misuse) {o : Host.Outcome State Fault Refusal} (h : Turned s o) : Turned s (unlessMisuse m o)

theorem Turned.next_turns {s t : State} {o : Host.Outcome State Fault Refusal} (h : Turned s o) (ho : o = .next t) :
    Dev.Turns Mode.next s.dev t.dev := by
  induction h with
  | stays f h =>
    cases ho
    exact ⟨.inl (by simp [Dev.calm_fst]), by simpa [Dev.memWf, Dev.calm_snd] using h.2⟩
  | shifts f h =>
    cases ho
    simpa [Dev.Turns, Dev.calm_fst, Dev.calm_snd] using h
  | check m _ ih => exact ih (unlessMisuse_next ho).2

theorem Turned.calm {s : State} (f : Dev → Dev) (h : ∀ d, (f d).calm = d.calm) : Turned s (stay s f) := .stays f (.of_calm (h _))

/-! ### The commands that leave the device state -/

theorem Dev.Stores.whenDev {c : Dev → Bool} {f : Dev → Dev} {d : Dev} (h : Dev.Stores d (f d)) : Dev.Stores d (whenDev c f d) :=
  .ite _ (fun _ => h) (fun _ => .of_calm rfl)

theorem execAfeSpiDone_turned (master : Fin 4) (rx : Nat) (s : State) : Turned s (execAfeSpiDone master rx s) := by
  refine .calm _ fun d => ?_
  split
  · rfl
  next j _ =>
    extract_lets m d1 d2
    have h1 : d1.calm = d.calm := by simp [d1]
    clear_value d1
    have h2 : d2.calm = d.calm := by
      cases j with
      | gainWrite p c =>
        simp only [d2]
        split <;> simp [h1]
      | _ => simp [d2, h1]
    simp [h2]

theorem execAlignJump_turned (s : State) : Turned s (execAlignJump s) := by
  refine .calm _ fun d => ?_
  split
  · split <;> simp
  · rfl

theorem execApertureWrite_turned (off : Fin 1073741824) (data : List Byte) (s : State) : Turned s (execApertureWrite off data s) :=
  .check _ (.stays _ (.ite _ (fun _ => .of_calm rfl) (fun _ => .ite _ (fun _ => Dev.ddrWrite_stores ..) (fun _ => .of_calm (by simp)))))

theorem execAvsTimeout_turned (s : State) : Turned s (execAvsTimeout s) := by
  refine .calm _ fun d => ?_
  split
  · split <;> simp
  · rfl

theorem execBistItemDone_turned (sig : BitVec 64) (s : State) : Turned s (execBistItemDone sig s) := by
  refine .calm _ fun d => ?_
  split <;> split <;> simp

theorem execChirpSymbolRx_turned (port : Fin 512) (ctx : Option Bool) (s : State) : Turned s (execChirpSymbolRx port ctx s) := by
  refine .calm _ fun d => whenDev_calm _ _ d ?_
  split <;> simp

theorem execCmdBist_turned (tag : Fin 4096) (s : State) : Turned s (execCmdBist tag s) := by
  refine .check _ (.calm _ fun d => Dev.startCmd_calm _ _ _ _ fun c d => ?_)
  split
  · simp
  · dsimp only
    split <;> simp

theorem execCmdSlotWrite_turned (word : Fin 4096) (value : Word) (s : State) : Turned s (execCmdSlotWrite word value s) := by
  unfold execCmdSlotWrite
  split
  · exact .check _ (.calm _ (by simp))
  · exact .calm _ (by simp)

theorem execPushHeadWrite_turned (basket : Fin 14) (value : Word) (s : State) : Turned s (execPushHeadWrite basket value s) := by
  unfold execPushHeadWrite
  split
  · exact .check _ (.check _ (.calm _ (by simp)))
  · exact .calm _ (by simp)

theorem execPushDataWrite_turned (basket : Fin 14) (value : Word) (s : State) : Turned s (execPushDataWrite basket value s) := by
  unfold execPushDataWrite
  split
  · exact .check _ (.calm _ (by simp))
  · exact .calm _ (by simp)

theorem execCommandTake_turned (s : State) : Turned s (execCommandTake s) := by
  refine .check _ (.calm _ fun d => ?_)
  split <;> simp

theorem Dev.Stores.mateRx {f : Dev → Dev} {d : Dev} (crcOk : Bool) (h : Dev.Stores d (f d)) : Dev.Stores d (d.mateRx crcOk f) :=
  .ite _ (fun _ => .of_calm rfl) (fun _ => .ite _ (fun _ => h) (fun _ => .of_calm (by simp)))

theorem execMirrorRx_turned (crcOk : Bool) (seq : Nat) (data : MirData) (s : State) : Turned s (execMirrorRx crcOk seq data s) :=
  .stays _ (.mateRx crcOk (.ite _ (fun _ => Dev.mirTake_stores ..) (fun _ => .of_calm rfl)))

theorem execNakRx_turned (words : List Nat) (s : State) : Turned s (execNakRx words s) := by
  refine .calm _ fun d => Dev.frameRx_calm _ _ _ _ fun p d => ?_
  split
  · rfl
  · split <;> simp

theorem execPortFrameAbandon_turned (port : Fin 512) (rinsing : Option Nat) (s : State) : Turned s (execPortFrameAbandon port rinsing s) := by
  refine .calm _ fun d => whenDev_calm _ _ d ?_
  cases rinsing with
  | some index =>
    dsimp only
    have href := Dev.refOf_calm d port (d.stampOf port index)
    generalize d.refOf port (d.stampOf port index) = x at href
    split
    · split <;> simp [href]
    · rfl
  | none =>
    dsimp only
    split
    · split <;> simp
    · rfl

theorem execProgTapWalkStep_turned (s : State) : Turned s (execProgTapWalkStep s) := by
  refine .calm _ fun d => ?_
  split
  · split <;> simp
  · rfl

theorem execRecordPeriodBoundary_turned (s : State) : Turned s (execRecordPeriodBoundary s) :=
  .stays _ (.whenDev (Dev.periodBoundary_stores _))

theorem execSlipBufferFrame_turned (buffer : SlipRef) (s : State) : Turned s (execSlipBufferFrame buffer s) := by
  refine .calm _ fun d => ?_
  split
  · simp
  · split
    · split <;> simp
    · rfl

theorem execSysrefEdge_turned (link : Fin 32) (frac : Fin 65536) (s : State) : Turned s (execSysrefEdge link frac s) := by
  refine .calm _ fun d => ?_
  extract_lets x t d1 d2 d3
  have h1 : d1.calm = d.calm := by
    simp only [d1]
    split <;> simp
  have h2 : d2.calm = d.calm := by simp [d2, h1]
  split
  · rfl
  · split
    · simp
    · split
      · split
        · simp [d3, h2]
        · exact h2
      · rfl

theorem execVddCoreSettled_turned (millivolt : Nat) (s : State) : Turned s (execVddCoreSettled millivolt s) := by
  refine .calm _ fun d => ?_
  extract_lets d1
  have h1 : d1.calm = d.calm := by simp [d1]
  clear_value d1
  split
  · split
    · split
      · split
        · simp [h1]
        · split <;> simp [h1]
      · exact h1
    · rfl
  · rfl

/-! ### The commands that may move the device state -/

theorem Dev.Turns.whenDev {R : Mode → List Mode} {c : Dev → Bool} {f : Dev → Dev} {d : Dev} (h : c d = true → Dev.Turns R d (f d)) :
    Dev.Turns R d (whenDev c f d) :=
  .ite _ h (fun _ => .refl d)

theorem Dev.Turns.startCmd {R : Mode → List Mode} {d : Dev} {code tag : Nat} {run : Inflight → Dev → Dev}
    (h : ∀ c e, legalIn code e.mode = true → Dev.Turns R e (run c e)) : Dev.Turns R d (d.startCmd code tag run) := by
  unfold Dev.startCmd
  split
  · exact .refl d
  next c _ =>
    refine .ite _ (fun _ => .refl d) (fun _ => .ite _ (fun hl => ?_) (fun _ => .of_calm (by simp)))
    exact (h c (d.start tag) (by rwa [Dev.mode_eq_of_calm (d.start_calm tag)])).calm_left (d.start_calm tag)

theorem Dev.Turns.frameRx {R : Mode → List Mode} {d : Dev} {type : Nat} {ws : List Nat} {f : List Nat → Dev → Dev}
    (h : ∀ p, Dev.Turns R d (f p d)) : Dev.Turns R d (d.frameRx type ws f) := by
  refine .ite _ (fun _ => .refl d) (fun _ => .ite _ (fun _ => ?_) (fun _ => .of_calm (by simp)))
  split
  · exact h _
  · exact .refl d

/-- An effect whose moves R26 allows. -/
theorem Turned.moves {s : State} {R : Mode → List Mode} (f : Dev → Dev) (hR : Mode.within R Mode.next = true)
    (h : ∀ d, Dev.Turns R d (f d)) : Turned s (shift s f) :=
  .shifts f ((h s.dev).mono hR)

theorem execResetNLow_turned (s : State) : Turned s (execResetNLow s) :=
  .shifts _ (.whenDev fun _ => .of_reset (by simp) (by cases s.dev.mode <;> decide))

theorem execStrapFilterEnd_turned (pcie test src role : Fin 101) (s : State) : Turned s (execStrapFilterEnd pcie test src role s) := by
  refine .shifts _ ?_
  split
  · refine .ite _ (fun h => ?_) (fun _ => .refl _)
    have hreset : s.dev.mode = .reset := by
      simp only [Bool.and_eq_true] at h
      simpa using h.1.1
    exact .of_mode hreset (b := .boot) (by simp) (by decide)
  · exact .refl _

theorem execInternalResetEnd_turned (s : State) : Turned s (execInternalResetEnd s) := by
  refine .shifts _ ?_
  split
  · exact .ite _ (fun _ => .of_reset (by simp) (by cases s.dev.mode <;> decide)) (fun _ => .refl _)
  · exact .refl _

theorem Dev.mode_of_beq {d : Dev} {m : Mode} (h : (d.mode == m) = true) : d.mode = m := by simpa using h

theorem execFlashRecordLoaded_turned (item : BootItem) (s : State) : Turned s (execFlashRecordLoaded item s) := by
  refine .shifts _ (.whenDev fun h => ?_)
  have hboot := Dev.mode_of_beq h
  dsimp only
  split
  · exact .of_calm (by simp)
  · exact .ite _ (fun _ => (Dev.headerRead_turns ..).mono (by decide)) (fun _ => .refl _)
  · exact .ite _ (fun _ => (Dev.recordBad_turns ..).mono (by decide)) (fun _ => .refl _)
  · exact .ite _ (fun _ => (Dev.recordRead_turns ..).mono (by decide)) (fun _ => .refl _)
  next es _ _ => exact .of_mode hboot (b := .cal) (by simp [Dev.enterCal_calm]) (by decide)
  · exact .refl _

theorem execFlashReadTimeout_turned (s : State) : Turned s (execFlashReadTimeout s) := by
  refine .shifts _ (.whenDev fun _ => ?_)
  dsimp only
  split
  · exact .ite _ (fun _ => (Dev.headerRead_turns ..).mono (by decide)) (fun _ => .refl _)
  · exact .ite _ (fun _ => (Dev.recordBad_turns ..).mono (by decide)) (fun _ => .refl _)
  · exact .refl _

theorem execPowerupCalDone_turned (data : CalData) (s : State) : Turned s (execPowerupCalDone data s) := by
  refine .shifts _ (.whenDev fun h => ?_)
  have hcal : s.dev.mode = .cal := by
    rw [Bool.and_eq_true] at h
    exact Dev.mode_of_beq h.1
  have hd : ((s.dev.powerCal data).wr DEV.BOOT_STEP 0 0 10).calm = s.dev.calm := by simp
  refine ((Dev.enterReady_turns (R := Mode.readies [.cal]) ?_).calm_left hd).mono (by decide)
  rw [Dev.mode_eq_of_calm hd, hcal]
  decide

theorem execCmdCalRun_turned (tag : Fin 4096) (s : State) : Turned s (execCmdCalRun tag s) := by
  refine .check _ (.shifts _ (.startCmd fun c e hl => .ite _ (fun _ => .of_calm (by simp)) (fun _ => ?_)))
  refine .of_mode rfl (b := .cal) (by simp [← Dev.calm_snd]) ?_
  revert hl
  cases e.mode <;> decide

theorem execCalRunDone_turned (data : CalData) (s : State) : Turned s (execCalRunDone data s) := by
  refine .shifts _ ?_
  split
  · exact .ite _ (fun h => Dev.calRunEnd_turns h _ _) (fun _ => .refl _)
  · exact .refl _

theorem execMaintAutoExit_turned (s : State) : Turned s (execMaintAutoExit s) := by
  refine .shifts _ (.whenDev fun h => ?_)
  have hmaint : s.dev.mode = .maint := by
    simp only [Bool.and_eq_true] at h
    exact Dev.mode_of_beq h.1.1.1
  exact (Dev.enterReady_turns (R := Mode.readies [.maint]) (by rw [hmaint]; decide)).mono (by decide)

theorem execRegisterWrite_turned (addr : Fin 67108864) (size : Fin 4) (value : BitVec 64) (s : State) :
    Turned s (execRegisterWrite addr size value s) := by
  unfold execRegisterWrite
  dsimp only
  repeat' split
  · exact .shifts _ (.refl _)
  · exact .shifts _ (.of_calm (by simp))
  · exact .check _ (.moves _ (by decide) fun d => d.busWrite_turns _ _)
  · exact .check _ (.check _ (.moves _ (by decide) fun d => (d.busWrite_turns _ _).trans (Dev.busWrite_turns _ _ _)))

theorem execSoftResetWrite_turned (addr : Fin 67108864) (value : Word) (s : State) : Turned s (execSoftResetWrite addr value s) := by
  unfold execSoftResetWrite
  split
  · exact .check _ (.moves _ (R := Mode.demotes) (by decide) fun d => .whenDev fun _ => d.softStart_turns _ _ _ _)
  · exact .shifts _ (.refl _)

theorem execSoftResetDone_turned (addr : Fin 67108864) (s : State) : Turned s (execSoftResetDone addr s) := by
  unfold execSoftResetDone
  split
  · exact .moves _ (R := Mode.andThen Mode.calEnds Mode.demotes) (by decide) fun d => .whenDev fun _ => d.softDone_turns _ _
  · exact .shifts _ (.refl _)

theorem execCmdState_turned (tag : Fin 4096) (s : State) : Turned s (execCmdState tag s) := by
  refine .check _ (.shifts _ ?_)
  split
  · exact Dev.toState_turns ..
  · exact .refl _

theorem execLintWindow_turned (bad : List (Fin 11136)) (s : State) : Turned s (execLintWindow bad s) :=
  .moves _ (R := Mode.fails) (by decide) fun d => .whenDev fun _ => d.lintWindow_turns _

theorem execRefclkWatchdog_turned (s : State) : Turned s (execRefclkWatchdog s) :=
  .moves _ (R := Mode.fails) (by decide) fun d => .whenDev fun _ => (Dev.enterSafe_turns _).calm_left (by simp)

theorem execSystemFrameBoundary_turned (s : State) : Turned s (execSystemFrameBoundary s) :=
  .moves _ (by decide) fun d => .whenDev fun _ => d.frameBoundary_turns _

/-! ### The commands of pairing that may move the device state -/

theorem execHeartbeatLoss_turned (s : State) : Turned s (execHeartbeatLoss s) :=
  .moves _ (R := Mode.takesOver) (by decide) fun d => .whenDev fun _ => (Dev.silentPeer_turns _).calm_left (by simp)

theorem execFatalFrameRx_turned (words : List Nat) (s : State) : Turned s (execFatalFrameRx words s) :=
  .moves _ (R := Mode.takesOver) (by decide) fun d => .frameRx fun _ => .ite _ (fun _ => d.takeover_turns 0) (fun _ => .refl d)

theorem execHandoverRx_turned (words : List Nat) (s : State) : Turned s (execHandoverRx words s) :=
  .moves _ (R := Mode.takesOver) (by decide) fun d => .frameRx fun _ => .ite _ (fun _ => d.takeover_turns 4) (fun _ => .refl d)

theorem execHandoverReqRx_turned (words : List Nat) (s : State) : Turned s (execHandoverReqRx words s) :=
  .moves _ (R := Mode.demotes) (by decide) fun d => .frameRx fun _ => .ite _ (fun _ => d.switchStart_turns none) (fun _ => .refl d)

theorem execHandoverTimeout_turned (s : State) : Turned s (execHandoverTimeout s) := by
  refine .shifts _ ?_
  dsimp only
  split
  · refine .ite _ (fun h => ?_) (fun _ => .refl _)
    rw [Bool.and_eq_true] at h
    exact (Dev.handOver_turns h.2).mono (by decide)
  · refine .ite _ (fun h => ?_) (fun _ => .refl _)
    rw [Bool.and_eq_true] at h
    have hstandby := Dev.mode_of_beq h.2
    split
    · exact .of_mode hstandby (b := .run) (by simp) (by decide)
    · exact .of_mode hstandby (b := .run) (by simp) (by decide)
  · exact .refl _

theorem execStatusRx_turned (words : List Nat) (s : State) : Turned s (execStatusRx words s) :=
  .moves _ (R := Mode.andThen Mode.demotes Mode.resolves) (by decide) fun d => .frameRx fun _ =>
    .ite _ (fun _ => d.statusTake_turns _) (fun _ => .refl d)

theorem execAckRx_turned (words : List Nat) (s : State) : Turned s (execAckRx words s) := by
  refine .moves _ (R := Mode.demotes) (by decide) fun d => .frameRx fun p => .ite _ (fun _ => .refl d) (fun _ => ?_)
  extract_lets seq gen commit d1 d2
  have h2 : d2.calm = d.calm := by
    simp only [d2]
    split
    · split <;> simp [d1]
    · simp [d1]
  exact (d2.switchTry_turns.calm_left h2).calm_right (by simp)

theorem execTrunkFrameRx_turned (lane : Fin 8) (words : List Nat) (s : State) : Turned s (execTrunkFrameRx lane words s) :=
  .moves _ (R := Mode.demotes) (by decide) fun d => .whenDev fun _ => (Dev.echoFollow_turns _ _).calm_left (by simp)

theorem execEchoGraceExpire_turned (s : State) : Turned s (execEchoGraceExpire s) :=
  .moves _ (R := Mode.demotes) (by decide) fun d => .whenDev fun _ => d.judgeEcho_turns

theorem execClaimPinChange_turned (p n : Bool) (s : State) : Turned s (execClaimPinChange p n s) := by
  refine .moves _ (R := Mode.andThen Mode.demotes Mode.resolves) (by decide) fun d => .whenDev fun _ => ?_
  extract_lets d1
  have h1 : d1.calm = d.calm := by simp [d1]
  refine .ite _ (fun _ => .of_calm h1) (fun _ => ?_)
  have hpins := (Dev.judgePins_turns d1.judgeWire.judgeIsolated).calm_left (d := d) (by simp [h1])
  exact (hpins.trans (Dev.judgeRole_turns _)).calm_right (Dev.showPair_calm _)

theorem execClaimWirePersist_turned (s : State) : Turned s (execClaimWirePersist s) :=
  .moves _ (R := Mode.takesOver) (by decide) fun d => .whenDev fun _ => (Dev.silentPeer_turns _).calm_left (by simp)

theorem execPeerUnclaimed1ms_turned (s : State) : Turned s (execPeerUnclaimed1ms s) :=
  .moves _ (R := Mode.takesOver) (by decide) fun d => .whenDev fun _ => d.silentPeer_turns

theorem execMateLaneChange_turned (lane : Fin 2) (up : Bool) (s : State) : Turned s (execMateLaneChange lane up s) := by
  refine .moves _ (R := Mode.andThen (Mode.andThen Mode.demotes Mode.takesOver) Mode.resolves) (by decide) fun d => .whenDev fun _ => ?_
  extract_lets v was d1 d2 one d3 d4
  have h2 : d2.calm = d.calm := by simp [d2, d1]
  clear_value d2
  have h4 : d4.calm = d.calm := by simp [d4, d3, h2]
  refine .ite _ (fun _ => .of_calm (by simp [h2])) (fun _ => ?_)
  have hpins := (Dev.judgePins_turns d4.judgeIsolated).calm_left (d := d) (by simp [h4])
  exact ((hpins.trans (Dev.silentPeer_turns _)).trans (Dev.judgeRole_turns _)).calm_right (Dev.showPair_calm _)

theorem execResolveWrite_turned (value : Word) (s : State) : Turned s (execResolveWrite value s) :=
  .check _ (.moves _ (R := Mode.resolves) (by decide) fun d => .whenDev fun _ => d.pairCtl_turns _)

theorem execClaimNowWrite_turned (value : Word) (s : State) : Turned s (execClaimNowWrite value s) :=
  .check _ (.moves _ (R := Mode.resolves) (by decide) fun d => .whenDev fun _ => d.pairCtl_turns _)

theorem execResolveWaitExpire_turned (s : State) : Turned s (execResolveWaitExpire s) :=
  .moves _ (R := Mode.resolves) (by decide) fun d => .whenDev fun _ => d.judgeRole_turns

theorem execCmdSwitchover_turned (tag : Fin 4096) (s : State) : Turned s (execCmdSwitchover tag s) := by
  refine .check _ (.moves _ (R := Mode.andThen Mode.demotes Mode.takesOver) (by decide) fun d => .startCmd fun c e _ => ?_)
  refine .ite _ (fun _ => .of_calm (by simp)) (fun _ => .ite _ (fun _ => (e.switchStart_turns _).mono (by decide)) (fun _ => ?_))
  extract_lets d1
  have h1 : d1.calm = e.calm := by simp [d1]
  exact .ite _ (fun _ => .of_calm (by simp [h1])) (fun _ => ((d1.takeover_turns 3).calm_left h1).mono (by decide))

/-- Every command but RESET_N's release. The arms without a lemma of their own are one effect that touches neither the device state nor
the memory, with one check or none. -/
theorem exec_turned (c : Instr) (s : State) (hc : c ≠ .resetNRelease) : Turned s (exec c s) := by
  cases c
  case resetNRelease => exact absurd rfl hc
  case afeSpiDone master rx => exact execAfeSpiDone_turned master rx s
  case alignJump => exact execAlignJump_turned s
  case apertureWrite off data => exact execApertureWrite_turned off data s
  case avsTimeout => exact execAvsTimeout_turned s
  case bistItemDone sig => exact execBistItemDone_turned sig s
  case chirpSymbolRx port ctx => exact execChirpSymbolRx_turned port ctx s
  case cmdBist tag => exact execCmdBist_turned tag s
  case cmdSlotWrite word value => exact execCmdSlotWrite_turned word value s
  case commandTake => exact execCommandTake_turned s
  case mirrorRx crcOk seq data => exact execMirrorRx_turned crcOk seq data s
  case nakRx words => exact execNakRx_turned words s
  case portFrameAbandon port rinsing => exact execPortFrameAbandon_turned port rinsing s
  case progTapWalkStep => exact execProgTapWalkStep_turned s
  case pushDataWrite basket value => exact execPushDataWrite_turned basket value s
  case pushHeadWrite basket value => exact execPushHeadWrite_turned basket value s
  case recordPeriodBoundary => exact execRecordPeriodBoundary_turned s
  case slipBufferFrame buffer => exact execSlipBufferFrame_turned buffer s
  case sysrefEdge link frac => exact execSysrefEdge_turned link frac s
  case vddCoreSettled millivolt => exact execVddCoreSettled_turned millivolt s
  case resetNLow => exact execResetNLow_turned s
  case strapFilterEnd pcie test src role => exact execStrapFilterEnd_turned pcie test src role s
  case internalResetEnd => exact execInternalResetEnd_turned s
  case flashRecordLoaded item => exact execFlashRecordLoaded_turned item s
  case flashReadTimeout => exact execFlashReadTimeout_turned s
  case powerupCalDone data => exact execPowerupCalDone_turned data s
  case cmdCalRun tag => exact execCmdCalRun_turned tag s
  case calRunDone data => exact execCalRunDone_turned data s
  case cmdState tag => exact execCmdState_turned tag s
  case maintAutoExit => exact execMaintAutoExit_turned s
  case lintWindow bad => exact execLintWindow_turned bad s
  case refclkWatchdog => exact execRefclkWatchdog_turned s
  case systemFrameBoundary => exact execSystemFrameBoundary_turned s
  case registerWrite addr size value => exact execRegisterWrite_turned addr size value s
  case softResetWrite addr value => exact execSoftResetWrite_turned addr value s
  case softResetDone addr => exact execSoftResetDone_turned addr s
  case heartbeatLoss => exact execHeartbeatLoss_turned s
  case fatalFrameRx words => exact execFatalFrameRx_turned words s
  case handoverRx words => exact execHandoverRx_turned words s
  case handoverReqRx words => exact execHandoverReqRx_turned words s
  case handoverTimeout => exact execHandoverTimeout_turned s
  case statusRx words => exact execStatusRx_turned words s
  case ackRx words => exact execAckRx_turned words s
  case trunkFrameRx lane words => exact execTrunkFrameRx_turned lane words s
  case echoGraceExpire => exact execEchoGraceExpire_turned s
  case claimPinChange p n => exact execClaimPinChange_turned p n s
  case claimWirePersist => exact execClaimWirePersist_turned s
  case peerUnclaimed1ms => exact execPeerUnclaimed1ms_turned s
  case mateLaneChange lane up => exact execMateLaneChange_turned lane up s
  case resolveWrite value => exact execResolveWrite_turned value s
  case claimNowWrite value => exact execClaimNowWrite_turned value s
  case resolveWaitExpire => exact execResolveWaitExpire_turned s
  case cmdSwitchover tag => exact execCmdSwitchover_turned tag s
  all_goals dsimp only [exec]
  all_goals first
    | (refine .stays _ (.of_calm ?_); simp; done)
    | (refine .check _ (.stays _ (.of_calm ?_)); simp)
    | (refine .stays _ (.of_calm ?_); repeat' split; all_goals simp)

theorem Dev.Turns.moves {d e : Dev} (h : Dev.Turns Mode.next d e) : d.mode.moves e.mode = true := by
  obtain ⟨hm, _⟩ := h
  rw [Dev.calm_fst, Dev.calm_fst] at hm
  rcases hm with hm | hm
  · simp [Mode.moves, hm]
  · exact (List.mem_filter.mp hm).2

/-- What every step leaves of the device state and the memory. -/
theorem step_turns {s t : State} (h : step s = .next t) : Dev.Turns Mode.next s.dev t.dev := by
  rw [step] at h
  split at h
  · cases h
    exact .of_calm (by simp)
  next c rest _ =>
    by_cases hc : c = .resetNRelease
    · subst hc
      cases hl : s.dev.host.resetLow with
      | false =>
        rw [exec_resetNRelease_high (s := { s with pending := rest }) hl] at h
        cases h
        exact .refl _
      | true =>
        rw [exec_resetNRelease_low (s := { s with pending := rest }) hl] at h
        cases h
        exact .of_reset (by simp) (by cases s.dev.mode <;> decide)
    · exact (exec_turned c { s with pending := rest } hc).next_turns h

/-- TIMEBASE stays within its 64 bits: the release zeroes it, a tick counts it on modulo 2^64. -/
theorem step_timebase_lt {s t : State} (hs : s.dev.timebase < 2 ^ 64) (h : step s = .next t) : t.dev.timebase < 2 ^ 64 := by
  rw [step] at h
  split at h
  · cases h
    unfold Dev.tick
    split
    · exact hs
    · exact Nat.mod_lt _ (by decide)
  next c rest _ =>
    by_cases hc : c = .resetNRelease
    · subst hc
      cases hl : s.dev.host.resetLow with
      | false =>
        rw [exec_resetNRelease_high (s := { s with pending := rest }) hl] at h
        cases h
        exact hs
      | true =>
        rw [exec_resetNRelease_low (s := { s with pending := rest }) hl] at h
        cases h
        exact Nat.two_pow_pos 64
    · rwa [(exec_checked c { s with pending := rest } hc).next_timebase h]

/-- Settles O31. -/
theorem invariantKept : Obligations.InvariantKept := by
  intro s t hs h
  rw [State.inv, Bool.and_eq_true, decide_eq_true_eq] at hs ⊢
  obtain ⟨htb, hwf⟩ := hs
  obtain ⟨_, hmem⟩ := step_turns h
  rw [Dev.calm_snd, Dev.calm_snd] at hmem
  exact ⟨step_timebase_lt htb h, hmem hwf⟩

/-- Settles O32. -/
theorem modeFollowsR26 : Obligations.ModeFollowsR26 := fun _ _ h => (step_turns h).moves

end Sys2Proof.Machine

end

section

/-! PROOFS. Frames that fail: a state or a command may name a lane, a port or a station beyond the device's, whose register lies in another's
place of the register store. Each is refuted by such a state, run. -/

set_option Elab.async false

namespace Sys2Proof.Machine

/-- Whether a command answers a next state in which a register reads differently. -/
def rdDiffers (c : Instr) (s : State) (f : Field) (i j : Nat) : Bool :=
  match exec c s with
  | .next t => t.dev.rd f i j != s.dev.rd f i j
  | _ => false

/-- A command that alters a register outside the places of its frame. -/
theorem not_framed_of_rdDiffers {c : Instr} {s : State} {fs : Places} {ps : List Part} (f : Field) (i j : Nat) (hi : i < 65536) (hj : j < 4096)
    (hout : fs.all (fun g => g.1.id != f.id || !g.2 i j) = true) (hd : rdDiffers c s f i j = true) :
    ¬ ∀ t, exec c s = .next t → s.dev.framed fs ps t.dev := by
  intro h
  unfold rdDiffers at hd
  split at hd
  next t ht =>
    have heq := (h t ht).1 f i j hi hj fun g hg he => by simpa [he] using List.all_eq_true.mp hout g hg
    simp [heq] at hd
  · cases hd

/-- The field whose number follows that of `f`: in the register store it lies where `f` of the page numbered 65,536 would, and an element 2^28. -/
def Field.after (f : Field) : Field := { f with id := f.id + 1 }

/-- Link 0 up. -/
def linkUp : Dev := { Dev.reset with line := { LineSt.reset with links := [(0, { LinkSt.off with mode := .up })] } }

/-- Refutes O51: a link's loss names its lane as any number, and bad sync headers on a lane 65536 count in the field after SH_ERR. -/
theorem not_lineSideFrames : ¬ Obligations.LineSideFrames := by
  intro h
  have hframe := fun t => (h ⟨[], linkUp⟩ t).2.2.2.2.1 0 (.syncHeaders 65536 1)
  exact not_framed_of_rdDiffers JLANE.SH_ERR.after 0 0 (by decide) (by decide) (by decide) (by decide +kernel) hframe

/-- Port 0 up, a port-frame of its lane 2^28 overdue. -/
def overdueFrame : Dev := { Dev.reset with
  timebase := 2 ^ 40
  arch := { ArchSt.reset with
    ports := [(0, .up)]
    frames := [(0, [⟨0, 2 ^ 28, 0, 0, 4, false, false, false, (0, 0), [], [], [], none, false, 0, false, false⟩])] } }

/-- Refutes O53: a port-frame carries its lane as any number, and a deadline missed on lane 2^28 counts in the field after LANE_MISS. -/
theorem not_monitoringFrames : ¬ Obligations.MonitoringFrames := by
  intro h
  have hframe := fun t => (h ⟨[], overdueFrame⟩ t).1 0 none
  exact not_framed_of_rdDiffers DEV.LANE_MISS.after 0 0 (by decide) (by decide) (by decide) (by decide +kernel) hframe


/-- A port 65536 up on lane 0 by PAM, and lane 0 to be reset. -/
def strayPort : Dev := ({ Dev.reset with arch := { ArchSt.reset with
  ports := [(65536, .up)]
  overrun := [(0, some .resetDue)] } }).wr PORT.LC_ACTIVE 65536 0 2

/-- Refutes O50: a lane reset goes through the ports enabled, and that of a port 65536 writes ACT_STATE in the field after it. -/
theorem not_programmeFrames : ¬ Obligations.ProgrammeFrames := by
  intro h
  have hframe := fun t => (h ⟨[], strayPort⟩ t).2.2.2.2.2.2.2.2.1 0
  exact not_framed_of_rdDiffers PORT.ACT_STATE.after 0 0 (by decide) (by decide) (by decide) (by decide +kernel) hframe

/-- Engine 0 runs an invocation of a port 65536 at an illegal word. -/
def strayInvocation : Dev := ({ Dev.reset with needle := { NeedleSt.reset with
  istore := [(0, (0x3F * 2 ^ 18) ^^^ 0xFFFFFF)]
  engines := [(0, { EngineSt.reset with running := some ⟨⟨0, some 65536, 0, 0, 0, [], []⟩, 0, none, false⟩ })] } }).wr (HDR.STATE .ndl) 0 0 2

/-- Refutes O57: an invocation names its port as any number, and a fault in one of a port 65536 counts in the field after NDL_OVERRUNS. -/
theorem not_serviceFrames : ¬ Obligations.ServiceFrames := by
  intro h
  have hframe := fun t => (h ⟨[], strayInvocation⟩ t).2.2.2.2.2.2.2.2.2.2 0
  exact not_framed_of_rdDiffers PORT.NDL_OVERRUNS.after 0 0 (by decide) (by decide) (by decide) (by decide +kernel) hframe

/-- Port 0 shared, its window 0 granted to a station 32 in the cycle before, which has passed. -/
def strayStation : Dev := (((({ Dev.reset with
  timebase := 2 ^ 40
  lines := { PortsSt.reset with ports := [(0, { PortSt.reset with shared := { SharedSt.reset with
    prevAt := some 0
    prevMap := ⟨[32], true⟩ } })] } } : Dev).wr PORT.SHARED 0 0 1).wr PORT.WINDOWS 0 0 1).wr STN.STN_STATE 32 0 1)

/-- Refutes O52: a grant map names its stations as any number, and a burst missed from station 32 of port 0 counts at station 0 of port 1. -/
theorem not_startupFrames : ¬ Obligations.StartupFrames := by
  intro h
  have hframe := fun t => (h ⟨[], strayStation⟩ t).2.2.2.2.2.2.2.2.2.1 0 0
  exact not_framed_of_rdDiffers STN.STN_BURST_BAD 32 0 (by decide) (by decide) (by decide) (by decide +kernel) hframe

end Sys2Proof.Machine

end

section

/-! SUPPORT. Where the condition of a command's row holds, its outcome is the state after its effect. -/

set_option Elab.async false

namespace Sys2Proof.Machine

/-- Two effects that agree on a device leave the same state after them. -/
theorem State.after_congr {s : State} {f g : Dev → Dev} (h : f s.dev = g s.dev) : s.after f = s.after g := by
  simp only [State.after, h]

/-- The outcome of an effect is the state after any effect that agrees with it here. -/
theorem stay_eq_after {s : State} {f g : Dev → Dev} (h : f s.dev = g s.dev) : stay s f = .next (s.after g) :=
  congrArg Host.Outcome.next (State.after_congr h)

/-- An event that can occur has its effect. -/
theorem stay_whenDev {s : State} {c : Dev → Bool} (f : Dev → Dev) (h : c s.dev = true) : stay s (whenDev c f) = .next (s.after f) :=
  stay_eq_after (whenDev_true c f s.dev h)

theorem stay_whenDev_eq_after {s : State} {c : Dev → Bool} {f g : Dev → Dev} (hc : c s.dev = true) (h : f s.dev = g s.dev) :
    stay s (whenDev c f) = .next (s.after g) :=
  stay_eq_after ((whenDev_true c f s.dev hc).trans h)

/-- As `stay_eq_after`, for an effect that may change the device state. -/
theorem shift_eq_afterShift {s : State} {f g : Dev → Dev} (h : f s.dev = g s.dev) : shift s f = .next (s.afterShift g) := by
  simp only [shift, State.afterShift, h]

theorem shift_whenDev {s : State} {c : Dev → Bool} (f : Dev → Dev) (h : c s.dev = true) :
    shift s (whenDev c f) = .next (s.afterShift f) :=
  shift_eq_afterShift (whenDev_true c f s.dev h)

/-- A write that is no misuse has its effect. -/
theorem unlessMisuse_of_eq_none {m : Option Misuse} {o : Host.Outcome State Fault Refusal} (h : m = none) : unlessMisuse m o = o := by
  rw [h, unlessMisuse_none]

@[simp] theorem State.after_rd (s : State) (f : Dev → Dev) (g : Field) (i j : Nat) : (s.after f).dev.rd g i j = (f s.dev).rd g i j := rfl
@[simp] theorem State.after_on (s : State) (f : Dev → Dev) (g : Field) (i j : Nat) : (s.after f).dev.on g i j = (f s.dev).on g i j := rfl
@[simp] theorem State.after_timebase (s : State) (f : Dev → Dev) : (s.after f).dev.timebase = s.dev.timebase := rfl
@[simp] theorem State.after_mode (s : State) (f : Dev → Dev) : (s.after f).dev.mode = s.dev.mode := rfl
@[simp] theorem State.after_calFrom (s : State) (f : Dev → Dev) : (s.after f).dev.calFrom = (f s.dev).calFrom := rfl
@[simp] theorem State.after_flash (s : State) (f : Dev → Dev) : (s.after f).dev.flash = (f s.dev).flash := rfl
@[simp] theorem State.after_free (s : State) (f : Dev → Dev) : (s.after f).dev.free = (f s.dev).free := rfl
@[simp] theorem State.after_host (s : State) (f : Dev → Dev) : (s.after f).dev.host = (f s.dev).host := rfl
@[simp] theorem State.after_arch (s : State) (f : Dev → Dev) : (s.after f).dev.arch = (f s.dev).arch := rfl
@[simp] theorem State.after_line (s : State) (f : Dev → Dev) : (s.after f).dev.line = (f s.dev).line := rfl
@[simp] theorem State.after_lint (s : State) (f : Dev → Dev) : (s.after f).dev.lint = (f s.dev).lint := rfl
@[simp] theorem State.after_sys (s : State) (f : Dev → Dev) : (s.after f).dev.sys = (f s.dev).sys := rfl
@[simp] theorem State.after_starch (s : State) (f : Dev → Dev) : (s.after f).dev.starch = (f s.dev).starch := rfl
@[simp] theorem State.after_lines (s : State) (f : Dev → Dev) : (s.after f).dev.lines = (f s.dev).lines := rfl
@[simp] theorem State.after_mangle (s : State) (f : Dev → Dev) : (s.after f).dev.mangle = (f s.dev).mangle := rfl
@[simp] theorem State.after_needle (s : State) (f : Dev → Dev) : (s.after f).dev.needle = (f s.dev).needle := rfl
@[simp] theorem State.after_service (s : State) (f : Dev → Dev) : (s.after f).dev.service = (f s.dev).service := rfl
@[simp] theorem State.after_hamper (s : State) (f : Dev → Dev) : (s.after f).dev.hamper = (f s.dev).hamper := rfl
@[simp] theorem State.after_pair (s : State) (f : Dev → Dev) : (s.after f).dev.pair = (f s.dev).pair := rfl

@[simp] theorem State.after_port (s : State) (f : Dev → Dev) (n : Nat) : (s.after f).dev.port n = (f s.dev).port n := rfl

@[simp] theorem Dev.rd_modPort (d : Dev) (n : Nat) (f : PortSt → PortSt) (g : Field) (i j : Nat) : (d.modPort n f).rd g i j = d.rd g i j := rfl

/-- A part of a port's state reads as it was put. -/
@[simp] theorem Dev.modPort_port (d : Dev) (n : Nat) (f : PortSt → PortSt) : (d.modPort n f).port n = f (d.port n) :=
  FMap.get_set_same _ _ _ _

/-- An instant that is awaited and has come. -/
theorem Dev.reached_of_some {d : Dev} {at? : Option Nat} {t : Nat} (h : at? = some t) (ht : t ≤ d.timebase) : d.reached at? = true := by
  subst h
  exact decide_eq_true ht

end Sys2Proof.Machine

end

section

/-! PROOFS. The wall clock and PM snapshots; the stages of the lanes; the bursts and stations of shared ports; defect windows and messages. -/

set_option Elab.async false

namespace Sys2Proof.Machine

/-- A snapshot is queued where none of its kind waits. -/
theorem execCmdPmSnapshot_of_ready {s : State} {tag : Fin 4096} {c : Inflight} (h : s.dev.ready 14 tag = some c) (hk : c.args.headD 0 ≤ 1)
    (hs : ∀ x ∈ s.dev.lines.snaps, x.kind ≠ c.args.headD 0) :
    exec (.cmdPmSnapshot tag) s = .next (s.after (fun d =>
      { d.start tag with lines := { d.lines with snaps := d.lines.snaps ++ [⟨tag, c.args.headD 0, none, 0⟩] } })) := by
  have hnone : s.dev.lines.snaps.any (fun x : Snapshot => x.kind == c.args.headD 0) = false := by simpa using hs
  refine (unlessMisuse_of_eq_none (argMisuse_of_ready h (by simpa using hk))).trans (stay_eq_after ?_)
  rw [Dev.startCmd_of_ready h]
  exact if_neg (Bool.eq_false_iff.mp hnone)

/-- Settles O13: each row's condition holds, so its effect is the outcome. -/
theorem monitoringRowsComplete : Obligations.MonitoringRowsComplete := by
  intro s
  refine ⟨fun hm h0 h500 hw => ?_, fun tag c hr hk hs => ?_, fun x t0 hx ha ht => ?_, fun x y t0 hxy ha hb ht => ?_⟩
  · exact stay_whenDev _ (by simp [hm, h0, h500, hw])
  · exact ⟨_, execCmdPmSnapshot_of_ready hr hk hs, rfl⟩
  · change execPmSnapshotCopy s = _
    exact stay_eq_after (by simp [hx, ha, Dev.passed, frameTicks, ht])
  · change execPmSnapshotCopy s = _
    exact stay_eq_after (by simp [hxy, ha, hb, Dev.passed, frameTicks, ht])

/-- Settles O11: each row's condition holds, so its effect is the outcome. -/
theorem laneRowsComplete : Obligations.LaneRowsComplete := by
  intro s port he
  refine ⟨fun stage => ?_, fun f hf hd => ?_, fun hb => ?_, fun f hs hf => ?_, fun l => rfl⟩
  · exact stay_whenDev _ he
  · exact stay_whenDev_eq_after he (by simp only [hf, if_pos hd])
  · exact stay_whenDev_eq_after (by simp [he, hb]) rfl
  · change execSlipBufferFrame (.port port) s = _
    exact stay_eq_after (by simp only [hs, if_true, hf])

/-- Settles O10: each row's condition holds, so its effect is the outcome. -/
theorem sharedPortRowsComplete : Obligations.SharedPortRowsComplete := by
  intro s port
  refine ⟨fun he hl hc => ?_, fun fork r hr hs hp ha hh => ?_, fun fork r hr hs ha hl hc => ?_, fun w c st missed hs hm => ?_,
    fun stn hj ht => ?_, fun stn hj hb => ?_, fun stn hj ht => ?_, fun stn t0 hj hl ht => ?_⟩
  · have hsym : (s.dev.enabled port && s.dev.rd PORT.LC_ACTIVE port == 1 && !s.dev.cfgBad port) = true := by simp [he, hl, hc]
    refine ⟨fun hs => ?_, fun hs => ?_, fun hs fork => ?_⟩ <;> refine stay_whenDev_eq_after hsym ?_ <;> simp only [hs]
  · change execBurstHeaderRx port fork s = _
    exact stay_eq_after (by simp [hr, hs, hp, ha, hh])
  · change execBurstPayloadRx port fork s = _
    exact stay_eq_after (by simp [hr, hs, ha, hl, hc])
  · change execBurstMissed port w s = _
    exact stay_eq_after (by simp only [hs, if_true, hm])
  · exact stay_whenDev _ (Bool.and_eq_true_iff.mpr ⟨beq_iff_eq.mpr hj, decide_eq_true ht⟩)
  · exact stay_whenDev _ (by simpa [hj] using hb)
  · have hd : (s.dev.stn port stn).lostAt + msTicks (100 * s.dev.rd PORT.DROP_TIME port) ≤ s.dev.timebase := by
      unfold msTicks; omega
    exact stay_whenDev _ (by simpa [hj, Dev.passed] using hd)
  · exact stay_whenDev _ (by simpa [hj, hl] using ht)

/-- The RDI of a port ends where none is due and its shortest span, if one runs, is over. -/
theorem execTxRdiStop_of_span {s : State} {port : Fin 512} (hon : s.dev.on PORT.TX_RDI port = true)
    (hdue : s.dev.on PORT.PORT_FAILED port = false ∨ s.dev.on PORT.RDI_EN port = false)
    (hspan : (s.dev.port port).tx.rdiAt = none ∨ ∃ c, (s.dev.port port).tx.rdiAt = some c ∧ c + 16 ≤ (s.dev.port port).tx.count ∧
      (s.dev.port port).tx.count % 2 = 1) :
    exec (.txRdiStop port) s = .next (s.after (fun d =>
      (d.wr PORT.TX_RDI port 0 0).modPort port (fun (x : PortSt) => { x with tx := { x.tx with rdiAt := none } }))) := by
  refine stay_whenDev _ ?_
  have hfree : (s.dev.on PORT.PORT_FAILED port && s.dev.on PORT.RDI_EN port) = false := by
    rcases hdue with h | h <;> simp [h]
  obtain hr | ⟨c, hr, h16, hodd⟩ := hspan
  · simp [hon, hfree, hr]
  · simp [hon, hfree, hr, h16, hodd]

/-- Settles O12: each row's condition holds, so its effect is the outcome. -/
theorem defectRowsComplete : Obligations.DefectRowsComplete := by
  intro s port
  refine ⟨fun stn he hw hf => ?_, fun stn he hw hf => ?_, fun stn hr hf => ?_, fun t0 he hr ht => ?_, fun hon hdue hspan => ?_,
    fun v hv hw => ?_, fun stn m inc r hm => ?_⟩
  · exact stay_whenDev _ (by simp [he, hw, hf])
  · exact stay_whenDev _ (by simp [he, hw, hf])
  · exact stay_whenDev _ (by simp [hr, hf])
  · exact stay_whenDev _ (by simp [he, Dev.reached_of_some hr ht])
  · refine ⟨_, execTxRdiStop_of_span hon hdue hspan, ?_, ?_⟩
    · simp [Dev.on]
    · rw [State.after_port, Dev.modPort_port]
  · exact (unlessMisuse_of_eq_none hv).trans (stay_whenDev _ hw)
  · change execDccMessageRx port stn s = _
    exact stay_eq_after (by simp only [hm])

end Sys2Proof.Machine

end

section

/-! SUPPORT. Frames of register words, and of the operations that a sensor reading and a calibration retry are made of. -/

set_option Elab.async false

namespace Sys2Proof.Machine

variable {fs fs' : Places} {ps ps' : List Part} {d e t : Dev}

/-- Places of a frame that another lists too. -/
def Places.within (fs fs' : Places) : Prop := ∀ g ∈ fs, g ∈ fs'

theorem Places.within_append_left (fs gs : Places) : Places.within fs (fs ++ gs) := fun _ => List.mem_append_left gs

theorem Places.within_append_right (fs gs : Places) : Places.within gs (fs ++ gs) := fun _ => List.mem_append_right fs

theorem Places.within.trans {gs : Places} (h : Places.within fs fs') (g : Places.within fs' gs) : Places.within fs gs :=
  fun x hx => g x (h x hx)

theorem eventAt_within_condAt (p : Page) (n : Nat) : Places.within (eventAt p n) (condAt p n) := by
  intro g hg
  simp only [eventAt, condAt, fieldsAt, List.map_cons, List.map_nil, List.mem_append, List.mem_cons, List.not_mem_nil, or_false] at hg ⊢
  exact hg.imp .inl id

/-- An effect on parts that a frame names, which leaves the registers. -/
theorem Dev.framed_parts (hr : t.regs = d.regs) (hp : ∀ p, p ∉ ps → p.same d t) : d.framed fs ps t :=
  ⟨fun f i j _ _ _ => Dev.rd_congr hr f i j, hp⟩

/-! ### A word written -/

/-- The elements of a field in a word of its page are elements of a field that has that word. -/
theorem mem_wordFields {p : Page} {f : Field} {off i : Nat} (hf : f ∈ fieldsOf p) (hi : i ∈ f.inWord off) : f ∈ wordFields p off :=
  List.mem_filter.mpr ⟨hf, by
    cases h : f.inWord off with
    | nil => simp [h] at hi
    | cons _ _ => rfl⟩

/-- No field has as many elements as its places in the register store. -/
theorem count_le_of_mem_fieldsOf (p : Page) : (fieldsOf p).all (fun f => decide (f.count ≤ 4096)) = true := by
  cases p <;> decide +kernel

theorem inWord_lt {p : Page} {f : Field} {off i : Nat} (hf : f ∈ fieldsOf p) (hi : i ∈ f.inWord off) : i < 4096 := by
  have hc : f.count ≤ 4096 := by simpa using List.all_eq_true.mp (count_le_of_mem_fieldsOf p) f hf
  unfold Field.inWord at hi
  split at hi
  · split at hi
    · simp only [List.mem_singleton] at hi; omega
    · simp at hi
  · simp only [List.mem_filter, decide_eq_true_eq] at hi; omega

/-- A field element of a word written. -/
theorem Dev.framed_writeElem (d : Dev) (addr : Nat) {p : Page} {f : Field} {n off i : Nat} (v : Nat) (hn : n < 65536) (hf : f ∈ fieldsOf p)
    (hi : i ∈ f.inWord off) : d.framed (wordAt p n off) [.signals, .pair] (d.writeElem addr f n v i) := by
  have hmem : (f, fun i _ => i == n) ∈ wordAt p n off :=
    List.mem_append_left _ (List.mem_append_left _ (List.mem_map_of_mem (mem_wordFields hf hi)))
  have hwr : ∀ x, d.framed (wordAt p n off) [.signals, .pair] (d.wr f n i x) := fun x =>
    d.framed_wr f n i x hmem (beq_self_eq_true n) hn (inWord_lt hf hi)
  unfold Dev.writeElem
  extract_lets x r d1 put
  have hput : d.framed (wordAt p n off) [.signals, .pair] put := by
    unfold put
    split
    · refine Dev.framed_ite (fun _ => (hwr r.1).trans ?_) (fun _ => hwr _)
      exact (Dev.framed_busErr _ addr).mono (Places.within_append_right _ _) (by simp)
    · exact .refl _ _ d
  split
  · exact hput
  · exact Dev.framed_ite (fun _ => hput) (fun _ => .refl _ _ d)
  · exact hwr _
  all_goals exact .refl _ _ d

/-- The write of a word: its fields, a value out of range, the journal. -/
theorem Dev.framed_writeFields (d : Dev) (addr : Nat) (p : Page) (n off v : Nat) (hn : n < 65536 := by omega) :
    d.framed (wordAt p n off) [.signals, .pair] (d.writeFields addr p n off v) := by
  have hall : d.framed (wordAt p n off) [.signals, .pair]
      ((fieldsOf p).foldl (fun d f => (f.inWord off).foldl (fun d i => d.writeElem addr f n v i) d) d) :=
    Dev.framed_foldl _ _ (fun d f hf => Dev.framed_foldl _ _ (fun d i hi => d.framed_writeElem addr v hn hf hi) d) d
  unfold Dev.writeFields
  refine Dev.framed_ite (fun _ => hall.trans ?_) (fun _ => hall)
  exact (Dev.framed_jrnAdd _ _ _).mono
    ((Places.within_append_right _ _).trans (Places.within_append_left _ rangePlaces)) (by simp)

end Sys2Proof.Machine

end

section

/-! PROOFS. Frames of the protection selectors, and of the sensors, calibration retries, shadows and injection. -/

set_option Elab.async false

namespace Sys2Proof.Machine

variable {fs fs' : Places} {ps ps' : List Part} {d e t : Dev}

/-! ### Protection selectors -/

theorem Dev.framed_modMangle_parts (d : Dev) (m : MangleSt) : d.framed fs [.mangle] { d with mangle := m } :=
  Dev.framed_parts rfl (fun p hp => by cases p <;> simp [Part.same] at hp ⊢)

/-- A group's selector shown in its port's fields. -/
theorem Dev.framed_showGroup (d : Dev) (n : Nat) (hn : n < 65536) :
    d.framed (fieldsAt n [PORT.LOCAL_REQ, PORT.REMOTE_REQ, PORT.SELECTED, PORT.TOP_REQ, PORT.WTR_LEFT]) [.mangle] (d.showGroup n) := by
  have hw : ∀ (d : Dev) (f : Field) (v : Nat), f ∈ [PORT.LOCAL_REQ, PORT.REMOTE_REQ, PORT.SELECTED, PORT.TOP_REQ, PORT.WTR_LEFT] →
      d.framed (fieldsAt n [PORT.LOCAL_REQ, PORT.REMOTE_REQ, PORT.SELECTED, PORT.TOP_REQ, PORT.WTR_LEFT]) [.mangle] (d.wr f n 0 v) :=
    fun d f v hf => d.framed_wr f n 0 v (List.mem_map_of_mem hf) (beq_self_eq_true n) hn
  unfold Dev.showGroup
  exact ((((hw _ _ _ (by simp)).trans (hw _ _ _ (by simp))).trans (hw _ _ _ (by simp))).trans (hw _ _ _ (by simp))).trans
    (hw _ _ _ (by simp))

/-- What a selector's change shows: a group in its port's fields, an entry nowhere, a pair in its elements. -/
theorem Dev.framed_modSel_group (d : Dev) (f : SelSt → SelSt) (n : Fin 512) :
    d.framed (fieldsAt n [PORT.LOCAL_REQ, PORT.REMOTE_REQ, PORT.SELECTED, PORT.TOP_REQ, PORT.WTR_LEFT]) [.mangle] (d.modSel f (.group n)) :=
  (d.framed_modMangle_parts _).trans (Dev.framed_showGroup _ n (by omega))

theorem Dev.framed_modSel_entry (d : Dev) (f : SelSt → SelSt) (i : Fin 32768) : d.framed [] [.mangle] (d.modSel f (.entry i)) :=
  d.framed_modMangle_parts _

theorem Dev.framed_modSel_pair (d : Dev) (f : SelSt → SelSt) (p : Fin 4) :
    d.framed (fieldsElem p [DEV.PAIR_TOP_REQ, DEV.PAIR_WTR_LEFT]) [.mangle] (d.modSel f (.pair p)) :=
  ((d.framed_modMangle_parts _).trans
    (Dev.framed_wr _ DEV.PAIR_TOP_REQ 0 p _ (sel := fun _ j => j == p.val) (by simp [fieldsElem]) (by simp))).trans
    (Dev.framed_wr _ DEV.PAIR_WTR_LEFT 0 p _ (sel := fun _ j => j == p.val) (by simp [fieldsElem]) (by simp))

/-- The timers of a selector do what a change of it can do. -/
theorem framed_selTimer {s t : State} {r : SelRef} (hm : ∀ g, s.dev.framed fs ps (s.dev.modSel g r))
    {c : Instr} (hc : c ∈ [Instr.holdOffExpire r, .wtrExpire r]) (h : exec c s = .next t) : s.dev.framed fs ps t.dev := by
  simp only [List.mem_cons, List.not_mem_nil, or_false] at hc
  rcases hc with rfl | rfl
  · exact framed_stay h (framed_whenDev fun _ => hm _)
  · exact framed_stay h (framed_whenDev fun _ => hm _)

/-- A write of a selector's command word: the word, and the command and count of refusals of that selector. -/
theorem Dev.framed_protWrite (d : Dev) (r : ProtRef) (v : Nat)
    (hword : ∀ w addr, d.framed fs ps (d.writeFields addr (protWordOf r).1 (protWordOf r).2.1 (protWordOf r).2.2.1 w))
    (hcmd : ∀ (d : Dev) x, d.framed fs ps (d.wr (protFields r).1 (protFields r).2.2.1 (protFields r).2.2.2 x))
    (hrefused : ∀ d : Dev, d.framed fs ps (d.inc (protFields r).2.1 (protFields r).2.2.1 (protFields r).2.2.2)) :
    d.framed fs ps (d.protWrite r v) := by
  unfold Dev.protWrite
  have h1 := (hword v (protWordOf r).2.2.2).trans (hcmd _ (d.rd (protFields r).1 (protFields r).2.2.1 (protFields r).2.2.2))
  exact Dev.framed_ite (fun _ => h1) (fun _ => Dev.framed_ite (fun _ => h1.trans (hcmd _ _)) (fun _ =>
    Dev.framed_ite (fun _ => h1.trans (hrefused _)) (fun _ => h1.trans (hcmd _ _))))

theorem framed_protCommand {s t : State} {r : ProtRef} {v : Word} (hm : s.dev.framed fs ps (s.dev.protWrite r v.toNat)) {c : Instr}
    (hc : c ∈ [Instr.protCmdClear r v, .protCmdLo r v, .protCmdFs r v, .protCmdMsProt r v, .protCmdMsWork r v])
    (h : exec c s = .next t) : s.dev.framed fs ps t.dev := by
  have hcode : ∀ k, protCommand k r v s = .next t → s.dev.framed fs ps t.dev := fun k hk =>
    framed_stay (unlessMisuse_next hk).2 (framed_whenDev fun _ => hm)
  simp only [List.mem_cons, List.not_mem_nil, or_false] at hc
  rcases hc with rfl | rfl | rfl | rfl | rfl <;> exact hcode _ h

theorem Dev.framed_protWrite_port (d : Dev) (n : Fin 512) (v : Nat) :
    d.framed (wordAt .port n 0x324 ++ fieldsAt n [PORT.COMMAND, PORT.CMD_REFUSED]) [.signals, .pair] (d.protWrite (.port n) v) :=
  d.framed_protWrite _ v
    (fun w addr => (d.framed_writeFields addr .port n 0x324 w).mono (Places.within_append_left _ _) (fun _ h => h))
    (fun d x => d.framed_wr PORT.COMMAND n 0 x (sel := fun i _ => i == n.val) (by simp [fieldsAt]) (by simp))
    (fun d => d.framed_inc PORT.CMD_REFUSED n 0 1 (sel := fun i _ => i == n.val) (by simp [fieldsAt]) (by simp))

theorem Dev.framed_protWrite_trib (d : Dev) (r : Fin 16384) (v : Nat) :
    d.framed (wordAt .trib r 0x14 ++ fieldsAt r [TRIB.COMMAND, TRIB.CMD_REFUSED]) [.signals, .pair] (d.protWrite (.trib r) v) :=
  d.framed_protWrite _ v
    (fun w addr => (d.framed_writeFields addr .trib r 0x14 w).mono (Places.within_append_left _ _) (fun _ h => h))
    (fun d x => d.framed_wr TRIB.COMMAND r 0 x (sel := fun i _ => i == r.val) (by simp [fieldsAt]) (by simp))
    (fun d => d.framed_inc TRIB.CMD_REFUSED r 0 1 (sel := fun i _ => i == r.val) (by simp [fieldsAt]) (by simp))

theorem Dev.framed_protWrite_pair (d : Dev) (p : Fin 4) (v : Nat) :
    d.framed (wordAt .dev 0 (0x940 + 16 * p.val) ++ fieldsElem p [DEV.PAIR_COMMAND, DEV.PAIR_CMD_REFUSED]) [.signals, .pair]
      (d.protWrite (.pair p) v) :=
  d.framed_protWrite _ v
    (fun w addr => (d.framed_writeFields addr .dev 0 (0x940 + 16 * p.val) w).mono (Places.within_append_left _ _) (fun _ h => h))
    (fun d x => d.framed_wr DEV.PAIR_COMMAND 0 p x (sel := fun _ j => j == p.val) (by simp [fieldsElem]) (by simp))
    (fun d => d.framed_inc DEV.PAIR_CMD_REFUSED 0 p 1 (sel := fun _ j => j == p.val) (by simp [fieldsElem]) (by simp))

/-- Settles O59: a selector's timer changes the selector, its command word the word and the count of refusals. -/
theorem protectionFrames : Obligations.ProtectionFrames := by
  intro s t
  refine ⟨fun n c hc h => ?_, fun i c hc h => ?_, fun p c hc h => ?_, fun n v c hc h => ?_, fun r v c hc h => ?_, fun p v c hc h => ?_⟩
  · exact framed_selTimer (fun g => s.dev.framed_modSel_group g n) hc h
  · exact framed_selTimer (fun g => s.dev.framed_modSel_entry g i) hc h
  · exact framed_selTimer (fun g => s.dev.framed_modSel_pair g p) hc h
  · exact framed_protCommand (s.dev.framed_protWrite_port n v.toNat) hc h
  · exact framed_protCommand (s.dev.framed_protWrite_trib r v.toNat) hc h
  · exact framed_protCommand (s.dev.framed_protWrite_pair p v.toNat) hc h

/-! ### Sensors -/

/-- What a sensor reading may alter. -/
def sensorPlaces : Places :=
  faultPlaces ++ eventAt .dev 0 ++ condAt .starch 0 ++ fieldsAll [DEV.LANE_CAP, DEV.PROG_ADVICE, STARCH.SENSOR_BAD, STARCH.SENSOR_READING,
    STARCH.SENSOR_V, STARCH.SENSOR_VALID, STARCH.TJ_MAX, STARCH.WALK_STEPS]

def sensorParts : List Part := [.signals, .arch, .faults, .starch]

theorem faultPlaces_within_sensorPlaces : Places.within faultPlaces sensorPlaces :=
  ((Places.within_append_left _ _).trans (Places.within_append_left _ _)).trans (Places.within_append_left _ _)

theorem devEvent_within_sensorPlaces : Places.within (eventAt .dev 0) sensorPlaces :=
  ((Places.within_append_right _ _).trans (Places.within_append_left _ _)).trans (Places.within_append_left _ _)

theorem starchCond_within_sensorPlaces : Places.within (condAt .starch 0) sensorPlaces :=
  (Places.within_append_right _ _).trans (Places.within_append_left _ _)

/-- The register writes, events and parts of which a sensor reading is made. -/
theorem Dev.framed_sensorWr (d : Dev) (f : Field) (j v : Nat) (hf : f ∈ [DEV.LANE_CAP, DEV.PROG_ADVICE, STARCH.SENSOR_BAD,
    STARCH.SENSOR_READING, STARCH.SENSOR_V, STARCH.SENSOR_VALID, STARCH.TJ_MAX, STARCH.WALK_STEPS]) (hj : j < 4096 := by omega) :
    d.framed sensorPlaces sensorParts (d.wr f 0 j v) :=
  d.framed_wr f 0 j v (sel := fun _ _ => true) (List.mem_append_right _ (List.mem_map_of_mem hf)) rfl (by omega) hj

theorem Dev.framed_sensorRaiseDev (d : Dev) (b : Nat) : d.framed sensorPlaces sensorParts (d.raise .dev 0 b) :=
  (d.framed_raise .dev 0 b).mono devEvent_within_sensorPlaces (by simp [sensorParts])

theorem Dev.framed_sensorRaise (d : Dev) (b : Nat) : d.framed sensorPlaces sensorParts (d.raise .starch 0 b) :=
  (d.framed_raise .starch 0 b).mono ((eventAt_within_condAt _ _).trans starchCond_within_sensorPlaces) (by simp [sensorParts])

theorem Dev.framed_sensorCond (d : Dev) (b : Nat) (v : Bool) : d.framed sensorPlaces sensorParts (d.cond .starch 0 b v) :=
  (d.framed_cond .starch 0 b v).mono starchCond_within_sensorPlaces (by simp [sensorParts])

theorem Dev.framed_sensorFault (d : Dev) (n x : Nat) : d.framed sensorPlaces sensorParts (d.fault n x) :=
  (d.framed_fault n x).mono faultPlaces_within_sensorPlaces (by simp [sensorParts])

theorem Dev.framed_sensorFaultCond (d : Dev) (n : Nat) (v : Bool) : d.framed sensorPlaces sensorParts (d.faultCond n v) :=
  (d.framed_faultCond n v).mono faultPlaces_within_sensorPlaces (by simp [sensorParts])

theorem Dev.framed_sensorArch (d : Dev) (x : ArchSt) : d.framed fs sensorParts { d with arch := x } :=
  Dev.framed_parts rfl (fun p hp => by cases p <;> simp [Part.same, sensorParts] at hp ⊢)

theorem Dev.framed_sensorStarch (d : Dev) (x : StarchSt) : d.framed fs sensorParts { d with starch := x } :=
  Dev.framed_parts rfl (fun p hp => by cases p <;> simp [Part.same, sensorParts] at hp ⊢)

theorem Dev.framed_readSensor (others : List Int) (d : Dev) (k : Nat) (r : Int) (hk : k < 4096) :
    d.framed sensorPlaces sensorParts (Dev.readSensor others d k r) := by
  unfold Dev.readSensor
  extract_lets x
  split
  next y bad _ =>
  extract_lets d1 d2 d3 crossed
  have h2 : d.framed sensorPlaces sensorParts d2 :=
    ((d.framed_sensorStarch _).trans (Dev.framed_sensorWr _ STARCH.SENSOR_READING k _ (by simp) hk)).trans
      (Dev.framed_sensorWr _ STARCH.SENSOR_V k _ (by simp) hk)
  have h3 : d.framed sensorPlaces sensorParts d3 := Dev.framed_ite
    (fun _ => ((h2.trans (Dev.framed_sensorWr _ STARCH.SENSOR_BAD 0 _ (by simp))).trans (Dev.framed_sensorRaise _ 3)).trans
      (Dev.framed_sensorFault _ _ _))
    (fun _ => h2)
  exact Dev.framed_ite (fun _ => h3.trans (Dev.framed_sensorRaiseDev _ 9)) (fun _ => h3)

theorem Dev.framed_refreshAdvice (d : Dev) : d.framed sensorPlaces sensorParts d.refreshAdvice := by
  unfold Dev.refreshAdvice
  exact Dev.framed_ite (fun _ => .refl _ _ d)
    (fun _ => (d.framed_sensorWr DEV.PROG_ADVICE 0 _ (by simp)).trans (Dev.framed_sensorRaiseDev _ 8))

theorem Dev.framed_readSensors (d : Dev) (rs : List Int) : d.framed sensorPlaces sensorParts (d.readSensors rs) := by
  unfold Dev.readSensors
  extract_lets was now d1 v few mask d2 d3
  have h1 : d.framed sensorPlaces sensorParts d1 :=
    Dev.framed_foldl _ _ (fun d k hk => Dev.framed_readSensor _ d k _ (by have := List.mem_range.mp hk; omega)) d
  have h2 : d.framed sensorPlaces sensorParts d2 :=
    (h1.trans (Dev.framed_sensorWr _ STARCH.SENSOR_VALID 0 _ (by simp))).trans (Dev.framed_sensorWr _ STARCH.TJ_MAX 0 _ (by simp))
  have h3 : d.framed sensorPlaces sensorParts d3 := (h2.trans (Dev.framed_sensorFaultCond _ _ _)).trans (Dev.framed_sensorCond _ 8 _)
  exact (h3.trans (Dev.framed_sensorArch _ _)).trans (Dev.framed_refreshAdvice _)

theorem Dev.framed_countSteps (d : Dev) (n : Nat) : d.framed sensorPlaces sensorParts (d.countSteps n) :=
  (d.framed_sensorStarch _).trans (Dev.framed_sensorWr _ STARCH.WALK_STEPS 0 _ (by simp))

theorem Dev.framed_updateCaps (d : Dev) : d.framed sensorPlaces sensorParts d.updateCaps := by
  unfold Dev.updateCaps
  refine Dev.framed_foldl _ _ (fun d l hl => ?_) d
  have hw := d.framed_sensorWr DEV.LANE_CAP l (min (laneShare d.prog) (FMap.get 0 d.arch.laneCap l)) (by simp)
    (by have := List.mem_range.mp hl; omega)
  exact Dev.framed_ite (fun _ => hw.trans (Dev.framed_sensorArch _ _)) (fun _ => hw)

theorem Dev.framed_sensorReading (d : Dev) (rs : List Int) (tput : List Nat) :
    d.framed sensorPlaces sensorParts (d.sensorReading rs tput) := by
  unfold Dev.sensorReading
  extract_lets _ d1 d2 d3 d4
  have h2 : d.framed sensorPlaces sensorParts d2 := (d.framed_sensorStarch _).trans (Dev.framed_readSensors d1 rs)
  have h3 : d.framed sensorPlaces sensorParts d3 := h2.trans (d2.framed_sensorCond 4 _)
  have h4 : d.framed sensorPlaces sensorParts d4 := Dev.framed_ite (fun _ => h3.trans (d3.framed_countSteps 0))
    (fun _ => (h3.trans (d3.framed_countSteps _)).trans (Dev.framed_sensorStarch _ _))
  exact (h4.trans (Dev.framed_sensorArch _ _)).trans (Dev.framed_updateCaps _)

/-! ### Calibration retries -/

/-- What a calibration retry of a port may alter. -/
def retryPlaces (n : Nat) : Places :=
  condAt .starch 0 ++ fieldsAll [STARCH.DEFERRED_PORTS] ++ fieldsAt n [PORT.CAL_DEFERRED, PORT.NEVER_CAL, PORT.PORT_CAL_TB, PORT.RETRIES]

theorem Dev.framed_retryStarch (d : Dev) (x : StarchSt) : d.framed fs [.signals, .starch] { d with starch := x } :=
  Dev.framed_parts rfl (fun p hp => by cases p <;> simp [Part.same] at hp ⊢)

theorem Dev.framed_retryWr (d : Dev) (f : Field) (n v : Nat) (hf : f ∈ [PORT.CAL_DEFERRED, PORT.NEVER_CAL, PORT.PORT_CAL_TB, PORT.RETRIES])
    (hn : n < 65536) : d.framed (retryPlaces n) [.signals, .starch] (d.wr f n 0 v) :=
  d.framed_wr f n 0 v (List.mem_append_right _ (List.mem_map_of_mem hf)) (beq_self_eq_true n) hn

theorem Dev.framed_countDeferred (d : Dev) (n : Nat) : d.framed (retryPlaces n) [.signals, .starch] d.countDeferred := by
  unfold Dev.countDeferred
  exact (Dev.framed_wr d STARCH.DEFERRED_PORTS 0 0 _ (sel := fun _ _ => true) (by simp [retryPlaces, fieldsAll]) rfl).trans
    ((Dev.framed_cond _ .starch 0 2 _).mono ((Places.within_append_left _ _).trans (Places.within_append_left _ _)) (by simp))

theorem Dev.framed_retryPass (d : Dev) (n : Nat) (x : PortItems) (tone : Bool) (hn : n < 65536) :
    d.framed (retryPlaces n) [.signals, .starch] (d.retryPass n x tone) := by
  unfold Dev.retryPass
  extract_lets _ d0 _ d1
  have h0 : d.framed (retryPlaces n) [.signals, .starch] d0 := d.framed_retryStarch _
  refine Dev.framed_ite (fun _ => h0.trans (Dev.framed_retryWr _ PORT.RETRIES n _ (by simp) hn)) (fun _ => ?_)
  split
  · exact h0.trans (Dev.framed_retryStarch _ _)
  · refine Dev.framed_ite (fun _ => ?_) (fun _ => h0.trans (Dev.framed_retryStarch _ _))
    have h1 : d0.framed (retryPlaces n) [.signals, .starch] d1 :=
      (d0.framed_retryStarch _).trans (Dev.framed_retryWr _ PORT.CAL_DEFERRED n _ (by simp) hn)
    exact ((((h0.trans h1).trans (Dev.framed_retryStarch _ _)).trans (Dev.framed_retryWr _ PORT.PORT_CAL_TB n _ (by simp) hn)).trans
      (Dev.framed_retryWr _ PORT.NEVER_CAL n _ (by simp) hn)).trans (Dev.framed_countDeferred _ n)

/-! ### Injection -/

theorem Dev.framed_lint (d : Dev) (x : LintSt) (hs : Part.faults ∈ ps) (hl : Part.lint ∈ ps) : d.framed fs ps { d with lint := x } :=
  Dev.framed_parts rfl (fun p hp => by
    cases p <;> simp [Part.same]
    · exact absurd hs hp
    · exact absurd hl hp)

theorem Dev.framed_lintOnly (d : Dev) (x : LintSt) (hs : x.src = d.lint.src) : d.framed fs [.lint] { d with lint := x } :=
  Dev.framed_parts rfl (fun p hp => by
    cases p <;> simp [Part.same] at hp ⊢
    exact hs)

theorem Dev.framed_wrAll (d : Dev) (f : Field) (j v : Nat) (hj : j < 4096 := by omega) : d.framed (fieldsAll [f]) ps (d.wr f 0 j v) :=
  d.framed_wr f 0 j v (sel := fun _ _ => true) (List.mem_singleton_self _) rfl (by omega) hj

theorem Dev.framed_closeShadows (d : Dev) : d.framed (fieldsAll [LINT.SHADOWS]) [.lint] d.closeShadows := by
  unfold Dev.closeShadows Dev.countShadows
  exact Dev.framed.trans (Dev.framed_lintOnly d _ (by rfl)) (Dev.framed_wrAll _ LINT.SHADOWS 0 _)

theorem Dev.framed_injRelease (d : Dev) (hs : Part.faults ∈ ps) (hl : Part.lint ∈ ps) : d.framed fs ps d.injRelease := by
  unfold Dev.injRelease
  split
  · exact (d.framed_lint _ hs hl).trans (Dev.framed_lint _ _ hs hl)
  · exact .refl _ _ d

theorem Dev.framed_injStart (d : Dev) (n mode : Nat) (hs : Part.faults ∈ ps) (hl : Part.lint ∈ ps) : d.framed fs ps (d.injStart n mode) := by
  unfold Dev.injStart
  refine Dev.framed.trans ?_ (Dev.framed_lint _ _ hs hl)
  split
  · exact Dev.framed_ite (fun _ => .refl _ _ d) (fun _ => d.framed_injRelease hs hl)
  · exact .refl _ _ d

theorem Dev.framed_injKey (d : Dev) (v : Word) :
    d.framed (condAt .lint0 0 ++ fieldsAll [LINT.INJ_ACTIVE, LINT.INJ_ARMED]) [.signals, .faults, .lint]
      (if v.toNat = 0xC0DE then (d.wr LINT.INJ_ARMED 0 0 1).cond .lint0 0 7 true
        else ((d.injRelease.wr LINT.INJ_ARMED 0 0 0).wr LINT.INJ_ACTIVE 0 0 0).cond .lint0 0 7 false) := by
  have hw : ∀ (d : Dev) (f : Field) (x : Nat), f ∈ [LINT.INJ_ACTIVE, LINT.INJ_ARMED] →
      d.framed (condAt .lint0 0 ++ fieldsAll [LINT.INJ_ACTIVE, LINT.INJ_ARMED]) [.signals, .faults, .lint] (d.wr f 0 0 x) := fun d f x hf =>
    d.framed_wr f 0 0 x (sel := fun _ _ => true) (List.mem_append_right _ (List.mem_map_of_mem hf)) rfl
  have hc : ∀ (d : Dev) (b : Bool),
      d.framed (condAt .lint0 0 ++ fieldsAll [LINT.INJ_ACTIVE, LINT.INJ_ARMED]) [.signals, .faults, .lint] (d.cond .lint0 0 7 b) :=
    fun d b => (d.framed_cond .lint0 0 7 b).mono (Places.within_append_left _ _) (by simp)
  exact Dev.framed_ite (fun _ => (hw _ _ _ (by simp)).trans (hc _ _))
    (fun _ => (((d.framed_injRelease (by simp) (by simp)).trans (hw _ _ _ (by simp))).trans (hw _ _ _ (by simp))).trans (hc _ _))

theorem Dev.framed_injCtrl (d : Dev) (mode n : Nat) (active : Bool) :
    d.framed (rangePlaces ++ fieldsAll [LINT.INJ_ACTIVE, LINT.INJ_MODE, LINT.INJ_SOURCE]) [.signals, .faults, .lint]
      (if active then (((if mode = 3 then d.busErr DEV.RANGE 0x1084 else d.wr LINT.INJ_MODE 0 0 mode).flag LINT.INJ_ACTIVE 0 0 active).wr
          LINT.INJ_SOURCE 0 0 n).injStart n mode
        else (((if mode = 3 then d.busErr DEV.RANGE 0x1084 else d.wr LINT.INJ_MODE 0 0 mode).flag LINT.INJ_ACTIVE 0 0 active).wr
          LINT.INJ_SOURCE 0 0 n).injRelease) := by
  have hw : ∀ (d : Dev) (f : Field) (x : Nat), f ∈ [LINT.INJ_ACTIVE, LINT.INJ_MODE, LINT.INJ_SOURCE] →
      d.framed (rangePlaces ++ fieldsAll [LINT.INJ_ACTIVE, LINT.INJ_MODE, LINT.INJ_SOURCE]) [.signals, .faults, .lint] (d.wr f 0 0 x) :=
    fun d f x hf => d.framed_wr f 0 0 x (sel := fun _ _ => true) (List.mem_append_right _ (List.mem_map_of_mem hf)) rfl
  have h2 := ((Dev.framed_ite (c := mode = 3)
    (fun _ => (d.framed_busErr 0x1084).mono (Places.within_append_left rangePlaces _) (by simp))
    (fun _ => hw d LINT.INJ_MODE mode (by simp))).trans (hw _ LINT.INJ_ACTIVE (if active then 1 else 0) (by simp))).trans
    (hw _ LINT.INJ_SOURCE n (by simp))
  exact Dev.framed_ite (fun _ => h2.trans (Dev.framed_injStart _ n mode (by simp) (by simp)))
    (fun _ => h2.trans (Dev.framed_injRelease _ (by simp) (by simp)))

/-- Settles O58: each effect is made of writes, events and parts that its frame names. -/
theorem careFrames : Obligations.CareFrames := by
  intro s t
  refine ⟨fun readings tput h => ?_, fun port items touched h => ?_, fun h => ?_, fun v h => ?_, fun v h => ?_, fun h => ?_⟩
  · exact framed_stay h (framed_whenDev fun _ => s.dev.framed_sensorReading readings tput)
  · exact framed_stay h (framed_whenDev fun _ => s.dev.framed_retryPass port items touched (by omega))
  · exact framed_stay h s.dev.framed_closeShadows
  · exact framed_stay (unlessMisuse_next h).2 (framed_whenDev fun _ => s.dev.framed_injKey v)
  · exact framed_stay (unlessMisuse_next h).2 (framed_whenDev fun _ => s.dev.framed_injCtrl _ _ _)
  · refine framed_stay h (framed_whenDev fun _ => Dev.framed.trans ?_ (Dev.framed_wrAll _ BIST.ITEM 0 _))
    exact s.dev.framed_lintOnly _ rfl

/-! ### A ring's ENABLE -/

/-- A device in READY after reset. -/
def readyDev : Dev := { Dev.reset with mode := .ready }

/-- Refutes O48: ENABLE of a ring stands in its word 0x208, and the frame of its write names the fields of the word 0x200. -/
theorem not_hostFrames : ¬ Obligations.HostFrames := by
  intro h
  have hframe := fun t => (h ⟨[], readyDev⟩ t).2.2.2.2.2.2.2.2.1 1 (BitVec.ofNat 32 (2 ^ 30))
  exact not_framed_of_rdDiffers HOSTQ.RING_ENABLE 0 1 (by decide) (by decide) (by decide) (by decide +kernel) hframe

end Sys2Proof.Machine

end

section

/-! SUPPORT. What counts, events, conditions and fault sources leave of the parts of the device; what a register reads after them; registers
and parts read through a frame. -/

set_option Elab.async false

namespace Sys2Proof.Machine

variable (d : Dev)

section
variable (f : Field) (i j n : Nat)

@[simp] theorem Dev.inc_flash : (d.inc f i j n).flash = d.flash := rfl
@[simp] theorem Dev.inc_calFrom : (d.inc f i j n).calFrom = d.calFrom := rfl
@[simp] theorem Dev.inc_arch : (d.inc f i j n).arch = d.arch := rfl
@[simp] theorem Dev.inc_line : (d.inc f i j n).line = d.line := rfl
@[simp] theorem Dev.inc_sys : (d.inc f i j n).sys = d.sys := rfl
@[simp] theorem Dev.inc_starch : (d.inc f i j n).starch = d.starch := rfl
@[simp] theorem Dev.inc_lines : (d.inc f i j n).lines = d.lines := rfl
@[simp] theorem Dev.inc_mangle : (d.inc f i j n).mangle = d.mangle := rfl
@[simp] theorem Dev.inc_needle : (d.inc f i j n).needle = d.needle := rfl
@[simp] theorem Dev.inc_service : (d.inc f i j n).service = d.service := rfl
@[simp] theorem Dev.inc_hamper : (d.inc f i j n).hamper = d.hamper := rfl
@[simp] theorem Dev.inc_pair : (d.inc f i j n).pair = d.pair := rfl
@[simp] theorem Dev.inc_host : (d.inc f i j n).host = d.host := rfl
@[simp] theorem Dev.inc_lint : (d.inc f i j n).lint = d.lint := rfl
@[simp] theorem Dev.inc_timebase : (d.inc f i j n).timebase = d.timebase := rfl
@[simp] theorem Dev.inc_mode : (d.inc f i j n).mode = d.mode := rfl
end

section
variable (f : Field) (i j : Nat) (b : Bool)

@[simp] theorem Dev.flag_flash : (d.flag f i j b).flash = d.flash := rfl
@[simp] theorem Dev.flag_calFrom : (d.flag f i j b).calFrom = d.calFrom := rfl
@[simp] theorem Dev.flag_arch : (d.flag f i j b).arch = d.arch := rfl
@[simp] theorem Dev.flag_line : (d.flag f i j b).line = d.line := rfl
@[simp] theorem Dev.flag_sys : (d.flag f i j b).sys = d.sys := rfl
@[simp] theorem Dev.flag_starch : (d.flag f i j b).starch = d.starch := rfl
@[simp] theorem Dev.flag_lines : (d.flag f i j b).lines = d.lines := rfl
@[simp] theorem Dev.flag_mangle : (d.flag f i j b).mangle = d.mangle := rfl
@[simp] theorem Dev.flag_needle : (d.flag f i j b).needle = d.needle := rfl
@[simp] theorem Dev.flag_service : (d.flag f i j b).service = d.service := rfl
@[simp] theorem Dev.flag_hamper : (d.flag f i j b).hamper = d.hamper := rfl
@[simp] theorem Dev.flag_pair : (d.flag f i j b).pair = d.pair := rfl
@[simp] theorem Dev.flag_host : (d.flag f i j b).host = d.host := rfl
@[simp] theorem Dev.flag_lint : (d.flag f i j b).lint = d.lint := rfl
@[simp] theorem Dev.flag_timebase : (d.flag f i j b).timebase = d.timebase := rfl
@[simp] theorem Dev.flag_mode : (d.flag f i j b).mode = d.mode := rfl
end

/-- What an event leaves: all but registers, what was sent and the sequence of the items. -/
theorem Dev.setEvt_leavesRise_other (d e : Dev) (p : Page) (i b : Nat) (ls : List Nat) :
    Dev.leavesRise e ls (d.setEvt p i b) = { d with
      regs := (Dev.leavesRise e ls (d.setEvt p i b)).regs
      host := { d.host with
        out := (Dev.leavesRise e ls (d.setEvt p i b)).host.out
        evtSeq := (Dev.leavesRise e ls (d.setEvt p i b)).host.evtSeq
        msixPend := (Dev.leavesRise e ls (d.setEvt p i b)).host.msixPend } } :=
  (Dev.leavesRise_signals [] e ls (d.setEvt p i b)).other

/-- An event leaves the parts of the device but registers and what was sent, whatever page it is of. -/
theorem Dev.raise_other (p : Page) (i b : Nat) : d.raise p i b = { d with
    regs := (d.raise p i b).regs
    host := { d.host with
      out := (d.raise p i b).host.out
      evtSeq := (d.raise p i b).host.evtSeq
      msixPend := (d.raise p i b).host.msixPend } } := by
  unfold Dev.raise
  dsimp only
  split
  · exact Dev.setEvt_leavesRise_other _ _ _ _ _ _
  · rfl

/-- A condition leaves what an event leaves. -/
theorem Dev.cond_other (p : Page) (i n : Nat) (b : Bool) : d.cond p i n b = { d with
    regs := (d.cond p i n b).regs
    host := { d.host with
      out := (d.cond p i n b).host.out
      evtSeq := (d.cond p i n b).host.evtSeq
      msixPend := (d.cond p i n b).host.msixPend } } := by
  unfold Dev.cond Dev.condSet Dev.condClear
  split
  · split
    · rfl
    · exact Dev.raise_other _ p i n
  · split <;> rfl

section
variable (p : Page) (i b : Nat)

@[simp] theorem Dev.raise_flash : (d.raise p i b).flash = d.flash := by rw [d.raise_other p i b]
@[simp] theorem Dev.raise_calFrom : (d.raise p i b).calFrom = d.calFrom := by rw [d.raise_other p i b]
@[simp] theorem Dev.raise_arch : (d.raise p i b).arch = d.arch := by rw [d.raise_other p i b]
@[simp] theorem Dev.raise_line : (d.raise p i b).line = d.line := by rw [d.raise_other p i b]
@[simp] theorem Dev.raise_sys : (d.raise p i b).sys = d.sys := by rw [d.raise_other p i b]
@[simp] theorem Dev.raise_starch : (d.raise p i b).starch = d.starch := by rw [d.raise_other p i b]
@[simp] theorem Dev.raise_lines : (d.raise p i b).lines = d.lines := by rw [d.raise_other p i b]
@[simp] theorem Dev.raise_mangle : (d.raise p i b).mangle = d.mangle := by rw [d.raise_other p i b]
@[simp] theorem Dev.raise_needle : (d.raise p i b).needle = d.needle := by rw [d.raise_other p i b]
@[simp] theorem Dev.raise_service : (d.raise p i b).service = d.service := by rw [d.raise_other p i b]
@[simp] theorem Dev.raise_hamper : (d.raise p i b).hamper = d.hamper := by rw [d.raise_other p i b]
@[simp] theorem Dev.raise_pair : (d.raise p i b).pair = d.pair := by rw [d.raise_other p i b]
@[simp] theorem Dev.raise_lint : (d.raise p i b).lint = d.lint := by rw [d.raise_other p i b]
@[simp] theorem Dev.raise_timebase : (d.raise p i b).timebase = d.timebase := by rw [d.raise_other p i b]
@[simp] theorem Dev.raise_mode : (d.raise p i b).mode = d.mode := by rw [d.raise_other p i b]
end

section
variable (p : Page) (i n : Nat) (b : Bool)

@[simp] theorem Dev.cond_flash : (d.cond p i n b).flash = d.flash := by rw [d.cond_other p i n b]
@[simp] theorem Dev.cond_calFrom : (d.cond p i n b).calFrom = d.calFrom := by rw [d.cond_other p i n b]
@[simp] theorem Dev.cond_arch : (d.cond p i n b).arch = d.arch := by rw [d.cond_other p i n b]
@[simp] theorem Dev.cond_line : (d.cond p i n b).line = d.line := by rw [d.cond_other p i n b]
@[simp] theorem Dev.cond_sys : (d.cond p i n b).sys = d.sys := by rw [d.cond_other p i n b]
@[simp] theorem Dev.cond_starch : (d.cond p i n b).starch = d.starch := by rw [d.cond_other p i n b]
@[simp] theorem Dev.cond_lines : (d.cond p i n b).lines = d.lines := by rw [d.cond_other p i n b]
@[simp] theorem Dev.cond_mangle : (d.cond p i n b).mangle = d.mangle := by rw [d.cond_other p i n b]
@[simp] theorem Dev.cond_needle : (d.cond p i n b).needle = d.needle := by rw [d.cond_other p i n b]
@[simp] theorem Dev.cond_service : (d.cond p i n b).service = d.service := by rw [d.cond_other p i n b]
@[simp] theorem Dev.cond_hamper : (d.cond p i n b).hamper = d.hamper := by rw [d.cond_other p i n b]
@[simp] theorem Dev.cond_pair : (d.cond p i n b).pair = d.pair := by rw [d.cond_other p i n b]
@[simp] theorem Dev.cond_lint : (d.cond p i n b).lint = d.lint := by rw [d.cond_other p i n b]
@[simp] theorem Dev.cond_timebase : (d.cond p i n b).timebase = d.timebase := by rw [d.cond_other p i n b]
@[simp] theorem Dev.cond_mode : (d.cond p i n b).mode = d.mode := by rw [d.cond_other p i n b]
end

section
variable (n x : Nat)

@[simp] theorem Dev.fault_flash : (d.fault n x).flash = d.flash := Dev.cond_flash _ _ _ _ _
@[simp] theorem Dev.fault_calFrom : (d.fault n x).calFrom = d.calFrom := Dev.cond_calFrom _ _ _ _ _
@[simp] theorem Dev.fault_arch : (d.fault n x).arch = d.arch := Dev.cond_arch _ _ _ _ _
@[simp] theorem Dev.fault_line : (d.fault n x).line = d.line := Dev.cond_line _ _ _ _ _
@[simp] theorem Dev.fault_sys : (d.fault n x).sys = d.sys := Dev.cond_sys _ _ _ _ _
@[simp] theorem Dev.fault_starch : (d.fault n x).starch = d.starch := Dev.cond_starch _ _ _ _ _
@[simp] theorem Dev.fault_lines : (d.fault n x).lines = d.lines := Dev.cond_lines _ _ _ _ _
@[simp] theorem Dev.fault_mangle : (d.fault n x).mangle = d.mangle := Dev.cond_mangle _ _ _ _ _
@[simp] theorem Dev.fault_needle : (d.fault n x).needle = d.needle := Dev.cond_needle _ _ _ _ _
@[simp] theorem Dev.fault_service : (d.fault n x).service = d.service := Dev.cond_service _ _ _ _ _
@[simp] theorem Dev.fault_hamper : (d.fault n x).hamper = d.hamper := Dev.cond_hamper _ _ _ _ _
@[simp] theorem Dev.fault_pair : (d.fault n x).pair = d.pair := Dev.cond_pair _ _ _ _ _
@[simp] theorem Dev.fault_timebase : (d.fault n x).timebase = d.timebase := Dev.cond_timebase _ _ _ _ _
@[simp] theorem Dev.fault_mode : (d.fault n x).mode = d.mode := Dev.cond_mode _ _ _ _ _
end

section
variable (n : Nat) (b : Bool)

@[simp] theorem Dev.faultCond_flash : (d.faultCond n b).flash = d.flash := Dev.cond_flash _ _ _ _ _
@[simp] theorem Dev.faultCond_calFrom : (d.faultCond n b).calFrom = d.calFrom := Dev.cond_calFrom _ _ _ _ _
@[simp] theorem Dev.faultCond_arch : (d.faultCond n b).arch = d.arch := Dev.cond_arch _ _ _ _ _
@[simp] theorem Dev.faultCond_line : (d.faultCond n b).line = d.line := Dev.cond_line _ _ _ _ _
@[simp] theorem Dev.faultCond_sys : (d.faultCond n b).sys = d.sys := Dev.cond_sys _ _ _ _ _
@[simp] theorem Dev.faultCond_starch : (d.faultCond n b).starch = d.starch := Dev.cond_starch _ _ _ _ _
@[simp] theorem Dev.faultCond_lines : (d.faultCond n b).lines = d.lines := Dev.cond_lines _ _ _ _ _
@[simp] theorem Dev.faultCond_mangle : (d.faultCond n b).mangle = d.mangle := Dev.cond_mangle _ _ _ _ _
@[simp] theorem Dev.faultCond_needle : (d.faultCond n b).needle = d.needle := Dev.cond_needle _ _ _ _ _
@[simp] theorem Dev.faultCond_service : (d.faultCond n b).service = d.service := Dev.cond_service _ _ _ _ _
@[simp] theorem Dev.faultCond_hamper : (d.faultCond n b).hamper = d.hamper := Dev.cond_hamper _ _ _ _ _
@[simp] theorem Dev.faultCond_pair : (d.faultCond n b).pair = d.pair := Dev.cond_pair _ _ _ _ _
@[simp] theorem Dev.faultCond_timebase : (d.faultCond n b).timebase = d.timebase := Dev.cond_timebase _ _ _ _ _
@[simp] theorem Dev.faultCond_mode : (d.faultCond n b).mode = d.mode := Dev.cond_mode _ _ _ _ _
end

/-! ### Through a frame -/

section
variable {fs : Places} {ps : List Part} {d t : Dev}

/-- A field that no place of a frame names reads as before. -/
theorem Dev.framed.rd (h : d.framed fs ps t) (f : Field) (i j : Nat) (hf : fs.all (fun g => g.1.id != f.id) = true := by rfl)
    (hi : i < 65536 := by omega) (hj : j < 4096 := by omega) : t.rd f i j = d.rd f i j :=
  h.1 f i j hi hj (fun g hg he => by simpa [he] using List.all_eq_true.mp hf g hg)

end

/-! ### Fields read through one operation -/

/-- A field reads as before a write of another field. -/
theorem Dev.rd_wr_other (f g : Field) (inst idx i j v : Nat) (h : (g.id != f.id) = true := by rfl) (hi : inst < 65536 := by omega)
    (hx : idx < 4096 := by omega) (hi' : i < 65536 := by omega) (hj : j < 4096 := by omega) :
    (d.wr f inst idx v).rd g i j = d.rd g i j :=
  d.rd_wr_ne f g inst idx i j v (by simpa using h)

theorem Dev.rd_flag_other (f g : Field) (inst idx i j : Nat) (b : Bool) (h : (g.id != f.id) = true := by rfl)
    (hi : inst < 65536 := by omega) (hx : idx < 4096 := by omega) (hi' : i < 65536 := by omega) (hj : j < 4096 := by omega) :
    (d.flag f inst idx b).rd g i j = d.rd g i j :=
  d.rd_wr_other f g inst idx i j _ h

theorem Dev.rd_inc_other (f g : Field) (inst idx i j n : Nat) (h : (g.id != f.id) = true := by rfl)
    (hi : inst < 65536 := by omega) (hx : idx < 4096 := by omega) (hi' : i < 65536 := by omega) (hj : j < 4096 := by omega) :
    (d.inc f inst idx n).rd g i j = d.rd g i j :=
  d.rd_wr_other f g inst idx i j _ h

theorem Dev.rd_raise_other (p : Page) (n b : Nat) (g : Field) (i j : Nat)
    (hg : (eventAt p n).all (fun x => x.1.id != g.id) = true := by rfl) (hn : n < 65536 := by omega) (hi : i < 65536 := by omega)
    (hj : j < 4096 := by omega) : (d.raise p n b).rd g i j = d.rd g i j :=
  (d.framed_raise p n b hn).rd g i j hg

theorem Dev.rd_cond_other (p : Page) (n k : Nat) (b : Bool) (g : Field) (i j : Nat)
    (hg : (condAt p n).all (fun x => x.1.id != g.id) = true := by rfl) (hn : n < 65536 := by omega) (hi : i < 65536 := by omega)
    (hj : j < 4096 := by omega) : (d.cond p n k b).rd g i j = d.rd g i j :=
  (d.framed_cond p n k b hn).rd g i j hg

theorem Dev.rd_faultCond_other (n : Nat) (b : Bool) (g : Field) (i j : Nat)
    (hg : faultPlaces.all (fun x => x.1.id != g.id) = true := by rfl) (hi : i < 65536 := by omega)
    (hj : j < 4096 := by omega) : (d.faultCond n b).rd g i j = d.rd g i j :=
  (d.framed_faultCond n b).rd g i j hg

theorem Dev.rd_fault_other (n x : Nat) (g : Field) (i j : Nat)
    (hg : faultPlaces.all (fun x => x.1.id != g.id) = true := by rfl) (hi : i < 65536 := by omega)
    (hj : j < 4096 := by omega) : (d.fault n x).rd g i j = d.rd g i j :=
  (d.framed_fault n x).rd g i j hg

theorem Dev.rd_complete_other (tag : Nat) (st : Status) (res : List Nat) (ab : Bool) (g : Field) (i j : Nat)
    (hg : completionPlaces.all (fun x => x.1.id != g.id) = true := by rfl) (hi : i < 65536 := by omega)
    (hj : j < 4096 := by omega) : (d.complete tag st res ab).rd g i j = d.rd g i j :=
  (d.framed_complete tag st res ab).rd g i j hg

/-- A one-bit field reads as written. -/
theorem Dev.on_wr_one (f : Field) (i j : Nat) (hf : (f.width != 0) = true := by rfl) : (d.wr f i j 1).on f i j = true := by
  simpa [Dev.on] using hf

theorem Dev.on_wr_zero (f : Field) (i j : Nat) : (d.wr f i j 0).on f i j = false := by simp [Dev.on]

section
variable (tag : Nat) (st : Status) (res : List Nat) (ab : Bool)

@[simp] theorem Dev.complete_arch : (d.complete tag st res ab).arch = d.arch := (d.framed_complete tag st res ab).2 .arch (by simp)
@[simp] theorem Dev.complete_line : (d.complete tag st res ab).line = d.line := (d.framed_complete tag st res ab).2 .line (by simp)
@[simp] theorem Dev.complete_sys : (d.complete tag st res ab).sys = d.sys := (d.framed_complete tag st res ab).2 .sys (by simp)
@[simp] theorem Dev.complete_starch : (d.complete tag st res ab).starch = d.starch := (d.framed_complete tag st res ab).2 .starch (by simp)
@[simp] theorem Dev.complete_lines : (d.complete tag st res ab).lines = d.lines := (d.framed_complete tag st res ab).2 .lines (by simp)
@[simp] theorem Dev.complete_mangle : (d.complete tag st res ab).mangle = d.mangle := (d.framed_complete tag st res ab).2 .mangle (by simp)
@[simp] theorem Dev.complete_needle : (d.complete tag st res ab).needle = d.needle := (d.framed_complete tag st res ab).2 .needle (by simp)
@[simp] theorem Dev.complete_service : (d.complete tag st res ab).service = d.service := (d.framed_complete tag st res ab).2 .service (by simp)
@[simp] theorem Dev.complete_hamper : (d.complete tag st res ab).hamper = d.hamper := (d.framed_complete tag st res ab).2 .hamper (by simp)
@[simp] theorem Dev.complete_flash : (d.complete tag st res ab).flash = d.flash := (d.framed_complete tag st res ab).2 .flash (by simp)
@[simp] theorem Dev.complete_calFrom : (d.complete tag st res ab).calFrom = d.calFrom := (d.framed_complete tag st res ab).2 .calFrom (by simp)
end

/-- An event raised shows, whatever else its word holds. -/
theorem Dev.evt_raise (p : Page) (n b : Nat) (hn : n < 65536 := by omega) (hb : b < 32 := by omega) :
    ((d.raise p n b).rd (HDR.EVT_STATUS p) n).testBit b = true :=
  d.raise_bit p n b hn hb

end Sys2Proof.Machine

end

section

/-! PROOFS. System timing: FSYNC_IN, the qualification of a source, TSTATE, jumps, boundaries. -/

set_option Elab.async false

namespace Sys2Proof.Machine

/-! ### What the timing loop leaves -/

@[simp] theorem Dev.setEntry_line (d : Dev) (e : Nat) (x : EntrySt) : (d.setEntry e x).line = d.line := rfl

@[simp] theorem Dev.judgeEntry_line (d : Dev) (e : Nat) : (d.judgeEntry e).line = d.line := by
  unfold Dev.judgeEntry
  dsimp only
  (repeat' split) <;> rfl

@[simp] theorem Dev.showEntries_line (d : Dev) : d.showEntries.line = d.line := rfl

@[simp] theorem Dev.showEntries_sys (d : Dev) : d.showEntries.sys = d.sys := rfl

@[simp] theorem Dev.timingEvent_line (d : Dev) : d.timingEvent.line = d.line := by simp [Dev.timingEvent]

@[simp] theorem Dev.timingEvent_sys (d : Dev) : d.timingEvent.sys = d.sys := by simp [Dev.timingEvent]

@[simp] theorem Dev.loseLock_line (d : Dev) : d.loseLock.1.line = d.line := by
  unfold Dev.loseLock
  dsimp only
  (repeat' split) <;> rfl

@[simp] theorem Dev.loseLock_entries (d : Dev) : d.loseLock.1.sys.entries = d.sys.entries := by
  unfold Dev.loseLock
  dsimp only
  (repeat' split) <;> rfl

/-- The loop selects again without touching the line side or what it holds of each source. -/
theorem Dev.reselect_line_entries (d : Dev) : d.reselect.line = d.line ∧ d.reselect.sys.entries = d.sys.entries := by
  unfold Dev.reselect
  extract_lets w changed src d1 _ d2 e bo _ d3
  have h2 : d2.line = d.line ∧ d2.sys.entries = d.sys.entries := by unfold d2; (repeat' split) <;> exact ⟨rfl, rfl⟩
  have h3 : d3.line = d.line ∧ d3.sys.entries = d.sys.entries := by unfold d3; (repeat' split) <;> exact h2
  split
  · split
    · exact h2
    · simpa using h3
  · dsimp only
    split <;> simp [d1, src]

@[simp] theorem Dev.timingUpdate_line (d : Dev) : d.timingUpdate.line = d.line := by
  rw [Dev.timingUpdate, (Dev.reselect_line_entries _).1, Dev.showEntries_line]
  exact foldl_keeps Dev.line Dev.judgeEntry Dev.judgeEntry_line _ d

@[simp] theorem Dev.sampleIf_line (d : Dev) (kind lane ref : Nat) : (d.sampleIf kind lane ref).line = d.line := by
  unfold Dev.sampleIf
  split
  · split <;> rfl
  · rfl

/-! ### The rows -/

/-- An edge of FSYNC_IN in its period: the reference moves to it, and no period is bad. -/
theorem Dev.fsyncEdge_good {d : Dev} {r t : Nat} (h : d.line.fsyncRef = some r) (hl : r + 20476 ≤ t) (hh : t ≤ r + 20484) :
    (d.fsyncEdge t).line.fsyncRef = some t ∧ (d.fsyncEdge t).line.fsyncBad = 0 := by
  simp [Dev.fsyncEdge, h, hl, hh, Dev.fsyncPeriod]

/-- A period of FSYNC_IN without an edge: the reference runs on, and no period is good. -/
theorem Dev.fsyncTimeout_late {d : Dev} {r : Nat} (h : d.line.fsyncRef = some r) (ht : r + 20484 < d.timebase) :
    d.fsyncTimeout.line.fsyncRef = some (r + 20480) ∧ d.fsyncTimeout.line.fsyncGood = 0 := by
  simp [Dev.fsyncTimeout, h, ht, Dev.fsyncPeriod, frameTicks]

theorem Dev.entry_congr {d e : Dev} (h : e.sys.entries = d.sys.entries) (n : Nat) : e.entry n = d.entry n := by
  simp only [Dev.entry, h]

/-- A source found qualified stays so through the selection that follows. -/
theorem Dev.qualified_after_reselect (d : Dev) (e : Nat) :
    ((((d.setEntry e { d.entry e with qualified := true }).showEntries).reselect).entry e).qualified = true := by
  rw [Dev.entry_congr (Dev.reselect_line_entries _).2]
  simp [Dev.entry, Dev.setEntry, FMap.get_set_same]

/-- A jump: the phase of the reference, no build-out, none due, and one counted. -/
theorem Dev.alignJump_far {d : Dev} {r : Nat} (h : 16 < (phaseErr d.sys.sysPhase (r : Int) d.effOffset).natAbs) :
    (d.alignJump r).sys.buildOut = 0 ∧ (d.alignJump r).sys.jumpDue = false ∧
      (d.alignJump r).sys.sysPhase = (((d.sys.sysPhase : Int) + phaseErr d.sys.sysPhase (r : Int) d.effOffset) % 327680).toNat ∧
      (d.alignJump r).rd DEV.ALIGN_JUMPS = min (d.rd DEV.ALIGN_JUMPS + 1) 65535 := by
  have hn : ¬ (phaseErr d.sys.sysPhase (r : Int) d.effOffset).natAbs ≤ 16 := by omega
  unfold Dev.alignJump
  simp only [if_neg hn]
  refine ⟨rfl, rfl, rfl, ?_⟩
  rw [Dev.rd_inc_same, Nat.min_comm]
  rfl

/-- Settles O8: each row's condition holds, and its effect is as said. -/
theorem timingRowsComplete : Obligations.TimingRowsComplete := by
  intro s
  refine ⟨fun lo hi r hlo hhi hr h1 h2 => ?_, fun r hr ht => ?_, fun e hf hq he ht => ?_, fun hts hok => ?_, fun hts hfar => ?_,
    fun e r hj hm htr hn hs hr hp => ?_, fun t0 hl ht => ?_, fun hr hn => ?_, fun hr hn => ?_⟩
  · exact ⟨_, stay_whenDev (fun d => d.fsyncEdge d.timebase) (by simp [hlo, hhi]), Dev.fsyncEdge_good hr h1 h2⟩
  · exact ⟨_, rfl, Dev.fsyncTimeout_late hr ht⟩
  · have hd : s.dev.passed (s.dev.entry e).since (secTicks (s.dev.rd DEV.SRC_QUAL)) = true := by
      unfold Dev.passed secTicks; simp only [decide_eq_true_eq]; omega
    exact ⟨_, stay_whenDev _ (by simp [hf, hq, he, hd]), s.dev.qualified_after_reselect e⟩
  · exact ⟨_, stay_whenDev _ (by simp [hts, hok, tsAcquire]), by rw [State.after_rd, Dev.rd_wr_same]; rfl, rfl⟩
  · exact ⟨_, stay_whenDev _ (by simp [hts, hfar, tsLocked]), by rw [State.after_rd, Dev.rd_wr_same]; rfl, rfl⟩
  · refine ⟨s.after (fun d => d.alignJump r), ?_, Dev.alignJump_far hp⟩
    change execAlignJump s = _
    exact stay_eq_after (by simp [hj, hm, htr, hn, hs, hr])
  · refine ⟨s.after (fun d => d.wr DEV.HOLD_VALID 0 0 1), ?_, s.dev.on_wr_one DEV.HOLD_VALID 0 0⟩
    change execHoldValidSet s = _
    exact stay_eq_after (by simp [hl, secTicks, ht])
  · exact shift_whenDev _ (by simp [hr, hn])
  · exact stay_whenDev _ (by simp [hr, hn])

end Sys2Proof.Machine

end

section

/-! PROOFS. Trunk lanes: reception, loss of lock, TLOS, the TSD window, ENABLE. -/

set_option Elab.async false

namespace Sys2Proof.Machine

/-- A word cut down to one of its bits is that bit's weight or nothing. -/
theorem and_two_pow_eq (w b : Nat) : w &&& 2 ^ b = (w.testBit b).toNat * 2 ^ b := by
  refine Nat.eq_of_testBit_eq (fun i => ?_)
  rw [Nat.testBit_and, Nat.testBit_two_pow]
  by_cases h : b = i
  · subst h
    cases w.testBit b <;> simp
  · cases w.testBit b <;> simp [h]

/-- A bit taken out of a word does not show in it. -/
theorem testBit_sub_and (w b : Nat) : (w - (w &&& 2 ^ b)).testBit b = false := by
  rw [and_two_pow_eq]
  cases h : w.testBit b
  · simpa using h
  · have hle : 2 ^ b ≤ w := Nat.ge_two_pow_of_testBit h
    have hq : w / 2 ^ b = (w - 2 ^ b) / 2 ^ b + 1 := Nat.div_eq_sub_div (Nat.two_pow_pos b) hle
    rw [Nat.testBit_eq_decide_div_mod_eq] at h ⊢
    simp only [decide_eq_true_eq] at h
    simp only [Bool.toNat_true, Nat.one_mul, decide_eq_false_iff_not]
    omega

@[simp] theorem Dev.modTrx_rd (d : Dev) (l : Nat) (f : TrunkRx → TrunkRx) (g : Field) (i j : Nat) : (d.modTrx l f).rd g i j = d.rd g i j := rfl

@[simp] theorem Dev.modTrx_trx (d : Dev) (l : Nat) (f : TrunkRx → TrunkRx) : (d.modTrx l f).trx l = f (d.trx l) := FMap.get_set_same _ _ _ _

@[simp] theorem State.after_trx (s : State) (f : Dev → Dev) (l : Nat) : (s.after f).dev.trx l = (f s.dev).trx l := rfl

theorem Dev.trx_congr {d e : Dev} (h : e.mangle = d.mangle) (l : Nat) : e.trx l = d.trx l := by simp only [Dev.trx, h]

/-! ### A defect of a trunk lane -/

theorem Dev.setTDefect_mangle (d : Dev) (l b : Nat) (v : Bool) : (d.setTDefect l b v).mangle = d.mangle := by
  simp [Dev.setTDefect, Dev.judgeTrunk]

/-- A defect set alters DEFECTS, FAILED and the condition of its lane. -/
theorem Dev.framed_setTDefect (d : Dev) (l b : Nat) (v : Bool) (hl : l < 65536) :
    d.framed (condAt .trunk l ++ fieldsAt l [TRUNK.DEFECTS, TRUNK.FAILED]) [.signals] (d.setTDefect l b v) := by
  have hw : ∀ (d : Dev) (f : Field) (x : Nat), f ∈ [TRUNK.DEFECTS, TRUNK.FAILED] →
      d.framed (condAt .trunk l ++ fieldsAt l [TRUNK.DEFECTS, TRUNK.FAILED]) [.signals] (d.wr f l 0 x) := fun d f x hf =>
    d.framed_wr f l 0 x (List.mem_append_right _ (List.mem_map_of_mem hf)) (beq_self_eq_true l) hl
  unfold Dev.setTDefect Dev.judgeTrunk
  exact ((hw _ _ _ (by simp)).trans ((Dev.framed_cond _ .trunk l b v hl).mono (Places.within_append_left _ _) (by simp))).trans
    (hw _ _ _ (by simp))

/-- Of the DEFECTS word of a lane, the bit set reads as set. -/
theorem Dev.setTDefect_tDefect (d : Dev) (l b : Nat) (v : Bool) (hl : l < 65536) (hb : b < TRUNK.DEFECTS.width) :
    (d.setTDefect l b v).tDefect l b = v := by
  unfold Dev.tDefect Dev.setTDefect Dev.judgeTrunk
  rw [Dev.rd_flag_other _ TRUNK.FAILED TRUNK.DEFECTS l 0 l 0, Dev.rd_cond_other _ .trunk l b v TRUNK.DEFECTS l 0 rfl hl hl, Dev.rd_wr_same,
    Nat.testBit_mod_two_pow]
  cases v
  · simp [testBit_sub_and]
  · simp [testBit_orBit, hb]

/-- A lane with TLOS has failed. -/
theorem Dev.trunkFailedNow_of_tlos {d : Dev} {l : Nat} (h : d.tDefect l 0 = true) : d.trunkFailedNow l = true := by
  simp [Dev.trunkFailedNow, h]

theorem Dev.setTDefect_failed (d : Dev) (l : Nat) (hl : l < 65536) : (d.setTDefect l 0 true).on TRUNK.FAILED l = true := by
  have h := d.setTDefect_tDefect l 0 true hl (by decide)
  unfold Dev.setTDefect Dev.judgeTrunk at h ⊢
  rw [Dev.tDefect, Dev.rd_flag_other _ TRUNK.FAILED TRUNK.DEFECTS l 0 l 0] at h
  rw [Dev.on_flag_same _ _ _ _ _ (by decide)]
  exact Dev.trunkFailedNow_of_tlos h

/-! ### The rows -/

theorem Dev.trunkOn_flagLock (d : Dev) (l : Fin 8) (v : Bool) : (d.flag TRUNK.CDR_LOCK l 0 v).trunkOn l = d.trunkOn l := by
  unfold Dev.trunkOn Dev.on
  rw [Dev.rd_flag_other d TRUNK.CDR_LOCK (HDR.ENABLE .trunk) l 0 l 0 v]

/-- The loss of a lane's lock: no lock awaited, TLOS. -/
def Dev.lockLost (d : Dev) (l : Nat) : Dev :=
  ((d.flag TRUNK.CDR_LOCK l 0 false).modTrx l (fun x => { x with lockFrom := none })).setTDefect l 0 true

theorem exec_trunkCdrChange_false {s : State} {l : Fin 8} (h : s.dev.trunkOn l = true) :
    exec (.trunkCdrChange l false) s = .next (s.after (fun d => d.lockLost l)) := by
  change execTrunkCdrChange l false s = _
  exact stay_eq_after (by simp [s.dev.trunkOn_flagLock, h, Dev.lockLost])

theorem exec_trunkCdrChange_true {s : State} {l : Fin 8} (h : s.dev.trunkOn l = true) :
    exec (.trunkCdrChange l true) s = .next (s.after (fun d =>
      (d.flag TRUNK.CDR_LOCK l 0 true).modTrx l (fun x => { x with lockFrom := some d.timebase }))) := by
  change execTrunkCdrChange l true s = _
  exact stay_eq_after (by simp [s.dev.trunkOn_flagLock, h])

/-- A TSD window ended starts the next with none of its errors. -/
theorem Dev.tsdEnd_window (d : Dev) (l : Fin 8) : ((d.tsdEnd l).trx l).winSeen = 0 ∧ (d.tsdEnd l).rd TRUNK.TSD_WIN_ERR l = 0 := by
  have hw : ((d.tsdWindow l).trx l).winSeen = 0 ∧ (d.tsdWindow l).rd TRUNK.TSD_WIN_ERR l = 0 := by
    unfold Dev.tsdWindow
    refine ⟨?_, by simp⟩
    rw [Dev.trx_congr (Dev.wr_mangle _ _ _ _ _), Dev.modTrx_trx]
  unfold Dev.tsdEnd
  dsimp only
  split
  · rw [Dev.trx_congr (Dev.setTDefect_mangle _ _ _ _), (Dev.framed_setTDefect _ l 5 false (by omega)).rd TRUNK.TSD_WIN_ERR l 0]
    exact hw
  · exact hw

/-- Settles O15: each row's condition holds, and its effect is as said. -/
theorem trunkRowsComplete : Obligations.TrunkRowsComplete := by
  intro s l
  refine ⟨fun ws hon hlb hl => ?_, fun hon => ?_, fun hon => ?_, fun t0 hd hf ht => ?_, fun hw hf => ?_, fun v hv hw => ?_⟩
  · exact shift_whenDev _ (by simp [hon, hlb, hl])
  · refine ⟨_, exec_trunkCdrChange_false hon, ?_, ?_, ?_⟩
    · rw [State.after_rd, Dev.lockLost, (Dev.framed_setTDefect _ l 0 true (by omega)).rd TRUNK.CDR_LOCK l 0, Dev.modTrx_rd]
      exact s.dev.rd_flag_same TRUNK.CDR_LOCK l 0 false (by decide)
    · exact Dev.setTDefect_tDefect _ l 0 true (by omega) (by decide)
    · exact Dev.setTDefect_failed _ l (by omega)
  · refine ⟨_, exec_trunkCdrChange_true hon, s.dev.rd_flag_same TRUNK.CDR_LOCK l 0 true (by decide), ?_⟩
    simp
  · exact ⟨_, stay_whenDev _ (by simp [hd, hf, Dev.passed, ht]), Dev.setTDefect_tDefect _ l 0 false (by omega) (by decide)⟩
  · exact ⟨_, stay_whenDev _ (by simp [hw, hf]), s.dev.tsdEnd_window l⟩
  · exact (unlessMisuse_of_eq_none hv).trans (stay_whenDev _ hw)

end Sys2Proof.Machine

end

section

/-! PROOFS. Connection memory, page swaps and the walk. -/

set_option Elab.async false

namespace Sys2Proof.Machine

/-- A swap asked for where none is. -/
def Dev.swapAsked (d : Dev) (tag : Nat) : Dev :=
  (d.modMangle (fun m => { m with swap := some ⟨tag,
    if d.timebase + 3277 < d.sys.nextMf ∧ d.mangle.nextWalk ≤ d.sys.nextMf then d.sys.nextMf else d.sys.nextMf + mfTicks, false⟩ })).wr
      MANGLE.SWAP_PENDING 0 0 1

theorem exec_cmdPageSwap {s : State} {tag : Fin 4096} {c : Inflight} (hr : s.dev.ready 1 tag = some c) (ha : c.args = [])
    (hs : s.dev.mangle.swap = none) : exec (.cmdPageSwap tag) s = .next (s.after (fun d => (d.start tag).swapAsked tag)) := by
  refine (unlessMisuse_of_eq_none (argMisuse_of_ready hr (by simp [ha]))).trans (stay_eq_after ?_)
  rw [Dev.startCmd_of_ready hr]
  have hn : ¬ (s.dev.start tag).mangle.swap.isSome = true := by
    change ¬ s.dev.mangle.swap.isSome = true
    simp [hs]
  exact if_neg hn

theorem Dev.swapPoint_of_none {d : Dev} (h : d.mangle.swap = none) (b : Nat) : d.swapPoint b = d := by
  simp [Dev.swapPoint, h]

/-- Settles O14: each row's condition holds, and its effect is as said. -/
theorem mangleRowsComplete : Obligations.MangleRowsComplete := by
  intro s
  refine ⟨fun page entry high v hm hw => ?_, fun tag c hr ha hs => ?_, fun x hx hp => ?_, fun ticks hm hn hs => ?_,
    fun ticks late hm hn hs => ?_⟩
  · exact (unlessMisuse_of_eq_none hm).trans (stay_whenDev _ hw)
  · refine ⟨_, _, exec_cmdPageSwap hr ha hs, rfl, rfl, rfl, ?_, ?_⟩
    · exact Dev.rd_wr_same _ MANGLE.SWAP_PENDING 0 0 1
    · exact Dev.rd_wr_other _ MANGLE.SWAP_PENDING MANGLE.ACTIVE_PAGE 0 0 0 0 1
  · change execPageCopyDone s = _
    exact stay_eq_after (by simp [hx, hp])
  · refine ⟨_, ?_, rfl⟩
    change execMangleWalkStart ticks [] s = _
    refine stay_whenDev_eq_after (by simp [hm, hn]) ?_
    simp [Dev.swapPoint_of_none hs, Dev.modMangle, hm]
  · refine ⟨s.after (fun d => d.modMangle (fun m => { m with nextWalk := d.mangle.nextWalk + frameTicks })), ?_, rfl, rfl⟩
    change execMangleWalkStart ticks late s = _
    refine stay_whenDev_eq_after (by rcases hm with hm | hm <;> simp [hm, hn]) ?_
    have hrun : s.dev.mode ≠ .run := by rcases hm with hm | hm <;> simp [hm]
    simp [Dev.swapPoint_of_none hs, Dev.modMangle, hrun]

end Sys2Proof.Machine

end

section

/-! PROOFS. Roles, claim pins, the mate link, switchover. -/

set_option Elab.async false

namespace Sys2Proof.Machine

@[simp] theorem Dev.modPair_rd (d : Dev) (f : PairSt → PairSt) (g : Field) (i j : Nat) : (d.modPair f).rd g i j = d.rd g i j := rfl

@[simp] theorem Dev.modPair_pair (d : Dev) (f : PairSt → PairSt) : (d.modPair f).pair = f d.pair := rfl

theorem Dev.paired_wr (d : Dev) (f : Field) (v : Nat) (hf : ((HDR.ENABLE .pair).id != f.id) = true := by rfl) :
    (d.wr f 0 0 v).paired = d.paired := by
  simp only [Dev.paired, Dev.on, d.rd_wr_other f (HDR.ENABLE .pair) 0 0 0 0 v hf, Dev.wr_host]

theorem Dev.paired_modPair (d : Dev) (f : PairSt → PairSt) : (d.modPair f).paired = d.paired := rfl

/-- What PAIR shows of its state. -/
def pairShown : List Field := [PAIR.ROLE, PAIR.MATE_UP, PAIR.PEER_CLAIMS, PAIR.SYNCED, PAIR.CKPT_GEN_LO, PAIR.CKPT_GEN_HI, PAIR.JSEQ, PAIR.HB_OK,
  PAIR.OWN_HEALTH]

theorem Dev.framed_showPair (d : Dev) : d.framed (condAt .pair 0 ++ fieldsAll pairShown) [.signals] d.showPair := by
  have hw : ∀ (d : Dev) (f : Field) (x : Nat), f ∈ pairShown → d.framed (condAt .pair 0 ++ fieldsAll pairShown) [.signals] (d.wr f 0 0 x) :=
    fun d f x hf => d.framed_wr f 0 0 x (sel := fun _ _ => true) (List.mem_append_right _ (List.mem_map_of_mem hf)) rfl
  unfold Dev.showPair
  refine Dev.framed.trans (Dev.framed.trans (Dev.framed.trans ?_ (hw _ PAIR.HB_OK _ (by simp [pairShown])))
    (hw _ PAIR.OWN_HEALTH _ (by simp [pairShown]))) ((Dev.framed_cond _ .pair 0 6 _).mono (Places.within_append_left _ _) (by simp))
  exact ((((((hw _ PAIR.ROLE _ (by simp [pairShown])).trans (hw _ PAIR.MATE_UP _ (by simp [pairShown]))).trans
    (hw _ PAIR.PEER_CLAIMS _ (by simp [pairShown]))).trans (hw _ PAIR.SYNCED _ (by simp [pairShown]))).trans
    (hw _ PAIR.CKPT_GEN_LO _ (by simp [pairShown]))).trans (hw _ PAIR.CKPT_GEN_HI _ (by simp [pairShown]))).trans
    (hw _ PAIR.JSEQ _ (by simp [pairShown]))

/-- The pins as they have changed. -/
def Dev.pinsChanged (d : Dev) (p n : Bool) : Dev :=
  (d.wr PAIR.PEER_PINS 0 0 (2 * p.toNat + n.toNat)).modPair (fun (x : PairSt) => { x with pinsAt := d.timebase, wireFault := false })

theorem Dev.paired_pinsChanged (d : Dev) (p n : Bool) : (d.pinsChanged p n).paired = d.paired :=
  d.paired_wr PAIR.PEER_PINS _

theorem exec_claimPinChange_unpaired {s : State} {p n : Bool} (h : s.dev.rd PAIR.PEER_PINS ≠ 2 * p.toNat + n.toNat)
    (hp : s.dev.paired = false) : exec (.claimPinChange p n) s = .next (s.afterShift (fun d => d.pinsChanged p n)) := by
  change execClaimPinChange p n s = _
  refine (shift_whenDev _ (by simp [h])).trans (congrArg Host.Outcome.next ?_)
  have hq := (s.dev.paired_pinsChanged p n).trans hp
  simp only [Dev.pinsChanged] at hq
  simp [State.afterShift, hq, Dev.pinsChanged]

theorem exec_claimPinChange_paired {s : State} {p n : Bool} (h : s.dev.rd PAIR.PEER_PINS ≠ 2 * p.toNat + n.toNat)
    (hp : s.dev.paired = true) : exec (.claimPinChange p n) s =
      .next (s.afterShift (fun d => (((((d.pinsChanged p n).judgeWire).judgeIsolated).judgePins).judgeRole).showPair)) := by
  change execClaimPinChange p n s = _
  refine (shift_whenDev _ (by simp [h])).trans (congrArg Host.Outcome.next ?_)
  have hq := (s.dev.paired_pinsChanged p n).trans hp
  simp only [Dev.pinsChanged] at hq
  simp [State.afterShift, hq, Dev.pinsChanged]

/-- LANE_UP holds the bit of either lane. -/
theorem two_pow_lane (lane : Fin 2) : 2 ^ lane.val % 2 ^ PAIR.LANE_UP.width = 2 ^ lane.val := by
  revert lane
  decide

/-- The first lane of the mate link up. -/
def Dev.firstLaneUp (d : Dev) (lane : Nat) : Dev :=
  ((d.wr PAIR.LANE_UP 0 0 (2 ^ lane)).modPair (fun (x : PairSt) => { x with lanesDown := none })).showPair

theorem Dev.firstLaneUp_up (d : Dev) (lane : Fin 2) :
    (d.firstLaneUp lane).rd PAIR.LANE_UP = 2 ^ lane.val ∧ (d.firstLaneUp lane).mateUp = true ∧ (d.firstLaneUp lane).pair.lanesDown = none := by
  have hv : (d.firstLaneUp lane).rd PAIR.LANE_UP = 2 ^ lane.val := by
    rw [Dev.firstLaneUp, (Dev.framed_showPair _).rd PAIR.LANE_UP 0 0, Dev.modPair_rd, Dev.rd_wr_same, two_pow_lane]
  refine ⟨hv, by simp [Dev.mateUp, hv], ?_⟩
  exact congrArg PairSt.lanesDown ((Dev.framed_showPair _).2 .pair (by simp))

theorem exec_mateLaneChange_first {s : State} {lane : Fin 2} (hp : s.dev.paired = false) (h : s.dev.rd PAIR.LANE_UP = 0) :
    exec (.mateLaneChange lane true) s = .next (s.afterShift (fun d => d.firstLaneUp lane)) := by
  change execMateLaneChange lane true s = _
  refine (shift_whenDev _ (by simp [h])).trans (congrArg Host.Outcome.next ?_)
  have hv : orBit 0 lane.val = 2 ^ lane.val := by simp [orBit, Nat.shiftLeft_eq]
  have hup : (s.dev.wr PAIR.LANE_UP 0 0 (2 ^ lane.val)).mateUp = true := by
    unfold Dev.mateUp
    rw [Dev.rd_wr_same, two_pow_lane]
    exact bne_iff_ne.mpr (Nat.ne_of_gt (Nat.two_pow_pos _))
  have hq : ((s.dev.wr PAIR.LANE_UP 0 0 (2 ^ lane.val)).modPair (fun (x : PairSt) => { x with lanesDown := none })).paired = false :=
    (s.dev.paired_wr PAIR.LANE_UP _).trans hp
  simp [State.afterShift, h, hv, hup, hq, Dev.firstLaneUp]

theorem exec_cmdSwitchover {s : State} {tag : Fin 4096} {c : Inflight} {f : Dev → Dev} (hr : s.dev.ready 8 tag = some c) (ha : c.args = [])
    (h : (fun d : Dev => if d.switchBusy then d.complete tag .busy
      else if d.mode = .run then d.switchStart (some tag.val)
      else
        let d1 := d.modPair (fun (x : PairSt) => { x with switch := some (some tag.val, .asked) })
        if d1.mateUp then d1.mateSend 0x51 (words64 d1.identityUnit) else d1.takeover 3) (s.dev.start tag) = f s.dev) :
    exec (.cmdSwitchover tag) s = .next (s.afterShift f) := by
  refine (unlessMisuse_of_eq_none (argMisuse_of_ready hr (by simp [ha]))).trans (shift_eq_afterShift ?_)
  rw [Dev.startCmd_of_ready hr]
  exact h

/-- Settles O19: each row's condition holds, and its effect is as said. -/
theorem pairRowsComplete : Obligations.PairRowsComplete := by
  intro s
  refine ⟨fun v hv hw hb => ?_, fun v hv hw hb => ?_, fun t0 hf ht => ?_, fun p n h hp => ?_, fun p n h hp => ?_, fun hp hf hw ht => ?_,
    fun hi ht => ?_, fun lane hp h => ?_, fun t0 hp hl ht => ?_, fun hp hm hl => ?_, fun t0 t1 hp hs hc ht => ?_, fun hp hg => ?_,
    fun tag c hr ha hb hm => ?_, fun tag c hr ha hb hm hu => ?_, fun tag t0 hs ht hp => ?_⟩
  · exact (unlessMisuse_of_eq_none hv).trans (shift_whenDev _ (by simp [hw, hb]))
  · exact (unlessMisuse_of_eq_none hv).trans (shift_whenDev _ (by simp [hw, hb]))
  · exact shift_whenDev _ (by simp [hf, Dev.passed, secTicks, ht])
  · refine ⟨_, exec_claimPinChange_unpaired h hp, ?_, rfl, rfl⟩
    refine (s.dev.rd_wr_same PAIR.PEER_PINS 0 0 _).trans ?_
    cases p <;> cases n <;> rfl
  · exact exec_claimPinChange_paired h hp
  · exact shift_whenDev _ (by simp [hp, hf, hw, Dev.passed, msTicks, ht])
  · exact shift_whenDev _ (by simp [hi, Dev.passed, msTicks, ht])
  · exact ⟨_, exec_mateLaneChange_first hp h, s.dev.firstLaneUp_up lane⟩
  · exact stay_whenDev _ (by simp [hp, hl, Dev.passed, msTicks, ht])
  · exact shift_whenDev _ (by simp [hp, hm, hl])
  · exact stay_whenDev _ (by simp [hp, hs, hc, Dev.passed, msTicks, ht])
  · exact shift_whenDev _ (by simp [hp, hg])
  · refine exec_cmdSwitchover hr ha ?_
    have hb' : (s.dev.start tag).switchBusy = false := hb
    have hm' : (s.dev.start tag).mode = .run := hm
    simp [hb', hm']
  · refine exec_cmdSwitchover hr ha ?_
    have hb' : (s.dev.start tag).switchBusy = false := hb
    have hm' : (s.dev.start tag).mode = .standby := hm
    have hu' : ((s.dev.start tag).modPair (fun (x : PairSt) => { x with switch := some (some tag.val, .asked) })).mateUp = false := hu
    simp [hb', hm', hu']
  · change execHandoverTimeout s = _
    exact shift_eq_afterShift (by simp [hs, hp, Dev.passed, msTicks, ht])

end Sys2Proof.Machine

end

section

/-! PROOFS. Ports started and stopped, chirp offers, the phases of a PAM activation. -/

set_option Elab.async false

namespace Sys2Proof.Machine

/-! ### The receiver's start leaves the activation's phase -/

@[simp] theorem Dev.modStn_rd (d : Dev) (n s : Nat) (f : StnRx → StnRx) (g : Field) (i j : Nat) : (d.modStn n s f).rd g i j = d.rd g i j := rfl

@[simp] theorem Dev.modLab_rd (d : Dev) (n s : Nat) (f : LabelSt → LabelSt) (g : Field) (i j : Nat) : (d.modLab n s f).rd g i j = d.rd g i j := rfl

theorem lt_of_mem_stnTribs {d : Dev} {n s t : Nat} (h : t ∈ d.stnTribs n s) : t < 16384 := by
  simp only [Dev.stnTribs, Dev.tribs, List.mem_filter, List.mem_range] at h
  exact h.1.1

theorem Dev.framed_commitSig (d : Dev) (n s : Nat) (c : MfCapture) (good : Bool) (hn : n < 65536) :
    d.framed (fieldsAll [TRIB.SIG_RX, PORT.SIG_HELD]) [] (d.commitSig n s c good) := by
  have hw : ∀ (d : Dev) (f : Field) (i x : Nat), f ∈ [TRIB.SIG_RX, PORT.SIG_HELD] → i < 65536 →
      d.framed (fieldsAll [TRIB.SIG_RX, PORT.SIG_HELD]) [] (d.wr f i 0 x) := fun d f i x hf hi =>
    d.framed_wr f i 0 x (sel := fun _ _ => true) (List.mem_map_of_mem hf) rfl hi
  unfold Dev.commitSig
  extract_lets ok ts d1
  have h1 : d.framed (fieldsAll [TRIB.SIG_RX, PORT.SIG_HELD]) [] d1 := by
    refine Dev.framed_foldl _ _ (fun d t ht => ?_) d
    have ht' := lt_of_mem_stnTribs (List.mem_filter.mp ht).1
    exact Dev.framed_ite (fun _ => hw d TRIB.SIG_RX t _ (by simp) (by omega)) (fun _ => .refl _ _ d)
  exact Dev.framed_ite (fun _ => h1.trans (hw d1 PORT.SIG_HELD n _ (by simp) hn)) (fun _ => h1)

theorem Dev.labelEnds_rd (d : Dev) (n s : Nat) (fa : Bool) (g : Field) (i j : Nat)
    (hg : (fieldsAll [TRIB.SIG_RX, PORT.SIG_HELD]).all (fun x => x.1.id != g.id) = true) (hn : n < 65536) (hi : i < 65536) (hj : j < 4096) :
    (d.labelEnds n s fa).rd g i j = d.rd g i j := by
  unfold Dev.labelEnds
  dsimp only
  rw [Dev.modLab_rd]
  split
  · exact (d.framed_commitSig n s _ _ hn).rd g i j hg
  · rfl

theorem Dev.alignRestart_rd (d : Dev) (n : Nat) (g : Field) (i j : Nat)
    (hg : (fieldsAll [TRIB.SIG_RX, PORT.SIG_HELD, PORT.CRC_NONE_MF]).all (fun x => x.1.id != g.id) = true)
    (hn : n < 65536) (hi : i < 65536) (hj : j < 4096) : (d.alignRestart n).rd g i j = d.rd g i j := by
  simp only [fieldsAll, List.map_cons, List.map_nil, List.all_cons, List.all_nil, Bool.and_eq_true] at hg
  obtain ⟨hsig, hheld, hnone, -⟩ := hg
  have hl := d.labelEnds_rd n 0 true g i j (by simp [fieldsAll, hsig, hheld]) hn hi hj
  have hne : (g.id != PORT.CRC_NONE_MF.id) = true := by
    simp only [bne_iff_ne, ne_eq] at hnone ⊢
    exact fun h => hnone h.symm
  unfold Dev.alignRestart
  dsimp only
  rw [Dev.modStn_rd]
  split
  · rw [Dev.rd_inc_other _ PORT.CRC_NONE_MF g n 0 i j 1 hne, hl]
  · exact hl

theorem Dev.darnFeed_rd (d : Dev) (n last : Nat) (g : Field) (i j : Nat) (hg : (g.id != PORT.ABSENT_FRAMES.id) = true)
    (hn : n < 65536) (hi : i < 65536) (hj : j < 4096) : (d.darnFeed n last).rd g i j = d.rd g i j := by
  unfold Dev.darnFeed
  refine foldl_keeps (fun x : Dev => x.rd g i j) _ (fun e f => ?_) _ d
  dsimp only
  rw [Dev.rd_modPort]
  split
  · exact e.rd_inc_other PORT.ABSENT_FRAMES g n 0 i j 1 hg
  · rfl

/-- Restarting the receiver of a port leaves the phase of its activation. -/
theorem Dev.rxRestart_actState (d : Dev) (n t : Nat) (hn : n < 65536) : (d.rxRestart n t).rd PORT.ACT_STATE n = d.rd PORT.ACT_STATE n := by
  unfold Dev.rxRestart
  dsimp only
  rw [Dev.alignRestart_rd _ n PORT.ACT_STATE n 0 rfl hn hn (by omega), Dev.rd_modPort]
  split
  · rfl
  · exact d.darnFeed_rd n _ PORT.ACT_STATE n 0 rfl hn hn (by omega)

theorem Dev.rxBoundary_rd (d : Dev) (n t : Nat) (hn : n < 65536) : (d.rxBoundary n t).rd PORT.ACT_STATE n = d.rd PORT.ACT_STATE n :=
  d.rd_wr_other PORT.RX_FRAME_PHASE PORT.ACT_STATE n 0 n 0 _

/-- A phase entered shows in ACT_STATE. -/
theorem Dev.pamPhase_actState (d : Dev) (n phase t : Nat) : (d.pamPhase n phase t).rd PORT.ACT_STATE n = phase % 16 :=
  d.rd_wr_same PORT.ACT_STATE n 0 phase

/-! ### The rows -/

theorem exec_cmdPortStart {s : State} {tag : Fin 4096} {c : Inflight} (hr : s.dev.ready 2 tag = some c) (ha : c.args.getD 0 0 ≤ 511)
    (hp : s.dev.startOverPins (c.args.getD 0 0) = false) :
    exec (.cmdPortStart tag) s = .next (s.after (fun d => (d.start tag).startPort tag (c.args.getD 0 0))) := by
  rw [execCmdPortStart_of_ready hr ha hp]
  exact stay_eq_after (Dev.startCmd_of_ready hr _)

theorem exec_cmdPortStop {s : State} {tag : Fin 4096} {c : Inflight} (hr : s.dev.ready 3 tag = some c) (ha : c.args.getD 0 0 ≤ 511) :
    exec (.cmdPortStop tag) s = .next (s.after (fun d =>
      if d.inMove (c.args.getD 0 0) then d.start tag else ((d.start tag).portStop (c.args.getD 0 0)).complete tag .ok)) :=
  (unlessMisuse_of_eq_none (argMisuse_of_ready hr (by simpa using ha))).trans (stay_eq_after (Dev.startCmd_of_ready hr _))

/-- The marker of the far station, taken where it was due, is the end of the phase that awaits it. -/
theorem exec_stationMarkerAccepted {s : State} {port : Fin 512} {back m : Nat} {p : Int} (hat : s.dev.attempting port = true)
    (hact : s.dev.act port = 6) (hp : (s.dev.port port).wring.eq.next = some p) (hpast : back + 16 ≤ (s.dev.port port).wring.past.length)
    (hsym : back ≤ (s.dev.port port).symbols.length) (hhit : 14 ≤ markerHits ((s.dev.port port).wring.past.drop back))
    (hm : (s.dev.port port).pam.marker = some m)
    (hlo : m + 163840 ≤ s.dev.ticksOf port (Int.fdiv (p - spanAt back (s.dev.port port).wring.eq.eps) 65536))
    (hhi : s.dev.ticksOf port (Int.fdiv (p - spanAt back (s.dev.port port).wring.eq.eps) 65536) ≤ m + 196608) :
    exec (.stationMarkerAccepted port back) s = .next (s.after (fun d =>
      (((d.pamPhase port 7 d.timebase).rxBoundary port
        (s.dev.ticksOf port (Int.fdiv (p - spanAt back (s.dev.port port).wring.eq.eps) 65536))).rxRestart port
        (s.dev.ticksOf port (Int.fdiv (p - spanAt back (s.dev.port port).wring.eq.eps) 65536))).modPort port
        (fun (y : PortSt) => { y with symbols := (s.dev.port port).symbols.drop ((s.dev.port port).symbols.length - back) }))) := by
  change execStationMarkerAccepted port back s = _
  have hus : usTicks 1000 = 163840 ∧ usTicks 1200 = 196608 := by decide
  exact stay_eq_after (by simp [hat, hact, hp, hpast, hsym, hhit, hm, hus, hlo, hhi])

/-- Settles O9: each row's condition holds, and its effect is as said. -/
theorem startupRowsComplete : Obligations.StartupRowsComplete := by
  intro s
  refine ⟨fun tag c hr ha he hl hc hp ho => ?_, fun tag c hr ha ho => exec_cmdPortStart hr ha ho, fun tag c hr ha => ⟨fun hm => ?_, fun hm => ?_⟩,
    fun port o hof ho hacc ht => ?_, fun port o t0 hof ho hacc ht => ?_, fun port len hat hph ht => ?_, fun port hat hact ht => ?_,
    fun port hat hact ht => ?_, fun port back m p hat hact hp hpast hsym hhit hm hlo hhi => ?_, fun port m hat hact hm ht => ?_,
    fun port hat ht => ?_, fun port t0 hmode hpam hact hw ht => ?_⟩
  · refine (exec_cmdPortStart hr ha ho).trans (congrArg Host.Outcome.next (State.after_congr ?_))
    exact Dev.startPort_withinCeiling (d := s.dev.start tag) he hl hc (.inl hp)
  · exact (exec_cmdPortStop hr ha).trans (congrArg Host.Outcome.next (State.after_congr (if_neg (by rw [hm]; decide))))
  · exact (exec_cmdPortStop hr ha).trans (congrArg Host.Outcome.next (State.after_congr (if_pos hm)))
  · exact stay_whenDev _ (by simp [hof, ho, hacc, ht])
  · exact stay_whenDev _ (by simp [hof, ho, hacc, Dev.passed, msTicks, ht])
  · change execPamPhaseEnd port s = _
    exact stay_eq_after (by simp [hph, hat, Dev.passed, ht])
  · refine ⟨_, stay_whenDev _ (by simp [hat, hact, msTicks, ht]), ?_, ?_⟩
    · exact s.dev.pamPhase_actState port 3 s.dev.timebase
    · rw [State.after_port, Dev.pamPhase, Dev.modPort_port]
  · exact stay_whenDev _ (by simp [hat, hact, Dev.passed, msTicks, ht])
  · refine ⟨_, exec_stationMarkerAccepted hat hact hp hpast hsym hhit hm hlo hhi, ?_⟩
    rw [State.after_rd, Dev.rd_modPort, Dev.rxRestart_actState _ _ _ (by omega), Dev.rxBoundary_rd _ _ _ (by omega), Dev.pamPhase_actState]
  · have hus : usTicks 1200 = 196608 := by decide
    exact stay_whenDev _ (by simp [hat, hact, hm, hus, ht])
  · exact stay_whenDev _ (by simp [hat, Dev.passed, msTicks, ht])
  · refine ⟨_, stay_whenDev _ (by simp [hmode, hpam, hact, hw, Dev.passed, msTicks, ht]), ?_, ?_⟩
    · rw [State.after_port, Dev.modPort_port]
    · exact hact

end Sys2Proof.Machine

end

section

/-! PROOFS. Converter links, sample supervision and pins. -/

set_option Elab.async false

namespace Sys2Proof.Machine

/-! ### What shows a link leaves it -/

theorem Dev.link_congr {d e : Dev} (h : e.line.links = d.line.links) (k : Nat) : e.link k = d.link k := by simp only [Dev.link, h]

@[simp] theorem Dev.setLink_link (d : Dev) (k : Nat) (x : LinkSt) : (d.setLink k x).link k = x := FMap.get_set_same _ _ _ _

@[simp] theorem Dev.showLink_line (d : Dev) (k : Nat) : (d.showLink k).line = d.line := by
  unfold Dev.showLink
  extract_lets x d1
  have h1 : d1.line = d.line := by unfold d1; split <;> rfl
  split
  · exact (foldl_keeps Dev.line _ (by intros; rfl) _ _).trans h1
  · exact (foldl_keeps Dev.line _ (by intros; rfl) _ _).trans h1

@[simp] theorem Dev.linkEvent_line (d : Dev) (k b : Nat) : (d.linkEvent k b).line = d.line := by
  unfold Dev.linkEvent
  split
  · exact Dev.raise_line _ _ _ _
  · rfl

@[simp] theorem Dev.linkFault_line (d : Dev) (k b : Nat) : (d.linkFault k b).line = d.line := by
  unfold Dev.linkFault
  split
  · exact Dev.fault_line _ _ _
  · rfl

@[simp] theorem Dev.laneLoss_line (d : Dev) (why : LinkLoss) : (d.laneLoss why).line = d.line := by
  cases why with
  | syncHeaders j bad =>
    unfold Dev.laneLoss
    dsimp only
    split <;> simp
  | marker j => exact Dev.raise_line _ _ _ _
  | elastic j => exact Dev.raise_line _ _ _ _

theorem Dev.spiKick_links (d : Dev) (m : Nat) : (d.spiKick m).line.links = d.line.links := by
  unfold Dev.spiKick
  dsimp only
  split
  · rfl
  · split <;> rfl

theorem Dev.spiQueue_links (d : Dev) (j : SpiJob) : (d.spiQueue j).line.links = d.line.links := by
  unfold Dev.spiQueue
  split
  · rfl
  · exact Dev.spiKick_links _ _

/-- A link that enters a state is in it. -/
theorem Dev.linkSync_link (d : Dev) (k : Nat) : (d.linkSync k).link k = (d.link k).enter .syncing d.timebase := by
  rw [Dev.linkSync, Dev.link_congr (congrArg LineSt.links (Dev.showLink_line _ _)), Dev.setLink_link]

theorem Dev.linkUp_link (d : Dev) (k : Nat) : ((d.linkUp k).link k).mode = .up := by
  have hline : ∀ x : LinkSt, ((((d.setLink k x).showLink k).linkEvent k 16).link k) = x := fun x => by
    rw [Dev.link_congr (congrArg LineSt.links ((Dev.linkEvent_line _ _ _).trans (Dev.showLink_line _ _))), Dev.setLink_link]
  unfold Dev.linkUp
  dsimp only
  split
  · rw [hline]
  · rw [Dev.link_congr (Dev.spiQueue_links _ _), hline]

theorem Dev.linkTimeout_link (d : Dev) (k : Nat) :
    (((((d.setLink k ((d.link k).enter .failed d.timebase)).showLink k).linkEvent k 18).linkFault k 0).link k).mode = .failed := by
  rw [Dev.link_congr (congrArg LineSt.links ((Dev.linkFault_line _ _ _).trans ((Dev.linkEvent_line _ _ _).trans (Dev.showLink_line _ _)))),
    Dev.setLink_link]
  rfl

theorem Dev.linkDown_link (d : Dev) (k : Nat) (why : LinkLoss) :
    (((((d.laneLoss why).linkSync k).linkEvent k 17).linkFault k 1).link k).mode = .syncing := by
  rw [Dev.link_congr (congrArg LineSt.links ((Dev.linkFault_line _ _ _).trans (Dev.linkEvent_line _ _ _))), Dev.linkSync_link]
  rfl

@[simp] theorem State.after_link (s : State) (f : Dev → Dev) (k : Nat) : (s.after f).dev.link k = (f s.dev).link k := rfl

/-! ### GPIO pins -/

/-- A bit of a word put to a level reads as that level. -/
theorem testBit_putBit (v b w : Nat) (level : Bool) (hb : b < w) (h : v.testBit b ≠ level) :
    ((if level then orBit v b else v - 2 ^ b) % 2 ^ w).testBit b = level := by
  rw [Nat.testBit_mod_two_pow]
  cases level
  · have hset : v.testBit b = true := by simpa using h
    have hsub := testBit_sub_and v b
    rw [and_two_pow_eq, hset] at hsub
    simpa using fun _ => hsub
  · simp [testBit_orBit, hb]

/-- The device with a pin's sample noted. -/
def Dev.pinNoted (d : Dev) (pin : Nat) (level : Bool) : Dev :=
  { d with line := { d.line with
      gpio := FMap.set PinSt.reset d.line.gpio pin ((FMap.get PinSt.reset d.line.gpio pin).sample level d.timebase) } }

/-- A pin's level accepted. -/
def Dev.pinAccepted (d : Dev) (pin : Nat) (level : Bool) : Dev :=
  let d1 := (d.pinNoted pin level).wr DEV.GPIO_IN 0 0 (if level then orBit (d.rd DEV.GPIO_IN) pin else d.rd DEV.GPIO_IN - 2 ^ pin)
  if (d.rd DEV.GPIO_EVT_EN).testBit pin then
    (d1.wr DEV.GPIO_CHANGED 0 0 (orBit (d1.rd DEV.GPIO_CHANGED) pin)).raise .dev 0 13
  else d1

theorem exec_gpioInputChange_accepted {s : State} {pin : Fin 16} {applied : Bool}
    (hl : (FMap.get PinSt.reset s.dev.line.gpio pin).level = s.dev.gpioBall pin applied)
    (hr : (FMap.get PinSt.reset s.dev.line.gpio pin).run = 2)
    (ht : (FMap.get PinSt.reset s.dev.line.gpio pin).at_ + usTicks 10 ≤ s.dev.timebase)
    (hv : (s.dev.rd DEV.GPIO_IN).testBit pin ≠ s.dev.gpioBall pin applied) :
    exec (.gpioInputChange pin applied) s = .next (s.after (fun d => d.pinAccepted pin (d.gpioBall pin applied))) := by
  change execGpioInputChange pin applied s = _
  have hrun : ((FMap.get PinSt.reset s.dev.line.gpio pin).sample (s.dev.gpioBall pin applied) s.dev.timebase).run = 3 := by
    simp [PinSt.sample, hl, hr, ht]
  refine stay_eq_after ?_
  dsimp only
  rw [if_neg]
  · rfl
  · rw [hrun]
    change ¬ (decide (3 < 3) || (s.dev.rd DEV.GPIO_IN).testBit pin == s.dev.gpioBall pin applied) = true
    simpa using hv

theorem exec_gpioInputChange_noted {s : State} {pin : Fin 16} {applied : Bool}
    (h : (FMap.get PinSt.reset s.dev.line.gpio pin).run < 2 ∨
      (FMap.get PinSt.reset s.dev.line.gpio pin).level ≠ s.dev.gpioBall pin applied) :
    exec (.gpioInputChange pin applied) s = .next (s.after (fun d => d.pinNoted pin (d.gpioBall pin applied))) := by
  change execGpioInputChange pin applied s = _
  have hrun : ((FMap.get PinSt.reset s.dev.line.gpio pin).sample (s.dev.gpioBall pin applied) s.dev.timebase).run < 3 := by
    unfold PinSt.sample
    split
    · change 1 < 3
      decide
    · next h0 =>
      have hlt : (FMap.get PinSt.reset s.dev.line.gpio pin).run < 2 := h.resolve_right (fun hne => h0 (.inr hne.symm))
      split
      · change min 3 _ < 3
        omega
      · exact Nat.lt_succ_of_lt hlt
  exact stay_eq_after (if_pos (by simp [hrun]))

theorem Dev.pinAccepted_in (d : Dev) (pin : Fin 16) (level : Bool) (h : (d.rd DEV.GPIO_IN).testBit pin ≠ level) :
    ((d.pinAccepted pin level).rd DEV.GPIO_IN).testBit pin = level := by
  unfold Dev.pinAccepted
  dsimp only
  split
  · rw [Dev.rd_raise_other _ .dev 0 13 DEV.GPIO_IN 0 0, Dev.rd_wr_other _ DEV.GPIO_CHANGED DEV.GPIO_IN 0 0 0 0, Dev.rd_wr_same]
    exact testBit_putBit _ _ _ _ pin.isLt h
  · rw [Dev.rd_wr_same]
    exact testBit_putBit _ _ _ _ pin.isLt h

theorem Dev.pinAccepted_event (d : Dev) (pin : Nat) (level : Bool) (h : (d.rd DEV.GPIO_EVT_EN).testBit pin = true) :
    ((d.pinAccepted pin level).rd (HDR.EVT_STATUS .dev)).testBit 13 = true := by
  unfold Dev.pinAccepted
  dsimp only
  rw [if_pos h]
  exact Dev.evt_raise _ .dev 0 13

/-! ### The rows -/

/-- The windows counted bad, whatever is reported of them. -/
theorem exec_refclkCountWindow (s : State) (refTicks jrefTicks : Nat) :
    ∃ t, exec (.refclkCountWindow refTicks jrefTicks) s = .next t ∧
      t.dev.line.refBad = (if 163824 ≤ refTicks ∧ refTicks ≤ 163856 then 0 else min 5 (s.dev.line.refBad + 1)) ∧
      t.dev.line.jrefBad = (if ((jrefTicks : Int) - (Config.jrefKHz : Int)).natAbs * 10000 ≤ Config.jrefKHz then 0
        else min 5 (s.dev.line.jrefBad + 1)) := by
  refine ⟨_, rfl, ?_, ?_⟩
  · dsimp only
    (repeat' split) <;> simp
  · dsimp only
    (repeat' split) <;> simp

/-- Settles O6: each row's condition holds, and its effect is as said. -/
theorem linkAndPinRowsComplete : Obligations.LinkAndPinRowsComplete := by
  intro s
  refine ⟨fun lane v hv hw => ?_, fun k hm hs => ?_, fun k hm ht => ?_, fun k hm ht => ?_, fun k why hm => ⟨fun hd => ?_, fun hd => ?_⟩,
    fun lane => ?_, fun k frac hm hl => ?_, fun port first count hc ht => ?_, exec_refclkCountWindow s, fun pin applied => ?_,
    fun pin applied => ?_⟩
  · exact (unlessMisuse_of_eq_none hv).trans (stay_whenDev _ hw)
  · exact ⟨_, stay_whenDev _ (by simp [hm, hs]), s.dev.linkUp_link k⟩
  · have hp : s.dev.passed (s.dev.link k).since (msTicks (s.dev.linkField k JLANE.SYNC_TIMEOUT)) = true := by
      unfold Dev.passed msTicks
      simp only [decide_eq_true_eq]
      omega
    exact ⟨_, stay_whenDev _ (by simp [hm, hp]), s.dev.linkTimeout_link k⟩
  · refine ⟨_, stay_whenDev _ (by simp [hm, Dev.passed, msTicks, ht]), ?_⟩
    rw [State.after_link, Dev.linkSync_link]
    exact ⟨rfl, rfl⟩
  · exact ⟨_, stay_whenDev_eq_after (g := fun d => (((d.laneLoss why).linkSync k).linkEvent k 17).linkFault k 1) (by simp [hm]) (if_pos hd),
      s.dev.linkDown_link k why⟩
  · refine ⟨_, stay_whenDev_eq_after (g := fun d => d.laneLoss why) (by simp [hm]) (if_neg (by simp [hd])), ?_, rfl⟩
    rw [State.after_link, Dev.link_congr (congrArg LineSt.links (Dev.laneLoss_line _ _)), hm]
  · refine ⟨_, rfl, ?_, Dev.evt_raise _ .jlane lane 2⟩
    rw [Dev.rd_frame, Dev.rd_raise_other _ .jlane lane 2 JLANE.CRC12_ERR lane 0, Dev.rd_inc_same, Nat.min_comm]
    rfl
  · refine ⟨s.after (fun d => d.setLink k { d.link k with lemc := some (d.timebase * 65536 + frac.val) }), ?_, by simp⟩
    change execSysrefEdge k frac s = _
    exact stay_eq_after (by simp [hm, hl])
  · refine ⟨_, stay_whenDev _ (by simp [hc, ht]), ?_⟩
    exact congrArg RinseSt.fills (FMap.get_set_same _ _ _ _)
  · intro x hl hr ht hv
    rw [hl] at hv ⊢
    exact ⟨_, exec_gpioInputChange_accepted hl hr ht hv, s.dev.pinAccepted_in pin _ hv, s.dev.pinAccepted_event pin _⟩
  · intro x h
    exact ⟨_, exec_gpioInputChange_noted h, rfl⟩

end Sys2Proof.Machine

end

section

/-! PROOFS. The AFE SPI masters: RAW_GO in STANDBY. -/

set_option Elab.async false

namespace Sys2Proof.Machine

/-- A unit in STANDBY whose first SPI master is held. -/
def standbyHeld : Dev := ({ Dev.reset with mode := .standby } : Dev).wr AFEC.HELD 0 0 1

/-- Whether RAW_GO is on after a write of its word. -/
def rawGoAfter (d : Dev) (v : Word) : Option Bool :=
  match exec (.afecRawGo v) ⟨[], d⟩ with
  | .next t => some (t.dev.on AFEC.RAW_GO)
  | _ => none

/-- Refutes O7: in STANDBY the masters start nothing, and the row of RAW_GO does not ask for another device state. -/
theorem not_gainAndSpiRowsComplete : ¬ Obligations.GainAndSpiRowsComplete := by
  intro h
  obtain ⟨-, -, -, -, -, -, -, hraw, -⟩ := h ⟨[], standbyHeld⟩
  obtain ⟨t, ht, hon, -⟩ := hraw (BitVec.ofNat 32 (2 ^ 31)) (by decide +kernel) (by decide +kernel) (by decide +kernel) (by decide +kernel)
    (by decide +kernel)
  have hoff : rawGoAfter standbyHeld (BitVec.ofNat 32 (2 ^ 31)) = some false := by decide +kernel
  rw [rawGoAfter, ht] at hoff
  simp [hon] at hoff

end Sys2Proof.Machine

end

section

/-! SUPPORT. A field read back after its word is written. -/

set_option Elab.async false

namespace Sys2Proof.Machine

/-- What one step of a fold sets and every other leaves is set after the fold. -/
theorem foldl_sets {σ α β : Type} (p : σ → β) (g : σ → α → σ) {a : α} {v : β} (hset : ∀ x, p (g x a) = v) {xs : List α}
    (hkeep : ∀ b ∈ xs, b ≠ a → ∀ x, p (g x b) = p x) (ha : a ∈ xs) (x : σ) : p (xs.foldl g x) = v := by
  induction xs generalizing x with
  | nil => cases ha
  | cons b xs ih =>
    by_cases hm : a ∈ xs
    · exact ih (fun c hc => hkeep c (List.mem_cons_of_mem _ hc)) hm _
    · obtain rfl := (List.mem_cons.mp ha).resolve_right hm
      have hrest : ∀ (ys : List α), (∀ c ∈ ys, ∀ x, p (g x c) = p x) → ∀ x, p (ys.foldl g x) = p x := by
        intro ys hys
        induction ys with
        | nil => exact fun _ => rfl
        | cons c ys ih => exact fun x => (ih (fun d hd => hys d (List.mem_cons_of_mem _ hd)) _).trans (hys c List.mem_cons_self x)
      rw [List.foldl_cons, hrest xs (fun c hc => hkeep c (List.mem_cons_of_mem _ hc) (fun e => hm (e ▸ hc))), hset]

/-- Which fields a write of a word reads back as written: writable by anyone, in full, and none that an event or a value out of range
alters. -/
def Field.plain (g : Field) : Bool :=
  g.access == .rw && g.range == .any && g.guard == .none &&
    (rangePlaces ++ fieldsAll [PAIR.JRN_OVERFLOW]).all (fun x => x.1.id != g.id)

/-- The fields of a page have different numbers. -/
theorem fieldsOf_ids (p : Page) : ((fieldsOf p).map Field.id).Nodup := by
  cases p <;> decide +kernel

/-- Elements of a list that a function keeps apart are equal where it takes one value. -/
theorem eq_of_map_nodup {α β : Type} {f : α → β} {l : List α} (d : (l.map f).Nodup) {x y : α} (hx : x ∈ l) (hy : y ∈ l) (h : f x = f y) :
    x = y := by
  induction l with
  | nil => cases hx
  | cons a l ih =>
    rw [List.map_cons, List.nodup_cons] at d
    obtain ⟨ha, hd⟩ := d
    rcases List.mem_cons.mp hx with rfl | hx'
    · rcases List.mem_cons.mp hy with rfl | hy'
      · rfl
      · exact absurd (h ▸ List.mem_map_of_mem hy') ha
    · rcases List.mem_cons.mp hy with rfl | hy'
      · exact absurd (h ▸ List.mem_map_of_mem hx') ha
      · exact ih hd hx' hy'

theorem field_eq_of_id {p : Page} {f g : Field} (hf : f ∈ fieldsOf p) (hg : g ∈ fieldsOf p) (h : f.id = g.id) : f = g :=
  eq_of_map_nodup (fieldsOf_ids p) hf hg h

section
variable {p : Page} {f g : Field} {n off i j : Nat}

/-- A field element written leaves every other one but what a value out of range notes. -/
theorem Dev.writeElem_rd_ne (d : Dev) (addr v : Nat) (hg : rangePlaces.all (fun x => x.1.id != g.id) = true)
    (hne : g.id ≠ f.id ∨ j ≠ i) (hn : n < 65536) (hi : i < 4096) (hj : j < 4096) :
    (d.writeElem addr f n v i).rd g n j = d.rd g n j := by
  have hwr : ∀ x, (d.wr f n i x).rd g n j = d.rd g n j := fun x =>
    d.rd_wr_key_ne f g n i n j x (Field.key_ne f g n i n j hn hi hn hj (hne.imp id .inr))
  unfold Dev.writeElem
  extract_lets x r d1 put
  have hput : put.rd g n j = d.rd g n j := by
    unfold put
    split
    · split
      · exact ((Dev.framed_busErr d1 addr).rd g n j hg).trans (hwr _)
      · exact hwr _
    · rfl
  split
  · exact hput
  · split
    · exact hput
    · rfl
  · exact hwr _
  all_goals rfl

/-- A plain field element written reads as its part of the word. -/
theorem Dev.writeElem_rd_same (d : Dev) (addr v : Nat) (h : g.plain = true) : (d.writeElem addr g n v i).rd g n i = g.part i v := by
  simp only [Field.plain, Bool.and_eq_true, beq_iff_eq] at h
  obtain ⟨⟨⟨hacc, hrange⟩, hguard⟩, -⟩ := h
  simp only [Dev.writeElem, Dev.guard, Dev.ranged, hacc, hrange, hguard, Bool.false_eq_true, if_false, Dev.rd_wr_same]
  exact Nat.mod_mod _ _

/-- A plain field reads back as its part of the word written. -/
theorem Dev.writeFields_rd (d : Dev) (addr v : Nat) (hg : g ∈ fieldsOf p) (hj : j ∈ g.inWord off) (h : g.plain = true) (hn : n < 65536) :
    (d.writeFields addr p n off v).rd g n j = g.part j v := by
  have hids : rangePlaces.all (fun x => x.1.id != g.id) = true ∧ (fieldsAll [PAIR.JRN_OVERFLOW]).all (fun x => x.1.id != g.id) = true := by
    simp only [Field.plain, List.all_append, Bool.and_eq_true] at h
    exact h.2
  have hinner : ∀ d : Dev, ((g.inWord off).foldl (fun d i => d.writeElem addr g n v i) d).rd g n j = g.part j v :=
    foldl_sets (fun d : Dev => d.rd g n j) _ (fun d => d.writeElem_rd_same addr v h)
      (fun i hi hne d => d.writeElem_rd_ne addr v hids.1 (.inr (Ne.symm hne)) hn (inWord_lt hg hi) (inWord_lt hg hj)) hj
  have hall : ((fieldsOf p).foldl (fun d f => (f.inWord off).foldl (fun d i => d.writeElem addr f n v i) d) d).rd g n j = g.part j v := by
    refine foldl_sets (fun d : Dev => d.rd g n j) (fun d f => (f.inWord off).foldl (fun d i => d.writeElem addr f n v i) d) hinner
      (fun f hf hne d => ?_) hg d
    have hid : g.id ≠ f.id := fun e => hne (field_eq_of_id hf hg e.symm)
    have hkeep : ∀ (is : List Nat), is ⊆ f.inWord off → ∀ d : Dev, (is.foldl (fun d i => d.writeElem addr f n v i) d).rd g n j = d.rd g n j := by
      intro is his
      induction is with
      | nil => exact fun _ => rfl
      | cons i is ih =>
        intro d
        have hi := his List.mem_cons_self
        rw [List.foldl_cons, ih (fun x hx => his (List.mem_cons_of_mem _ hx))]
        exact d.writeElem_rd_ne addr v hids.1 (.inl hid) hn (inWord_lt hf hi) (inWord_lt hg hj)
    exact hkeep _ (fun _ h => h) d
  unfold Dev.writeFields
  dsimp only
  split
  · exact ((Dev.framed_jrnAdd _ _ _).rd g n j hids.2 hn (inWord_lt hg hj)).trans hall
  · exact hall

end

/-- Of the parts of the device, a word written alters what was sent and the pair's journal. -/
theorem Dev.writeFields_part (d : Dev) (addr : Nat) (p : Page) (n off v : Nat) (q : Part) (hq : q ∉ [Part.signals, .pair] := by decide)
    (hn : n < 65536 := by omega) : q.same d (d.writeFields addr p n off v) :=
  (d.framed_writeFields addr p n off v hn).2 q hq

end Sys2Proof.Machine

end

section

/-! PROOFS. Protection timers and commands take effect. -/

set_option Elab.async false

namespace Sys2Proof.Machine

/-! ### Selectors -/

@[simp] theorem State.after_selSt (s : State) (f : Dev → Dev) (r : SelRef) : (s.after f).dev.selSt r = (f s.dev).selSt r := by
  cases r <;> rfl

theorem Dev.selSt_congr {d e : Dev} (h : e.mangle = d.mangle) (r : SelRef) : e.selSt r = d.selSt r := by
  cases r <;> simp only [Dev.selSt, Dev.groupSt, Dev.entrySt, Dev.pairSt, h]

/-- A selector reads as it was changed. -/
theorem Dev.selSt_modSel (d : Dev) (f : SelSt → SelSt) (r : SelRef) : (d.modSel f r).selSt r = f (d.selSt r) := by
  cases r with
  | group n => exact FMap.get_set_same _ _ _ _
  | entry i => exact FMap.get_set_same _ _ _ _
  | pair p => exact FMap.get_set_same _ _ _ _

/-- The hold-off of a selector expires where one of its timers is due. -/
theorem exec_holdOffExpire {s : State} {r : SelRef} (hm : s.dev.mode = .run)
    (h : (∃ t0, (s.dev.selSt r).workAt = some t0 ∧ (s.dev.selSt r).workOk = false ∧ t0 + 16384000 * (s.dev.selCfg r).holdOff ≤ s.dev.timebase) ∨
      (∃ t0, (s.dev.selSt r).protAt = some t0 ∧ (s.dev.selSt r).protOk = false ∧ t0 + 16384000 * (s.dev.selCfg r).holdOff ≤ s.dev.timebase)) :
    exec (.holdOffExpire r) s =
      .next (s.after (fun d => d.modSel (fun x => x.holdOffEnds (msTicks (100 * (d.selCfg r).holdOff)) d.timebase) r)) := by
  have hms : ∀ t0 : Nat, t0 + 16384000 * (s.dev.selCfg r).holdOff ≤ s.dev.timebase →
      s.dev.passed t0 (msTicks (100 * (s.dev.selCfg r).holdOff)) = true := fun t0 ht => by
    unfold Dev.passed msTicks
    simp only [decide_eq_true_eq]
    omega
  refine stay_whenDev _ ?_
  obtain ⟨t0, hat, hok, ht⟩ | ⟨t0, hat, hok, ht⟩ := h
  · simp [hm, hat, hok, hms t0 ht]
  · simp [hm, hat, hok, hms t0 ht]

theorem SelSt.holdOffEnds_work {x : SelSt} {t0 hold now : Nat} (h : x.workAt = some t0) (ht : t0 + hold ≤ now) :
    (x.holdOffEnds hold now).workOk = true := by
  simp [SelSt.holdOffEnds, h, ht]

theorem SelSt.holdOffEnds_prot {x : SelSt} {t0 hold now : Nat} (h : x.protAt = some t0) (ht : t0 + hold ≤ now) :
    (x.holdOffEnds hold now).protOk = true := by
  simp [SelSt.holdOffEnds, h, ht]

theorem holdOff_ticks (k : Nat) : msTicks (100 * k) = 16384000 * k := by unfold msTicks; omega

/-! ### Commands -/

/-- A command written to a selector's word is taken under its code. -/
theorem protCommand_of_part {s : State} {k : Nat} {r : ProtRef} {v : Word}
    (hv : s.dev.wordMisuse (protWordOf r).1 (protWordOf r).2.1 (protWordOf r).2.2.1 v.toNat = none)
    (hw : s.dev.writable (protWordOf r).1 = true) (hk : (protFields r).1.part (protFields r).2.2.2 v.toNat = k) :
    protCommand k r v s = .next (s.after (fun d => d.protWrite r v.toNat)) := by
  unfold protCommand
  exact (unlessMisuse_of_eq_none hv).trans (stay_whenDev _ (Bool.and_eq_true_iff.mpr ⟨hw, beq_iff_eq.mpr hk⟩))

/-- A port's COMMAND takes every code that the priority of its group's request admits. -/
theorem Dev.protWrite_command (d : Dev) (n : Fin 512) (v k : Nat) (hk : PORT.COMMAND.part 0 v = k) (hle : k ≤ 4)
    (hs : k ≤ 2 ∨ (d.groupSt n).top ≤ 7) : (d.protWrite (.port n) v).rd PORT.COMMAND n = k := by
  have hput : ∀ e : Dev, (e.wr PORT.COMMAND n 0 k).rd PORT.COMMAND n = k := fun e => by
    rw [Dev.rd_wr_same]
    exact Nat.mod_eq_of_lt (Nat.lt_of_le_of_lt hle (by decide))
  have htop : ∀ addr, (((d.writeFields addr .port n 0x324 v).wr PORT.COMMAND n 0 (d.rd PORT.COMMAND n)).groupSt n) = d.groupSt n :=
    fun addr => congrArg (fun m : MangleSt => FMap.get SelSt.reset m.group n) (d.writeFields_part addr .port n 0x324 v .mangle)
  unfold Dev.protWrite
  simp only [protFields, protWordOf, hk, Dev.takesCommands, Bool.not_true, Bool.false_eq_true, if_false, Dev.aboveMs, htop,
    decide_eq_true_eq]
  split
  · exact hput _
  · rw [if_neg (by omega)]
    exact hput _

/-- The part of PORT.COMMAND in its word. -/
theorem part_portCommand (v : Nat) : PORT.COMMAND.part 0 v = v % 8 := by
  show v / 2 ^ 0 % 2 ^ 3 = v % 8
  omega

/-- Settles O16: a timer marks what it awaited and moves no selector; a command the selector admits is its COMMAND. -/
theorem protectionRowsComplete : Obligations.ProtectionRowsComplete := by
  intro s
  refine ⟨fun r t0 hm hat hok ht => ?_, fun r t0 hm hat hok ht => ?_, fun r e hm hr he => ?_, fun n v hv hw => ?_, fun r v hv hw => ?_⟩
  · refine ⟨_, exec_holdOffExpire hm (.inl ⟨t0, hat, hok, ht⟩), ?_⟩
    rw [State.after_selSt, Dev.selSt_modSel]
    exact ⟨SelSt.holdOffEnds_work hat (by rw [holdOff_ticks]; exact ht), rfl⟩
  · refine ⟨_, exec_holdOffExpire hm (.inr ⟨t0, hat, hok, ht⟩), ?_⟩
    rw [State.after_selSt, Dev.selSt_modSel]
    exact ⟨SelSt.holdOffEnds_prot hat (by rw [holdOff_ticks]; exact ht), rfl⟩
  · refine ⟨_, stay_whenDev _ (by simp [hm, hr, he]), ?_⟩
    rw [State.after_selSt, Dev.selSt_modSel]
    exact ⟨rfl, rfl⟩
  · have hcmd : ∀ k, v.toNat % 8 = k → k ≤ 4 → k ≤ 2 ∨ (s.dev.groupSt n).top ≤ 7 →
        ∃ t, protCommand k (.port n) v s = .next t ∧ t.dev.rd PORT.COMMAND n = k := fun k hk hle hs =>
      ⟨_, protCommand_of_part hv hw ((part_portCommand _).trans hk), s.dev.protWrite_command n _ k ((part_portCommand _).trans hk) hle hs⟩
    exact ⟨fun h => hcmd 0 h (by omega) (.inl (by omega)), fun h => hcmd 1 h (by omega) (.inl (by omega)),
      fun h => hcmd 2 h (by omega) (.inl (by omega)), fun h ht => hcmd 3 h (by omega) (.inr ht), fun h ht => hcmd 4 h (by omega) (.inr ht)⟩
  · exact ⟨protCommand_of_part hv hw, protCommand_of_part hv hw, protCommand_of_part hv hw, protCommand_of_part hv hw,
      protCommand_of_part hv hw⟩

end Sys2Proof.Machine

end

section

/-! PROOFS. Clips, plays and extractions. -/

set_option Elab.async false

namespace Sys2Proof.Machine

@[simp] theorem Dev.modHamper_rd (d : Dev) (f : HamperSt → HamperSt) (g : Field) (i j : Nat) : (d.modHamper f).rd g i j = d.rd g i j := rfl

@[simp] theorem Dev.modHamper_hamper (d : Dev) (f : HamperSt → HamperSt) : (d.modHamper f).hamper = f d.hamper := rfl

theorem exec_clipCommitWrite {s : State} {v : Word} (hv : s.dev.wordMisuse .hamper 0 0x84 v.toNat = none)
    (hw : s.dev.writable .hamper = true) (hb : v.toNat.testBit 31 = true) :
    exec (.clipCommitWrite v) s = .next (s.after (fun d =>
      ((d.writeFields 0xA084 .hamper 0 0x84 v.toNat).wr HAMPER.CLIP_GO 0 0 1).modHamper
        (fun h => { h with clipJob := some (v.toNat % 4096) }))) :=
  (unlessMisuse_of_eq_none hv).trans (stay_whenDev_eq_after hw (if_pos hb))

/-- A check of a clip ends with no job, CLIP_GO off and its event. -/
theorem exec_clipCheckDone {s : State} {c : Nat} (h : s.dev.hamper.clipJob = some c) :
    ∃ t, exec .clipCheckDone s = .next t ∧ t.dev.hamper.clipJob = none ∧ t.dev.rd HAMPER.CLIP_GO = 0 ∧
      (t.dev.rd (HDR.EVT_STATUS .hamper)).testBit 2 = true := by
  change ∃ t, execClipCheckDone s = .next t ∧ _
  unfold execClipCheckDone
  refine ⟨_, rfl, ?_, ?_, ?_⟩
  · simp [h]
  · rw [Dev.rd_frame]
    simp only [h]
    rw [Dev.rd_raise_other _ .hamper 0 2 HAMPER.CLIP_GO 0 0, Dev.rd_wr_same]
    rfl
  · rw [Dev.rd_frame]
    simp only [h]
    exact Dev.evt_raise _ .hamper 0 2

/-- The extraction that a command asks for. -/
def extractOf (tag : Nat) (a : List Nat) : Extract :=
  ⟨tag, 2 * (a.getD 0 0 % 2 ^ 14) + a.getD 0 0 / 2 ^ 31 % 2, word64 (a.getD 1 0) (a.getD 2 0), a.getD 3 0,
    word64 (a.getD 4 0) (a.getD 5 0), a.getD 6 0⟩

theorem exec_cmdRecExtract {s : State} {tag : Fin 4096} {c : Inflight} (hr : s.dev.ready 9 tag = some c) (ha : extractBad c.args = false)
    (ho : s.dev.hamperOnline = true) (hn : s.dev.hamper.extracts.length < 16) :
    exec (.cmdRecExtract tag) s = .next (s.after (fun d =>
      ((d.start tag).modHamper (fun h => { h with extracts := h.extracts ++ [extractOf tag c.args] })).wr HAMPER.EXTRACTS 0 0
        (d.hamper.extracts.length + 1))) := by
  refine (unlessMisuse_of_eq_none (argMisuse_of_ready hr ha)).trans (stay_eq_after ?_)
  rw [Dev.startCmd_of_ready hr]
  have ho' : (s.dev.start tag).hamperOnline = true := ho
  have hn' : ¬ 16 ≤ (s.dev.start tag).hamper.extracts.length := Nat.not_le.mpr hn
  simp only [if_neg hn', ho', Bool.not_true, Bool.false_eq_true, if_false]
  rfl

/-- Blocks copied for an extraction are sent, and leave the Hamper as it was. -/
theorem Dev.extractOne_hamper (x : Extract) (ue : List Nat) (acc : Dev × ExtractSum) (p : Period) :
    (Dev.extractOne x ue acc p).1.hamper = acc.1.hamper := by
  unfold Dev.extractOne
  dsimp only
  split
  · split
    · rfl
    · split <;> rfl
  all_goals rfl

theorem exec_extractDone {s : State} {tag : Fin 4096} {ue : List Nat} {x : Extract}
    (h : s.dev.hamper.extracts.find? (fun x => x.tag == tag.val) = some x) :
    ∃ t, exec (.extractDone tag ue) s = .next t ∧
      t.dev.hamper.extracts = s.dev.hamper.extracts.filter (fun y => y.tag != tag.val) := by
  change ∃ t, execExtractDone tag ue s = .next t ∧ _
  unfold execExtractDone
  refine ⟨_, rfl, ?_⟩
  simp only [h, Dev.complete_hamper, Dev.wr_hamper, Dev.modHamper_hamper]
  rw [foldl_keeps (fun acc : Dev × ExtractSum => acc.1.hamper) _ (Dev.extractOne_hamper x ue)]

/-- The play that a command without bit 16 asks for. -/
def playReqOf (d : Dev) (tag : Nat) (a : List Nat) : PlayReq :=
  ⟨tag, a.getD 0 0 % 256, (a.getD 0 0).testBit 19, if (a.getD 0 0).testBit 19 then d.mangle.nextWalk else d.walkAfter (usTicks 250),
    ⟨FMap.get Clip.none d.hamper.clips (a.getD 0 0 / 2 ^ 20), 0,
      if (a.getD 1 0).testBit 31 then some (a.getD 1 0 % 2 ^ 20) else none, a.getD 2 0 % 4 == 1, (a.getD 2 0).testBit 2, 0⟩⟩

theorem exec_cmdPlay {s : State} {tag : Fin 4096} {c : Inflight} (hr : s.dev.ready 10 tag = some c) (ha : playBad c.args = false)
    (hb : (c.args.getD 0 0).testBit 16 = false) (hn : s.dev.hamper.plays.length < 256) :
    exec (.cmdPlay tag) s = .next (s.after (fun d =>
      (d.start tag).modHamper (fun h => { h with playReqs := h.playReqs ++ [playReqOf (d.start tag) tag c.args] }))) := by
  refine (unlessMisuse_of_eq_none (argMisuse_of_ready hr ha)).trans (stay_eq_after ?_)
  rw [Dev.startCmd_of_ready hr]
  have hn' : ¬ 256 ≤ (s.dev.start tag).hamper.plays.length := Nat.not_le.mpr hn
  simp only [hb, hn', decide_false, Bool.false_and, Bool.or_self, Bool.false_eq_true, if_false]
  rfl

/-- Settles O18: each row's condition holds, and its effect is as said. -/
theorem playAndExtractRowsComplete : Obligations.PlayAndExtractRowsComplete := by
  intro s
  refine ⟨fun v hv hw hb => ?_, fun c h => exec_clipCheckDone h, fun tag c hr ha ho hn => ?_, fun tag ue x h => ?_, fun tag c hr ha hb hn => ?_,
    fun tag r hf hw => ?_⟩
  · exact ⟨_, exec_clipCommitWrite hv hw hb, Dev.rd_wr_same _ HAMPER.CLIP_GO 0 0 1, rfl⟩
  · refine ⟨_, _, exec_cmdRecExtract hr ha ho hn, rfl, rfl, rfl, ?_⟩
    rw [State.after_rd, Dev.rd_wr_same]
    exact Nat.mod_eq_of_lt (Nat.lt_of_lt_of_le (Nat.succ_lt_succ hn) (by decide))
  · obtain ⟨t, ht, hx⟩ := exec_extractDone (ue := ue) h
    refine ⟨t, ht, fun y hy => ?_⟩
    rw [hx, List.mem_filter] at hy
    simpa using hy.2
  · exact ⟨_, _, exec_cmdPlay hr ha hb hn, rfl, rfl, rfl, rfl, rfl⟩
  · change execPlayStart tag s = _
    exact stay_eq_after (by simp only [hf, if_pos hw])

end Sys2Proof.Machine

end

section

/-! PROOFS. The Hamper: training, record periods, the aperture, delays, errors, scrubbing. -/

set_option Elab.async false

namespace Sys2Proof.Machine

@[simp] theorem State.after_hamperOnline (s : State) (f : Dev → Dev) : (s.after f).dev.hamperOnline = (f s.dev).hamperOnline := rfl

@[simp] theorem Dev.modHamper_hamperOnline (d : Dev) (f : HamperSt → HamperSt) : (d.modHamper f).hamperOnline = d.hamperOnline := rfl

/-! ### The record's size -/

theorem Dev.recRound_lt (d : Dev) (g : Nat) (h : g < 4096) : d.recRound g < 4096 := by
  have h1 : d.recRound g ≤ g / d.rankCount * d.rankCount := Nat.min_le_left _ _
  have h2 := Nat.div_mul_le_self g d.rankCount
  omega

/-- Discarded, every rank has neither stripes nor segments. -/
theorem ranks_discarded (ranks : FMap RankSt) (k : Nat) :
    (FMap.get RankSt.empty (ranks.foldl (fun m e => FMap.set RankSt.empty m e.1 e.2.discard) []) k).stripes = [] ∧
      (FMap.get RankSt.empty (ranks.foldl (fun m e => FMap.set RankSt.empty m e.1 e.2.discard) []) k).segs = [] := by
  have hall : ∀ (xs : FMap RankSt) (m : FMap RankSt),
      ((FMap.get RankSt.empty m k).stripes = [] ∧ (FMap.get RankSt.empty m k).segs = []) →
      ((FMap.get RankSt.empty (xs.foldl (fun m e => FMap.set RankSt.empty m e.1 e.2.discard) m) k).stripes = [] ∧
        (FMap.get RankSt.empty (xs.foldl (fun m e => FMap.set RankSt.empty m e.1 e.2.discard) m) k).segs = []) := by
    intro xs
    induction xs with
    | nil => exact fun _ h => h
    | cons e xs ih =>
      intro m h
      refine ih _ ?_
      by_cases hk : k = e.1
      · subst hk
        rw [FMap.get_set_same]
        exact ⟨rfl, rfl⟩
      · rw [FMap.get_set_ne _ _ _ hk]
        exact h
  exact hall ranks [] ⟨rfl, rfl⟩

/-- The record's size as a write of its word leaves the device. -/
def Dev.recResized (d : Dev) (g : Nat) : Dev :=
  if g = d.rd HAMPER.REC_SIZE_GIB then d
  else (d.wr HAMPER.REC_SIZE_GIB 0 0 g).modHamper (fun h => { h with
    ranks := h.ranks.foldl (fun m e => FMap.set RankSt.empty m e.1 e.2.discard) [] })

theorem exec_recSizeWrite {s : State} {v : Word} (hv : s.dev.wordMisuse .hamper 0 0x4C v.toNat = none) (hm : s.dev.mode = .ready) :
    exec (.recSizeWrite v) s = .next (s.after (fun d => d.recResized (d.recRound (v.toNat % 4096)))) :=
  (unlessMisuse_of_eq_none hv).trans (stay_whenDev_eq_after (by simp [hm]) rfl)

theorem Dev.recResized_size (d : Dev) (g : Nat) (hg : g < 4096) : (d.recResized g).rd HAMPER.REC_SIZE_GIB = g := by
  unfold Dev.recResized
  split
  · next h => exact h.symm
  · rw [Dev.modHamper_rd, Dev.rd_wr_same]
    exact Nat.mod_eq_of_lt hg

theorem Dev.recResized_hamper (d : Dev) (g : Nat) (h : g ≠ d.rd HAMPER.REC_SIZE_GIB) :
    (d.recResized g).hamper.periods = d.hamper.periods ∧
      ∀ k, (FMap.get RankSt.empty (d.recResized g).hamper.ranks k).stripes = [] ∧
        (FMap.get RankSt.empty (d.recResized g).hamper.ranks k).segs = [] := by
  rw [Dev.recResized, if_neg h]
  exact ⟨rfl, ranks_discarded d.hamper.ranks⟩

/-! ### The aperture -/

/-- A read that no remap disturbs. -/
theorem exec_apertureRead {s : State} (off : Fin 1073741824) (len : Fin 4097) (ue : Bool) (h : s.dev.on HAMPER.WIN_BUSY = false) :
    exec (.apertureRead off len ue) s = .next (s.after (fun d =>
      if d.hamperOnline = false then d.emit (.readData (List.replicate len 255))
      else if d.capacity < d.apertureLa off + len then (d.emit (.readData (List.replicate len 255))).inc HAMPER.APT_OOR
      else if ue then d.emit .readPoison
      else d.emit (.readData (d.apertureData (d.apertureLa off) len)))) := by
  refine (unlessMisuse_of_eq_none (if_neg (by simp [h]))).trans (stay_eq_after ?_)
  cases s.dev.hamperOnline <;> rfl

theorem exec_apertureWrite {s : State} (off : Fin 1073741824) (data : List Byte) (h : s.dev.on HAMPER.WIN_BUSY = false)
    (ho : s.dev.hamperOnline = true) (hc : s.dev.apertureLa off + (data.length - 1) < s.dev.capacity) :
    exec (.apertureWrite off data) s = .next (s.after (fun d =>
      if d.laWritable (d.apertureLa off) && d.laWritable (d.apertureLa off + (data.length - 1)) then
        d.ddrWrite (d.apertureLa off) (data.map (fun b => b.toNat))
      else d.inc HAMPER.APT_WR_DROP)) := by
  refine (unlessMisuse_of_eq_none (if_neg (by simp [h]))).trans (stay_eq_after ?_)
  exact if_neg (by simp [ho, Nat.not_le.mpr hc])

/-! ### Words written -/

theorem Dev.writeFields_winBase (d : Dev) (v : Nat) : (d.writeFields 0xA060 .hamper 0 0x60 v).rd HAMPER.WIN_BASE = v % 2048 := by
  refine (d.writeFields_rd (g := HAMPER.WIN_BASE) 0xA060 v (by decide) (by decide) (by decide) (by omega)).trans ?_
  show v / 2 ^ 0 % 2 ^ 11 = _
  omega

theorem Dev.writeFields_lookupTrib (d : Dev) (v : Nat) : (d.writeFields 0xA068 .hamper 0 0x68 v).rd HAMPER.LOOKUP_TRIB = v % 16384 := by
  refine (d.writeFields_rd (g := HAMPER.LOOKUP_TRIB) 0xA068 v (by decide) (by decide) (by decide) (by omega)).trans ?_
  show v / 2 ^ 0 % 2 ^ 14 = _
  omega

/-! ### Lookups and errors -/

theorem exec_lookupDone {s : State} (h : s.dev.hamper.lookup = true) :
    ∃ t, exec .lookupDone s = .next t ∧ t.dev.rd HAMPER.LOOKUP_GO = 0 ∧ t.dev.hamper.lookup = false := by
  refine ⟨_, stay_whenDev _ h, ?_, rfl⟩
  rw [State.after_rd, Dev.rd_wr_other _ HAMPER.LOOKUP_LA_HI HAMPER.LOOKUP_GO 0 0 0 0, Dev.rd_wr_other _ HAMPER.LOOKUP_LA_LO HAMPER.LOOKUP_GO 0 0 0 0,
    Dev.rd_wr_other _ HAMPER.LOOKUP_STATUS HAMPER.LOOKUP_GO 0 0 0 0, Dev.rd_wr_same]
  rfl

theorem exec_ddrCorrectedError {s : State} (c : Fin 4) (h : s.dev.hamperOnline = true) :
    ∃ t, exec (.ddrCorrectedError c) s = .next t ∧
      t.dev.rd HAMPER.CE_COUNT 0 c = min (2 ^ 32 - 1) (s.dev.rd HAMPER.CE_COUNT 0 c + 1) := by
  refine ⟨_, stay_whenDev _ h, ?_⟩
  rw [State.after_rd]
  dsimp only
  split
  · rw [Dev.rd_raise_other _ .hamper 0 _ HAMPER.CE_COUNT 0 c, Dev.modHamper_rd, Dev.rd_inc_same]
    rfl
  · rw [Dev.modHamper_rd, Dev.rd_inc_same]
    rfl

theorem exec_ddrUncorrectableError {s : State} (la : Fin 2199023255552) (ho : s.dev.hamperOnline = true) (hc : la.val < s.dev.capacity) :
    exec (.ddrUncorrectableError la) s = .next (s.after (fun d =>
      ((((d.inc HAMPER.UE_COUNT 0 (d.laChannel la)).wr HAMPER.UE_LA_LO 0 0 la).wr HAMPER.UE_LA_HI 0 0 (la.val / 2 ^ 32))).raise .hamper 0
        (17 + 4 * d.laChannel la))) :=
  stay_whenDev _ (by simp [ho, hc])

theorem exec_ddrUncorrectableError_shown {s : State} (la : Fin 2199023255552) (ho : s.dev.hamperOnline = true) (hc : la.val < s.dev.capacity)
    (hch : s.dev.laChannel la < 4) : ∃ t, exec (.ddrUncorrectableError la) s = .next t ∧ t.dev.rd HAMPER.UE_LA_LO = la.val % 2 ^ 32 ∧
      t.dev.rd HAMPER.UE_LA_HI = la.val / 2 ^ 32 ∧ (t.dev.rd (HDR.EVT_STATUS .hamper)).testBit (17 + 4 * s.dev.laChannel la) = true := by
  have hla := la.isLt
  refine ⟨_, exec_ddrUncorrectableError la ho hc, ?_, ?_, ?_⟩
  · rw [State.after_rd, Dev.rd_raise_other _ .hamper 0 _ HAMPER.UE_LA_LO 0 0, Dev.rd_wr_other _ HAMPER.UE_LA_HI HAMPER.UE_LA_LO 0 0 0 0,
      Dev.rd_wr_same]
    rfl
  · rw [State.after_rd, Dev.rd_raise_other _ .hamper 0 _ HAMPER.UE_LA_HI 0 0, Dev.rd_wr_same]
    have hhi : la.val / 2 ^ 32 < 2 ^ HAMPER.UE_LA_HI.width := by
      change la.val / 2 ^ 32 < 2 ^ 9
      omega
    exact Nat.mod_eq_of_lt hhi
  · rw [State.after_rd]
    exact Dev.evt_raise _ .hamper 0 _

/-- Training that finds no fault leaves the Hamper online. -/
theorem exec_ddrTrainingDone_nil {s : State} (h : s.dev.rd (HDR.STATE .hamper) = 1) :
    ∃ t, exec (.ddrTrainingDone []) s = .next t ∧ t.dev.hamperOnline = true := by
  refine ⟨s.after (fun d => (d.wr (HDR.STATE .hamper) 0 0 2).modHamper (fun h => { h with scrubFrom := d.timebase })), ?_, ?_⟩
  · exact stay_whenDev _ (by simp [h])
  · rw [State.after_hamperOnline, Dev.modHamper_hamperOnline, Dev.hamperOnline, Dev.rd_wr_same]
    rfl

theorem exec_lookupGoWrite {s : State} {v : Word} (hv : s.dev.wordMisuse .hamper 0 0x68 v.toNat = none) (hw : s.dev.writable .hamper = true)
    (hb : v.toNat.testBit 31 = true) : exec (.lookupGoWrite v) s = .next (s.after (fun d =>
      ((d.writeFields 0xA068 .hamper 0 0x68 v.toNat).wr HAMPER.LOOKUP_GO 0 0 1).modHamper (fun h => { h with lookup := true }))) :=
  (unlessMisuse_of_eq_none hv).trans (stay_whenDev_eq_after hw (if_pos hb))

/-- Settles O17: each row's condition holds, and its effect is as said. -/
theorem hamperRowsComplete : Obligations.HamperRowsComplete := by
  intro s
  refine ⟨fun h => exec_ddrTrainingDone_nil h, fun fails h hf => ?_, fun hm hp => ?_, fun v hv hm => ?_, fun v hv hw => ?_, ?_,
    fun off len hb => ⟨fun ho ue => ?_, fun ho hc ue => ?_, fun ho hc => ?_⟩,
    fun off data hb ho hc => ⟨fun h0 h1 => ?_, fun h0 => ?_⟩, fun v hv hw hb => ?_, fun h => exec_lookupDone h, fun t0 hd ht => ?_,
    fun c ho => exec_ddrCorrectedError c ho, fun la ho hc hch => exec_ddrUncorrectableError_shown la ho hc hch, fun ho hs ht => ?_⟩
  · exact stay_whenDev_eq_after (by simp [h]) (if_neg hf)
  · exact stay_whenDev _ (by simp [hm, hp])
  · refine ⟨_, exec_recSizeWrite hv hm, ?_, fun hne => ?_⟩
    · exact s.dev.recResized_size _ (s.dev.recRound_lt _ (Nat.mod_lt _ (by omega)))
    · exact s.dev.recResized_hamper _ hne
  · refine ⟨_, (unlessMisuse_of_eq_none hv).trans (stay_whenDev _ hw), Dev.rd_wr_same _ HAMPER.WIN_BUSY 0 0 1, ?_⟩
    rw [State.after_rd, Dev.rd_wr_other _ HAMPER.WIN_BUSY HAMPER.WIN_BASE 0 0 0 0]
    exact s.dev.writeFields_winBase _
  · exact ⟨_, rfl, Dev.rd_wr_same _ HAMPER.WIN_BUSY 0 0 0⟩
  · refine ⟨_, exec_apertureRead off len ue hb, ?_⟩
    simp [ho]
  · refine ⟨_, exec_apertureRead off len ue hb, ?_⟩
    simp only [State.after_host, State.after_rd, ho, if_pos hc, Bool.true_eq_false, if_false]
    exact ⟨rfl, Dev.rd_inc_same _ HAMPER.APT_OOR 0 0 1⟩
  · refine ⟨_, exec_apertureRead off len false hb, ?_⟩
    simp [ho, Nat.not_lt.mpr hc]
  · refine (exec_apertureWrite off data hb ho hc).trans (congrArg Host.Outcome.next (State.after_congr (if_pos ?_)))
    rw [h0, h1]
    rfl
  · refine ⟨s.after (fun d => d.inc HAMPER.APT_WR_DROP), ?_, Dev.inc_hamper _ _ _ _ _, Dev.rd_inc_same _ HAMPER.APT_WR_DROP 0 0 1⟩
    refine (exec_apertureWrite off data hb ho hc).trans (congrArg Host.Outcome.next (State.after_congr (if_neg ?_)))
    simp [h0]
  · refine ⟨_, exec_lookupGoWrite hv hw hb, Dev.rd_wr_same _ HAMPER.LOOKUP_GO 0 0 1, rfl, ?_⟩
    rw [State.after_rd, Dev.modHamper_rd, Dev.rd_wr_other _ HAMPER.LOOKUP_GO HAMPER.LOOKUP_TRIB 0 0 0 0]
    exact s.dev.writeFields_lookupTrib _
  · exact ⟨_, stay_whenDev _ (by simp [hd, ht]), rfl, rfl⟩
  · exact ⟨_, stay_whenDev _ (by simp [ho, hs, Dev.passed, secTicks, ht]), Dev.rd_inc_same _ HAMPER.SCRUB_PASSES 0 0 1⟩

end Sys2Proof.Machine

end

section

/-! PROOFS. The bus matrix, baskets and rings. -/

set_option Elab.async false

namespace Sys2Proof.Machine

/-! ### Baskets -/

@[simp] theorem State.after_basket (s : State) (f : Dev → Dev) (i : Nat) : (s.after f).dev.basket i = (f s.dev).basket i := rfl

theorem Dev.basket_congr {d e : Dev} (h : e.host.baskets = d.host.baskets) (i : Nat) : e.basket i = d.basket i := by
  simp only [Dev.basket, h]

@[simp] theorem Dev.basket_setBasket (d : Dev) (i : Nat) (b : Basket) : (d.setBasket i b).basket i = b := FMap.get_set_same _ _ _ _

@[simp] theorem Dev.raise_baskets (d : Dev) (p : Page) (i b : Nat) : (d.raise p i b).host.baskets = d.host.baskets := by
  rw [d.raise_other p i b]

theorem Dev.basket_flushDiscard (d : Dev) (i k : Nat) : (d.flushDiscard i).basket k = d.basket k :=
  Dev.basket_congr ((Dev.raise_baskets _ _ _ _).trans rfl) k

/-- The head of an item that is not whole opens it. -/
theorem Dev.openItem_open {d : Dev} {i h : Nat} (ho : (d.basket i).open? = none) (hl : 1 ≤ h / 2 ^ 28) :
    ((d.openItem i h).basket i).open? = some [h] := by
  have hlen : itemLen h ≠ 1 := by unfold itemLen; omega
  unfold Dev.openItem
  simp only [ho, Option.isSome_none, Bool.false_eq_true, if_false, if_neg hlen, Dev.basket_setBasket]

/-- A word of an item that it does not complete is kept with those before it. -/
theorem Dev.addWord_open {d : Dev} {i v : Nat} {ws : List Nat} (hl : ws.length + 1 < itemLen (ws.headD 0)) :
    ((d.addWord i v ws).basket i).open? = some (ws ++ [v]) := by
  unfold Dev.addWord
  dsimp only
  rw [if_neg (by rw [List.length_append, List.length_singleton]; omega), Dev.basket_setBasket]

theorem creditMisuse_of_incomplete (d : Dev) (i : Nat) : d.creditMisuse i false = none := rfl

theorem exec_pushHeadWrite {s : State} {b : Fin 14} {v : Word} (hw : s.dev.writable .hostq = true) (hb : b.val ≠ 0)
    (hh : v.toNat / 2 ^ 12 % 256 = 0) (hl : 1 ≤ v.toNat / 2 ^ 28) :
    exec (.pushHeadWrite b v) s = .next (s.after (fun d => d.openItem b v.toNat)) := by
  change execPushHeadWrite b v s = _
  have hlen : (itemLen v.toNat == 1) = false := by
    rw [beq_eq_false_iff_ne]
    unfold itemLen
    omega
  unfold execPushHeadWrite
  rw [if_pos (by simp [hw, hb]), unlessMisuse_of_eq_none (show headMisuse v.toNat = none from if_pos hh), hlen,
    creditMisuse_of_incomplete, unlessMisuse_none]
  exact stay_eq_after (if_neg hb)

theorem exec_pushDataWrite {s : State} {b : Fin 14} {v : Word} (hw : s.dev.writable .hostq = true) (hb : b.val ≠ 0)
    (hc : s.dev.dataCompletes b = false) : exec (.pushDataWrite b v) s = .next (s.after (fun d => d.pushData b v.toNat)) := by
  change execPushDataWrite b v s = _
  unfold execPushDataWrite
  rw [if_pos (by simp [hw, hb]), hc, creditMisuse_of_incomplete, unlessMisuse_none]
  rfl

/-- The command basket or that of DCC messages flushed: empty, with full credit, in its next generation. -/
theorem Dev.flushBasket_low (d : Dev) {i : Nat} (hi : i < 2) : (d.flushBasket i).basket i = Basket.empty ∧
    (d.flushBasket i).rd HOSTQ.IN_CREDIT 0 i = basketSlots i ∧
    (d.flushBasket i).rd HOSTQ.IN_GEN 0 i = (d.rd HOSTQ.IN_GEN 0 i + 1) % 256 := by
  unfold Dev.flushBasket
  dsimp only
  rw [if_pos hi]
  refine ⟨?_, ?_, ?_⟩
  · exact (Dev.basket_congr (by rw [Dev.wr_host]) i).trans (d.basket_setBasket i Basket.empty)
  · rw [Dev.rd_wr_other _ HOSTQ.IN_GEN HOSTQ.IN_CREDIT 0 i 0 i, Dev.setBasket, Dev.rd_wr_same]
    exact Nat.mod_eq_of_lt (Nat.lt_of_le_of_lt (Nat.sub_le _ _) (by unfold basketSlots; split <;> decide))
  · rw [Dev.rd_wr_same]
    exact Nat.mod_mod _ _

theorem exec_basketFlushWrite {s : State} {b : Fin 29} {v : Word} (hw : s.dev.writable .hostq = true) (hb : b.val < 2)
    (hv : s.dev.wordMisuse .hostq 0 (0x100 + 16 * b.val) v.toNat = none) (hf : v.toNat.testBit 31 = true) :
    exec (.basketFlushWrite b v) s = .next (s.after (fun d => d.flushBasket b)) := by
  change execBasketFlushWrite b v s = _
  have hb' : b.val < 14 := by omega
  unfold execBasketFlushWrite
  dsimp only
  rw [if_pos hb', unlessMisuse_of_eq_none hv]
  exact stay_whenDev_eq_after hw (by rw [if_pos hb', if_pos hf])

theorem exec_ringCiWrite {s : State} {r : Fin 15} {v : Word} (hw : s.dev.writable .hostq = true) (hr : r.val ≠ 0)
    (hc : (v.toNat / 65536 + 65536 - s.dev.rd HOSTQ.RING_CI 0 r) % 65536 ≤
      (s.dev.rd HOSTQ.RING_PI 0 r + 65536 - s.dev.rd HOSTQ.RING_CI 0 r) % 65536) :
    exec (.ringCiWrite r v) s = .next (s.after (fun d => d.wr HOSTQ.RING_CI 0 r (v.toNat / 65536))) := by
  have hci : v.toNat / 65536 % 65536 = v.toNat / 65536 := Nat.mod_eq_of_lt (by omega)
  refine stay_whenDev_eq_after hw ?_
  unfold Dev.ringCi
  dsimp only
  rw [hci, if_pos hc]
  exact if_neg hr

/-- Settles O24: each row's condition holds, and its effect is as said. -/
theorem matrixAndBasketRowsComplete : Obligations.MatrixAndBasketRowsComplete := by
  intro s
  refine ⟨fun m g i b => rfl, fun m g i o ho => ?_, fun hw => ⟨fun w v hc => ?_, fun b v hb hh hl ho => ?_, fun b v hb ho => ?_,
    fun b v ws hb ho hl => ?_, fun b v hb hv hf => ?_, fun r v hr hc => ?_, fun r v hv => ?_⟩⟩
  · change execMatrixResponse m g i s = _
    exact stay_eq_after (by simp only [ho])
  · change execCmdSlotWrite w v s = _
    unfold execCmdSlotWrite
    rw [if_pos hw, unlessMisuse_of_eq_none hc]
    rfl
  · exact ⟨_, exec_pushHeadWrite hw hb hh hl, Dev.openItem_open ho hl⟩
  · have hpush : s.dev.pushData b v.toNat = s.dev.flushDiscard b := by simp only [Dev.pushData, if_neg hb, ho]
    refine ⟨_, exec_pushDataWrite hw hb (by simp only [Dev.dataCompletes, ho]), ?_⟩
    rw [State.after_basket, hpush, Dev.basket_flushDiscard]
    exact ⟨ho, rfl⟩
  · have hpush : s.dev.pushData b v.toNat = s.dev.addWord b v.toNat ws := by simp only [Dev.pushData, if_neg hb, ho]
    refine ⟨_, exec_pushDataWrite hw hb ?_, ?_⟩
    · simp only [Dev.dataCompletes, ho, beq_eq_false_iff_ne]
      omega
    · rw [State.after_basket, hpush, Dev.addWord_open hl]
  · exact ⟨_, exec_basketFlushWrite hw hb hv hf, s.dev.flushBasket_low hb⟩
  · refine ⟨_, exec_ringCiWrite hw hr hc, (Dev.rd_wr_same _ HOSTQ.RING_CI 0 r _).trans ?_⟩
    exact Nat.mod_eq_of_lt (by change v.toNat / 65536 < 2 ^ 16; omega)
  · exact (unlessMisuse_of_eq_none hv).trans (stay_whenDev _ hw)

end Sys2Proof.Machine

end

section

/-! PROOFS. LINT windows, injection, BIST items, rolling steps. -/

set_option Elab.async false

namespace Sys2Proof.Machine

/-! ### INJ_CTRL -/

/-- A word all of whose fields are free to take it is no misuse. -/
theorem Dev.wordMisuse_eq_none_of_guard (d : Dev) {p : Page} {inst off v : Nat} (hmask : v &&& wordMask p inst off = v)
    (hfree : ∀ f ∈ fieldsOf p, f.inWord off ≠ [] → f.guard = .none) : d.wordMisuse p inst off v = none := by
  simp only [Dev.wordMisuse, hmask, bne_self_eq_false, Bool.false_eq_true, if_false, List.findSome?_eq_none_iff]
  intro f hf i hi
  have hg : d.guard f inst i = .yes := by
    unfold Dev.guard
    rw [hfree f hf (List.ne_nil_of_mem hi)]
  unfold Dev.elemMisuse
  split
  · split
    · rfl
    · rw [hg]
  · split
    · rfl
    · rw [hg]
  · rfl

theorem wordMask_injCtrl : wordMask .lint0 0 0x84 = 0xF0003FFF := by decide

theorem guard_injCtrl : ∀ f ∈ fieldsOf .lint0, f.inWord 0x84 ≠ [] → f.guard = .none := by decide

/-- A value of INJ_CTRL that starts an injection. -/
def injStartWord (n mode : Nat) : Nat := 2 ^ 30 + mode * 2 ^ 28 + n

theorem injStartWord_and {n mode : Nat} (hn : n < 2 ^ 14) (hm : mode < 3) : injStartWord n mode &&& 0xF0003FFF = injStartWord n mode := by
  have hlow : (injStartWord n mode &&& 0xF0003FFF) % 2 ^ 28 = n := by
    rw [Nat.and_mod_two_pow]
    have h1 : injStartWord n mode % 2 ^ 28 = n := by unfold injStartWord; omega
    rw [h1, show 0xF0003FFF % 2 ^ 28 = 2 ^ 14 - 1 from rfl, Nat.and_two_pow_sub_one_eq_mod, Nat.mod_eq_of_lt hn]
  have hhigh : (injStartWord n mode &&& 0xF0003FFF) / 2 ^ 28 = 4 + mode := by
    rw [Nat.and_div_two_pow]
    have h1 : injStartWord n mode / 2 ^ 28 = 4 + mode := by unfold injStartWord; omega
    rw [h1]
    rcases (by omega : mode = 0 ∨ mode = 1 ∨ mode = 2) with rfl | rfl | rfl <;> rfl
  have hsplit := Nat.div_add_mod (injStartWord n mode &&& 0xF0003FFF) (2 ^ 28)
  rw [hlow, hhigh] at hsplit
  unfold injStartWord at hsplit ⊢
  omega

/-- An injection started leaves the registers and drives its source. -/
theorem Dev.injStart_rd (d : Dev) (n mode : Nat) (g : Field) (i j : Nat) : (d.injStart n mode).rd g i j = d.rd g i j := by
  unfold Dev.injStart Dev.injRelease
  dsimp only
  split
  · split
    · rfl
    · split <;> rfl
  · rfl

/-- The device with an injection started. -/
def Dev.injected (d : Dev) (n mode : Nat) : Dev :=
  (((d.wr LINT.INJ_MODE 0 0 mode).flag LINT.INJ_ACTIVE 0 0 true).wr LINT.INJ_SOURCE 0 0 n).injStart n mode

theorem exec_injCtrlWrite_start {s : State} {n mode : Nat} (hw : s.dev.writable .lint0 = true) (ht : s.dev.on DEV.TEST_MODE = true)
    (hc : (srcClass n).isSome = true) (hn : n < 2 ^ 14) (hm : mode < 3) (ha : s.dev.on LINT.INJ_ARMED = true) :
    exec (.injCtrlWrite (BitVec.ofNat 32 (injStartWord n mode))) s = .next (s.after (fun d => d.injected n mode)) := by
  change execInjCtrlWrite _ s = _
  have hval : (BitVec.ofNat 32 (injStartWord n mode)).toNat = injStartWord n mode := by
    rw [BitVec.toNat_ofNat]
    exact Nat.mod_eq_of_lt (by unfold injStartWord; omega)
  have hactive : (injStartWord n mode).testBit 30 = true := by
    rw [Nat.testBit_eq_decide_div_mod_eq, decide_eq_true_eq]
    unfold injStartWord
    omega
  have hmode : injStartWord n mode / 2 ^ 28 % 4 = mode := by unfold injStartWord; omega
  have hsrc : injStartWord n mode % 2 ^ 14 = n := by unfold injStartWord; omega
  have hne : mode ≠ 3 := by omega
  unfold execInjCtrlWrite
  dsimp only
  rw [hval, unlessMisuse_of_eq_none
    (s.dev.wordMisuse_eq_none_of_guard (by rw [wordMask_injCtrl]; exact injStartWord_and hn hm) guard_injCtrl)]
  rw [hactive, hmode, hsrc]
  exact stay_whenDev_eq_after (by simp [hw, ht, ha, hc, hne]) (by rw [if_neg hne, if_pos rfl]; rfl)

theorem Dev.injected_active (d : Dev) (n mode : Nat) : (d.injected n mode).on LINT.INJ_ACTIVE = true := by
  unfold Dev.on Dev.injected
  rw [Dev.injStart_rd, Dev.rd_wr_other _ LINT.INJ_SOURCE LINT.INJ_ACTIVE 0 0 0 0]
  exact Dev.on_flag_same _ LINT.INJ_ACTIVE 0 0 true (by decide)

theorem Dev.injected_source (d : Dev) {n : Nat} (mode : Nat) (hn : n < 2 ^ 14) : (d.injected n mode).rd LINT.INJ_SOURCE = n := by
  unfold Dev.injected
  rw [Dev.injStart_rd, Dev.rd_wr_same]
  exact Nat.mod_eq_of_lt hn

/-! ### BIST -/

/-- A run of the whole test begins with its first item. -/
theorem bistItems_head {kind : Nat} (mask : Nat) (h : kind = 1 ∨ kind = 3) : ∃ rest, bistItems kind mask = 0 :: rest := by
  rcases h with rfl | rfl <;> exact ⟨_, rfl⟩

/-- The run that a command asks for. -/
def bistRunOf (tag : Nat) (a : List Nat) : BistRun := ⟨tag, bistItems (a.getD 0 0) (a.getD 1 0), 0, 0, 0, none⟩

theorem exec_cmdBist {s : State} {tag : Fin 4096} {c : Inflight} (hr : s.dev.ready 6 tag = some c) (h1 : 1 ≤ c.args.getD 0 0)
    (h3 : c.args.getD 0 0 ≤ 3) (hm : c.args.getD 1 0 < 2 ^ 23) (hn : s.dev.lint.run = none) (h2 : c.args.getD 0 0 ≠ 2) :
    exec (.cmdBist tag) s = .next (s.after (fun d =>
      (({ d.start tag with lint := { d.lint with run := some (bistRunOf tag c.args), exitDue := false } } : Dev).wr BIST.RUNNING 0 0 1).wr
        BIST.ITEM 0 0 0)) := by
  have hbad : (c.args.getD 0 0 == 0 || decide (3 < c.args.getD 0 0) || decide (2 ^ 23 ≤ c.args.getD 1 0)) = false := by
    rw [Bool.or_eq_false_iff, Bool.or_eq_false_iff, beq_eq_false_iff_ne, decide_eq_false_iff_not, decide_eq_false_iff_not]
    omega
  obtain ⟨rest, hitems⟩ := bistItems_head (c.args.getD 1 0) (show c.args.getD 0 0 = 1 ∨ c.args.getD 0 0 = 3 by omega)
  refine (unlessMisuse_of_eq_none (argMisuse_of_ready hr hbad)).trans (stay_eq_after ?_)
  rw [Dev.startCmd_of_ready hr]
  have hidle : ¬ (s.dev.start tag).lint.run.isSome = true := by
    change ¬ s.dev.lint.run.isSome = true
    simp [hn]
  dsimp only
  rw [if_neg hidle, bistRunOf, hitems]
  rfl

/-- Settles O26: each row's condition holds, and its effect is as said. -/
theorem lintAndBistRowsComplete : Obligations.LintAndBistRowsComplete := by
  intro s
  refine ⟨fun bad hm hn => ?_, ⟨_, rfl, rfl⟩, fun hw ht => ⟨?_, fun v hv hk => ?_, fun n mode hc hn hm ha => ?_⟩, fun tag c hr h1 h3 hm hn h2 => ?_,
    fun sig r i rest hr hi => ?_, fun sig i hr hi => ?_, fun hm hi ht => ?_, fun hm he hin hw => ?_⟩
  · exact shift_whenDev _ (by simp [hm, hn])
  · exact ⟨_, (exec_injKeyWrite_testMode s (by decide) hw ht).trans (stay_eq_after (g := Dev.injArm) rfl), s.dev.injArm_armed⟩
  · exact ⟨_, (exec_injKeyWrite_testMode s hv hw ht).trans (stay_eq_after (g := Dev.injDisarm) (if_neg hk)), s.dev.injDisarm_armed,
      s.dev.injDisarm_injRail⟩
  · exact ⟨_, exec_injCtrlWrite_start hw ht hc hn hm ha, rfl, s.dev.injected_active n mode, s.dev.injected_source mode hn⟩
  · refine ⟨_, _, exec_cmdBist hr h1 h3 hm hn h2, rfl, rfl, rfl, ?_⟩
    rw [State.after_rd, Dev.rd_wr_other _ BIST.ITEM BIST.RUNNING 0 0 0 0, Dev.rd_wr_same]
    rfl
  · change execBistItemDone sig s = _
    exact stay_eq_after (by simp only [hr, hi])
  · change execBistItemDone sig s = _
    exact stay_eq_after (by simp only [hr, hi])
  · have hp : s.dev.passed s.dev.lint.rollFrom (msTicks (50 * s.dev.lint.rollStep)) = true := by
      unfold Dev.passed msTicks
      simp only [decide_eq_true_eq]
      omega
    exact ⟨_, stay_whenDev _ (by simp [hm, hi, hp]), rfl⟩
  · exact shift_whenDev _ (by simp [hm, he, hin, hw])

end Sys2Proof.Machine

end

section

/-! PROOFS. Frames of the mate link. -/

set_option Elab.async false

namespace Sys2Proof.Machine

/-- A unit that hears its mate: the link up, paired, past RESET and BOOT. -/
structure Dev.Hears (d : Dev) : Prop where
  up : d.mateUp = true
  paired : d.paired = true
  notReset : d.mode ≠ .reset
  notBoot : d.mode ≠ .boot

theorem Dev.Hears.mateRx_good {d : Dev} (h : d.Hears) (f : Dev → Dev) : d.mateRx true f = f d := by
  obtain ⟨hu, hp, hr, hb⟩ := h
  simp [Dev.mateRx, hu, hp, hr, hb]

theorem Dev.Hears.mateRx_bad {d : Dev} (h : d.Hears) (f : Dev → Dev) : d.mateRx false f = d.inc PAIR.MATE_CRC_ERR := by
  obtain ⟨hu, hp, hr, hb⟩ := h
  simp [Dev.mateRx, hu, hp, hr, hb]

/-- A good frame of its type has its effect. -/
theorem Dev.Hears.frameRx_good {d : Dev} (h : d.Hears) {type : Nat} {ws p : List Nat} (hc : mateCrcGood ws = true)
    (hp : matePayload type ws = some p) (f : List Nat → Dev → Dev) : d.frameRx type ws f = f p d := by
  rw [Dev.frameRx, hc, h.mateRx_good, hp]

/-- A frame whose CRC-32 fails is counted. -/
theorem Dev.Hears.frameRx_bad {d : Dev} (h : d.Hears) {type : Nat} {ws : List Nat} (hc : mateCrcGood ws = false)
    (f : List Nat → Dev → Dev) : d.frameRx type ws f = d.inc PAIR.MATE_CRC_ERR := by
  rw [Dev.frameRx, hc, h.mateRx_bad]

/-! ### Frames sent -/

theorem Dev.mateSend_eq {d : Dev} (h : d.mateUp = true) (type : Nat) (p : List Nat) :
    d.mateSend type p = (d.modPair (fun (x : PairSt) => { x with
        mateSeq := FMap.set 0 x.mateSeq type ((FMap.get 0 d.pair.mateSeq type + 1) % 2 ^ 32) })).emit
      (.mate (d.mateLanes type) ([type * 2 ^ 24 + p.length * 2 ^ 8, (FMap.get 0 d.pair.mateSeq type + 1) % 2 ^ 32] ++ p ++
        [mateCrc ([type * 2 ^ 24 + p.length * 2 ^ 8, (FMap.get 0 d.pair.mateSeq type + 1) % 2 ^ 32] ++ p)])) := by
  simp [Dev.mateSend, h]

/-- A frame sent alters the numbers of the frames, of the state of the pair. -/
theorem Dev.mateSend_pair (d : Dev) (type : Nat) (p : List Nat) : ∃ m, (d.mateSend type p).pair = { d.pair with mateSeq := m } := by
  unfold Dev.mateSend
  split
  · exact ⟨d.pair.mateSeq, rfl⟩
  · exact ⟨_, rfl⟩

/-- A frame built as the unit sends it is good and carries its payload. -/
theorem mateFrame_good (seq : Nat) {type : Nat} {p : List Nat} (hp : p.length < 2 ^ 14) :
    mateCrcGood ([type * 2 ^ 24 + p.length * 2 ^ 8, seq] ++ p ++ [mateCrc ([type * 2 ^ 24 + p.length * 2 ^ 8, seq] ++ p)]) = true ∧
      matePayload type ([type * 2 ^ 24 + p.length * 2 ^ 8, seq] ++ p ++ [mateCrc ([type * 2 ^ 24 + p.length * 2 ^ 8, seq] ++ p)]) =
        some p := by
  generalize hcrc : mateCrc ([type * 2 ^ 24 + p.length * 2 ^ 8, seq] ++ p) = c
  constructor
  · simp only [mateCrcGood, List.dropLast_concat, hcrc, Bool.and_eq_true, decide_eq_true_eq]
    rw [List.getLastD_eq_getLast?, List.getLast?_concat]
    refine ⟨?_, by simp⟩
    simp only [List.length_append, List.length_cons, List.length_nil]
    omega
  · have htype : (type * 2 ^ 24 + p.length * 2 ^ 8) / 2 ^ 24 = type := by omega
    have hlen : (type * 2 ^ 24 + p.length * 2 ^ 8) / 2 ^ 8 % 2 ^ 14 + 3 =
        ([type * 2 ^ 24 + p.length * 2 ^ 8, seq] ++ p ++ [c]).length := by
      simp only [List.length_append, List.length_cons, List.length_nil]
      omega
    unfold matePayload
    rw [if_pos ⟨htype, hlen⟩]
    simp

/-- What a frame sent hands to the lanes is a good frame with its payload. -/
theorem Dev.mateSend_out {d : Dev} (h : d.mateUp = true) (type : Nat) {p : List Nat} (hp : p.length < 2 ^ 14) :
    ∃ lanes ws, (d.mateSend type p).host.out = .mate lanes ws :: d.host.out ∧ mateCrcGood ws = true ∧ matePayload type ws = some p := by
  obtain ⟨hgood, hpay⟩ := mateFrame_good ((FMap.get 0 d.pair.mateSeq type + 1) % 2 ^ 32) (type := type) hp
  refine ⟨d.mateLanes type, _, ?_, hgood, hpay⟩
  rw [Dev.mateSend_eq h]
  rfl

/-! ### A checkpoint committed, acknowledged, sent -/

theorem Dev.ckptSlot_congr {d e : Dev} (ha : e.pair.slotA = d.pair.slotA) (hb : e.pair.slotB = d.pair.slotB) (gen : Nat) :
    e.ckptSlot gen = d.ckptSlot gen := by
  simp only [Dev.ckptSlot, ha, hb]

theorem Dev.ckptSlot_setCkptSlot (d : Dev) (gen : Nat) (x : SlotSt) : (d.setCkptSlot gen x).ckptSlot gen = x := by
  unfold Dev.ckptSlot Dev.setCkptSlot
  split
  · simp [Dev.modPair, *]
  · simp [Dev.modPair, *]

/-- The journal trimmed leaves the slots of the checkpoints. -/
theorem PairSt.trimJournal_slots (x : PairSt) (base : Nat) :
    (x.trimJournal base).slotA = x.slotA ∧ (x.trimJournal base).slotB = x.slotB := by
  unfold PairSt.trimJournal
  dsimp only
  split
  · exact ⟨rfl, rfl⟩
  · split <;> exact ⟨rfl, rfl⟩

@[simp] theorem Dev.showPair_pair (d : Dev) : d.showPair.pair = d.pair := d.framed_showPair.2 .pair (by simp)

/-- PAIR shown loses no event. -/
theorem Dev.showPair_evts (d : Dev) : d.evtKept d.showPair := by
  have hwr : ∀ (d : Dev) (f : Field) (v : Nat), f ∈ pairShown → d.evtKept (d.wr f 0 0 v) := by
    intro d f v hf p i b hi _ h
    have hne : (HDR.EVT_STATUS p).id ≠ f.id := by
      simp only [pairShown, List.mem_cons, List.not_mem_nil, or_false] at hf
      rcases hf with rfl | rfl | rfl | rfl | rfl | rfl | rfl | rfl | rfl <;> cases p <;> decide
    rw [d.rd_wr_ne f (HDR.EVT_STATUS p) 0 0 i 0 v hne]
    exact h
  have htrans : ∀ {a b c : Dev}, a.evtKept b → b.evtKept c → a.evtKept c := fun h g p i n hi hn x => g p i n hi hn (h p i n hi hn x)
  unfold Dev.showPair
  refine htrans (htrans (htrans ?_ (hwr _ PAIR.HB_OK _ (by simp [pairShown]))) (hwr _ PAIR.OWN_HEALTH _ (by simp [pairShown])))
    (Dev.cond_notes _ .pair 0 6 _).evts
  exact htrans (htrans (htrans (htrans (htrans (htrans (hwr _ PAIR.ROLE _ (by simp [pairShown])) (hwr _ PAIR.MATE_UP _ (by simp [pairShown])))
    (hwr _ PAIR.PEER_CLAIMS _ (by simp [pairShown]))) (hwr _ PAIR.SYNCED _ (by simp [pairShown])))
    (hwr _ PAIR.CKPT_GEN_LO _ (by simp [pairShown]))) (hwr _ PAIR.CKPT_GEN_HI _ (by simp [pairShown]))) (hwr _ PAIR.JSEQ _ (by simp [pairShown]))

@[simp] theorem State.after_ckptSlot (s : State) (f : Dev → Dev) (gen : Nat) : (s.after f).dev.ckptSlot gen = (f s.dev).ckptSlot gen := rfl

/-- The device that has committed a checkpoint received. -/
def Dev.committed (d : Dev) (gen : Nat) : Dev :=
  let x := d.ckptSlot gen
  let d1 := (d.setCkptSlot gen { x with committed := true }).modPair (fun (y : PairSt) =>
    { y.trimJournal x.jseqBase with rxGen := none, jrnLag := false, ageFrom := some (((x.snapTb : Int) - d.tbOffset).toNat) })
  (((d1.mateSend 0x40 ([d1.pair.jrnHigh] ++ words64 gen ++ [0])).raise .pair 0 9)).showPair

theorem Dev.committed_slot (d : Dev) (gen : Nat) :
    ((d.committed gen).ckptSlot gen).committed = true ∧ (d.committed gen).pair.rxGen = none ∧
      ((d.committed gen).rd (HDR.EVT_STATUS .pair)).testBit 9 = true := by
  unfold Dev.committed
  extract_lets x d1
  obtain ⟨m, hm⟩ := d1.mateSend_pair 0x40 ([d1.pair.jrnHigh] ++ words64 gen ++ [0])
  have hslots := ((d.setCkptSlot gen { x with committed := true }).pair).trimJournal_slots x.jseqBase
  have hslot : d1.ckptSlot gen = { x with committed := true } :=
    (Dev.ckptSlot_congr hslots.1 hslots.2 gen).trans (d.ckptSlot_setCkptSlot gen _)
  refine ⟨?_, ?_, Dev.showPair_evts _ .pair 0 9 (by omega) (by omega) (Dev.evt_raise _ .pair 0 9)⟩
  · rw [Dev.ckptSlot_congr (d := d1) (by rw [Dev.showPair_pair, Dev.raise_pair, hm]) (by rw [Dev.showPair_pair, Dev.raise_pair, hm]), hslot]
  · rw [Dev.showPair_pair, Dev.raise_pair, hm]
    rfl

theorem Dev.switchTry_of_none {d : Dev} (h : d.pair.switch = none) : d.switchTry = d := by
  simp [Dev.switchTry, h]

/-- An acknowledgement with no checkpoint and no switchover under way: the entries it acknowledges leave the journal. -/
theorem exec_ackRx {s : State} {ws p : List Nat} (h : s.dev.Hears) (hc : mateCrcGood ws = true) (hp : matePayload 0x40 ws = some p)
    (hl : p.length = 4) (ha : s.dev.pairActive = true) (hs : s.dev.pair.send = none) (hw : s.dev.pair.switch = none) :
    exec (.ackRx ws) s = .next (s.afterShift (fun d =>
      (d.modPair (fun x => { x with jrnOut := x.jrnOut.filter (fun e => !(e.sentAt.isSome && seqLe e.seq (p.headD 0))) })).showPair)) := by
  change execAckRx ws s = _
  refine shift_eq_afterShift ?_
  rw [h.frameRx_good hc hp]
  dsimp only
  rw [if_neg (by simp [ha, hl])]
  simp only [Dev.modPair_pair, hs]
  rw [Dev.switchTry_of_none (by simpa using hw)]

theorem exec_ckptCommitRx {s : State} {ws p : List Nat} (h : s.dev.Hears) (hc : mateCrcGood ws = true) (hp : matePayload 0x11 ws = some p)
    (hs : s.dev.commits p = true) : exec (.ckptCommitRx ws) s = .next (s.after (fun d => d.committed (words64At p 1))) := by
  change execCkptCommitRx ws s = _
  refine stay_eq_after ?_
  rw [h.frameRx_good hc hp]
  exact if_pos hs

/-- The checkpoint that a unit starts. -/
def Dev.checkpoint (d : Dev) : CkptSend :=
  ⟨(d.pair.genStart + 1) % 2 ^ 64, d.pair.jrnSeq, d.sys.nextMf - mfTicks,
    ([1, 2, 3, 4, 5, 6, 7, 8] : List Nat).map (fun id => (id, d.sectionBody id)), false⟩

theorem exec_checkpointStart {s : State} (h : s.dev.Hears) (ha : s.dev.pairActive = true) (hs : s.dev.pair.send = none)
    (hd : s.dev.pair.ckptDue = true) (ht : s.dev.timebase + 327680 < s.dev.sys.nextMf + 20480) :
    ∃ t, exec .checkpointStart s = .next t ∧ t.dev.pair.send = some s.dev.checkpoint := by
  refine ⟨_, stay_whenDev _ (by simp [ha, h.up, hs, hd, mfTicks, frameTicks, ht]), ?_⟩
  dsimp only [State.after]
  rw [foldl_keeps Dev.pair _ (by intros; rfl)]
  obtain ⟨m, hm⟩ := Dev.mateSend_pair _ 0x10 _
  rw [hm]
  rfl

theorem exec_ckptSendDone {s : State} {x : CkptSend} (h : s.dev.Hears) (hx : s.dev.pair.send = some x) (hs : x.sent = false) :
    exec .ckptSendDone s = .next (s.after (fun d =>
      (d.modPair (fun (y : PairSt) => { y with send := some { x with sent := true } })).mateSend 0x11
        (commitRecord x.gen (d.rd PAIR.EPOCH) ((x.header (d.rd PAIR.EPOCH)).getLastD 0)))) := by
  change execCkptSendDone s = _
  exact stay_eq_after (by simp [hx, hs, h.up])

theorem length_commitRecord (gen epoch crc : Nat) : (commitRecord gen epoch crc).length = 6 := by simp [commitRecord, words64]

theorem exec_cmdCkptForce {s : State} {tag : Fin 4096} {c : Inflight} (h : s.dev.Hears) (hr : s.dev.ready 7 tag = some c) (ha : c.args = [])
    (hs : s.dev.pair.send = none) : exec (.cmdCkptForce tag) s =
      .next (s.after (fun d => (d.start tag).modPair (fun (x : PairSt) => { x with ckptForce := x.ckptForce ++ [tag.val] }))) := by
  refine (unlessMisuse_of_eq_none (argMisuse_of_ready hr (by simp [ha]))).trans (stay_eq_after ?_)
  rw [Dev.startCmd_of_ready hr]
  have hp : (s.dev.start tag).paired = true := h.paired
  have hsend : (s.dev.start tag).pair.send.isSome = false := by
    change s.dev.pair.send.isSome = false
    simp [hs]
  have hup : ((s.dev.start tag).modPair (fun (x : PairSt) => { x with ckptForce := x.ckptForce ++ [tag.val] })).mateUp = true := h.up
  simp only [hp, hsend, hup, Bool.not_true, Bool.or_self, Bool.false_eq_true, if_false, if_true]

/-- A frame whose CRC-32 fails, of whichever type it is taken for. -/
theorem exec_frame_bad {s : State} {ws : List Nat} (h : s.dev.Hears) (hc : mateCrcGood ws = false) {c : Instr}
    (hm : c ∈ [Instr.statusRx ws, .fatalFrameRx ws, .ckptCommitRx ws, .journalRx ws, .ackRx ws, .nakRx ws, .handoverRx ws, .handoverReqRx ws]) :
    exec c s = .next (s.after (fun d => d.inc PAIR.MATE_CRC_ERR)) := by
  have hshift : ∀ type f, shift s (fun d => d.frameRx type ws f) = .next (s.after (fun d => d.inc PAIR.MATE_CRC_ERR)) := fun type f =>
    (shift_eq_afterShift (g := fun d => d.inc PAIR.MATE_CRC_ERR) (h.frameRx_bad hc f)).trans rfl
  have hstay : ∀ type f, stay s (fun d => d.frameRx type ws f) = .next (s.after (fun d => d.inc PAIR.MATE_CRC_ERR)) := fun type f =>
    stay_eq_after (h.frameRx_bad hc f)
  simp only [List.mem_cons, List.not_mem_nil, or_false] at hm
  rcases hm with rfl | rfl | rfl | rfl | rfl | rfl | rfl | rfl
  · exact hshift _ _
  · exact hshift _ _
  · exact hstay _ _
  · exact hstay _ _
  · exact hshift _ _
  · exact hstay _ _
  · exact hshift _ _
  · exact hshift _ _

/-- Settles O20: a unit that hears its mate takes a good frame of the type, and counts one whose CRC-32 fails. -/
theorem mateFrameRowsComplete : Obligations.MateFrameRowsComplete := by
  intro s hup hpair hreset hboot
  have h : s.dev.Hears := ⟨hup, hpair, hreset, hboot⟩
  refine ⟨fun ws hc c hm => ?_, fun ws p hc => ⟨fun hp hl => ?_, fun hp hl hi he => ?_, fun hp hl he => ?_, fun hp ha hi hb => ?_, fun hp hs => ?_,
    fun hp hm => ?_, fun hp hl ha hs hw => ?_, fun k hp ha => ?_, fun lo hi part hp ha => ?_⟩, fun gen x => ?_, fun seq x hm => ?_, fun ha => ?_,
    fun ha hs hd ht => ?_, fun x hx hs => ?_, fun tag c hr ha hs => ?_⟩
  · refine ⟨_, exec_frame_bad h hc hm, rfl, rfl, ?_⟩
    rw [State.after_rd, Dev.rd_inc_same]
    rfl
  · change execStatusRx ws s = _
    exact shift_eq_afterShift ((h.frameRx_good hc hp _).trans (if_pos hl))
  · change execFatalFrameRx ws s = _
    exact shift_eq_afterShift ((h.frameRx_good hc hp _).trans (if_pos ⟨hl, hi, he⟩))
  · change execHandoverRx ws s = _
    exact shift_eq_afterShift ((h.frameRx_good hc hp _).trans (if_pos ⟨hl, he⟩))
  · change execHandoverReqRx ws s = _
    exact shift_eq_afterShift ((h.frameRx_good hc hp _).trans (if_pos (by simp [ha, hi, hb])))
  · exact ⟨_, exec_ckptCommitRx h hc hp hs, s.dev.committed_slot _⟩
  · change execJournalRx ws s = _
    exact stay_eq_after ((h.frameRx_good hc hp _).trans (if_neg (by simp [hm])))
  · refine ⟨_, exec_ackRx h hc hp hl ha hs hw, ?_⟩
    exact congrArg PairSt.jrnOut (Dev.showPair_pair _)
  · change execNakRx ws s = _
    exact stay_eq_after ((h.frameRx_good hc hp _).trans (if_neg (by simp [ha])))
  · change execNakRx ws s = _
    exact stay_eq_after ((h.frameRx_good hc hp _).trans (if_neg (by simp [ha])))
  · change execCkptDataRx true gen x s = _
    exact stay_eq_after (congrArg Dev.showPair (h.mateRx_good _))
  · change execMirrorRx true seq x s = _
    exact stay_eq_after ((h.mateRx_good _).trans (if_pos hm))
  · exact stay_whenDev _ ha
  · obtain ⟨t, ht, hx⟩ := exec_checkpointStart h ha hs hd ht
    exact ⟨t, _, ht, hx, rfl, rfl, rfl⟩
  · obtain ⟨lanes, ws, hout, hgood, hpay⟩ := Dev.mateSend_out
      (d := s.dev.modPair (fun (y : PairSt) => { y with send := some { x with sent := true } })) hup 0x11
      (p := commitRecord x.gen (s.dev.rd PAIR.EPOCH) ((x.header (s.dev.rd PAIR.EPOCH)).getLastD 0)) (by rw [length_commitRecord]; decide)
    obtain ⟨m, hm⟩ := Dev.mateSend_pair (s.dev.modPair (fun (y : PairSt) => { y with send := some { x with sent := true } })) 0x11
      (commitRecord x.gen (s.dev.rd PAIR.EPOCH) ((x.header (s.dev.rd PAIR.EPOCH)).getLastD 0))
    exact ⟨_, lanes, ws, exec_ckptSendDone h hx hs, congrArg PairSt.send hm, hout, hgood, hpay⟩
  · exact ⟨_, exec_cmdCkptForce h hr ha hs, rfl⟩

end Sys2Proof.Machine

end

section

/-! SUPPORT. The state of an engine through the operations of its instructions. -/

set_option Elab.async false

namespace Sys2Proof.Machine

section

variable (d : Dev) (e : Nat)

@[simp] theorem Dev.engine_setEngine (x : EngineSt) : (d.setEngine e x).engine e = x := FMap.get_set_same _ _ _ _

@[simp] theorem Dev.engine_modEngine (f : EngineSt → EngineSt) : (d.modEngine e f).engine e = f (d.engine e) := d.engine_setEngine e _

@[simp] theorem Dev.engine_wr (g : Field) (i j v k : Nat) : (d.wr g i j v).engine k = d.engine k := rfl

@[simp] theorem Dev.engine_modPort (n : Nat) (f : PortSt → PortSt) (k : Nat) : (d.modPort n f).engine k = d.engine k := rfl

@[simp] theorem Dev.port_wr (g : Field) (i j v n : Nat) : (d.wr g i j v).port n = d.port n := rfl

@[simp] theorem Dev.port_modEngine (f : EngineSt → EngineSt) (n : Nat) : (d.modEngine e f).port n = d.port n := rfl

@[simp] theorem Dev.engine_setNpc (pc : Nat) : (d.setNpc e pc).engine e = { d.engine e with pc := pc % 4096 } := d.engine_modEngine e _

theorem Dev.rd_setEngine (x : EngineSt) (g : Field) (i j : Nat) (hg : (g.id != NDL.QUEUE.id) = true := by rfl) (he : e < 65536 := by omega)
    (hi : i < 65536 := by omega) (hj : j < 4096 := by omega) : (d.setEngine e x).rd g i j = d.rd g i j :=
  Dev.rd_wr_other { d with needle := { d.needle with engines := FMap.set EngineSt.reset d.needle.engines e x } } NDL.QUEUE g e 0 i j
    x.queue.length hg

end

/-! ### Accounts -/

theorem Dev.inBudget_congr {d t : Dev} {e : Nat} (iv : Invocation) (hp : ∀ n, t.port n = d.port n)
    (hu : (t.engine e).used = (d.engine e).used) : t.inBudget e iv = d.inBudget e iv := by
  unfold Dev.inBudget
  split <;> simp [hp, hu]

@[simp] theorem Dev.inBudget_setNpc (d : Dev) (e pc : Nat) (iv : Invocation) : (d.setNpc e pc).inBudget e iv = d.inBudget e iv :=
  Dev.inBudget_congr iv (fun _ => rfl) (by simp)

@[simp] theorem Dev.inBudget_wr (d : Dev) (e : Nat) (iv : Invocation) (g : Field) (i j v : Nat) :
    (d.wr g i j v).inBudget e iv = d.inBudget e iv := rfl

/-- An instruction within the budget is counted and charged to its account, and that is all. -/
theorem Dev.ndlCharge_engine {d : Dev} {e pc : Nat} {iv : Invocation} (h : d.inBudget e iv = true) :
    ∃ used executed, (d.ndlCharge e pc iv).engine e = { d.engine e with used := used, executed := executed } := by
  unfold Dev.inBudget at h
  unfold Dev.ndlCharge
  cases hp : iv.ev.port with
  | some n =>
    simp only [hp, decide_eq_true_eq] at h ⊢
    rw [if_neg (by simp only [Dev.port_modEngine]; omega)]
    exact ⟨(d.engine e).used, (d.engine e).executed + 1, by simp⟩
  | none =>
    simp only [hp, decide_eq_true_eq] at h ⊢
    rw [if_neg (by simp only [Dev.engine_modEngine]; omega)]
    exact ⟨(d.engine e).used + 1, (d.engine e).executed + 1, by simp⟩

theorem Dev.rd_ndlCharge {d : Dev} {e pc : Nat} {iv : Invocation} (h : d.inBudget e iv = true) (g : Field) (i j : Nat)
    (hg : (g.id != NDL.QUEUE.id) = true := by rfl) (he : e < 65536 := by omega)
    (hi : i < 65536 := by omega) (hj : j < 4096 := by omega) : (d.ndlCharge e pc iv).rd g i j = d.rd g i j := by
  unfold Dev.inBudget at h
  unfold Dev.ndlCharge
  cases hp : iv.ev.port with
  | some n =>
    simp only [hp, decide_eq_true_eq] at h ⊢
    rw [if_neg (by simp only [Dev.port_modEngine]; omega), Dev.rd_modPort]
    exact d.rd_setEngine e _ g i j hg
  | none =>
    simp only [hp, decide_eq_true_eq] at h ⊢
    rw [if_neg (by simp only [Dev.engine_modEngine]; omega), Dev.modEngine, Dev.rd_setEngine _ e _ g i j hg]
    exact d.rd_setEngine e _ g i j hg

/-! ### An instruction and its charge -/

section

variable {d d' : Dev} {e : Fin 96} {iv : Invocation}

theorem Dev.ndlNext_pc (h : d'.inBudget e iv = true) : ((d.ndlNext e iv d').engine e).pc = ((d.engine e).pc + 1) % 4096 := by
  obtain ⟨used, executed, hx⟩ := Dev.ndlCharge_engine (d := d'.setNpc e ((d.engine e).pc + 1)) (e := e) (pc := (d.engine e).pc) (iv := iv)
    (by simpa using h)
  rw [Dev.ndlNext, hx]
  simp

theorem Dev.rd_ndlNext (h : d'.inBudget e iv = true) (g : Field) (i j : Nat) (hg : (g.id != NDL.QUEUE.id) = true := by rfl)
    (hi : i < 65536 := by omega) (hj : j < 4096 := by omega) : (d.ndlNext e iv d').rd g i j = d'.rd g i j := by
  rw [Dev.ndlNext, Dev.rd_ndlCharge ((d'.inBudget_setNpc e _ iv).trans h) g i j hg]
  exact d'.rd_setEngine e _ g i j hg

theorem Dev.ndlJump_pc (h : d.inBudget e iv = true) (link : Bool) (target : Nat) :
    ((d.ndlJump e iv link target).engine e).pc = target % 4096 := by
  obtain ⟨used, executed, hx⟩ := Dev.ndlCharge_engine
    (d := (if link then d.setNreg e 15 (((d.engine e).pc + 1) % 4096) else d).setNpc e target) (e := e) (pc := (d.engine e).pc) (iv := iv)
    (by cases link <;> simpa [Dev.setNreg] using h)
  rw [Dev.ndlJump, hx]
  simp

theorem Dev.rd_ndlJump (h : d.inBudget e iv = true) (link : Bool) (target : Nat) (g : Field) (i j : Nat)
    (hg : (g.id != NDL.QUEUE.id) = true := by rfl) (hi : i < 65536 := by omega) (hj : j < 4096 := by omega) :
    (d.ndlJump e iv link target).rd g i j = (if link then d.setNreg e 15 (((d.engine e).pc + 1) % 4096) else d).rd g i j := by
  rw [Dev.ndlJump, Dev.rd_ndlCharge (iv := iv) (by cases link <;> simpa [Dev.setNreg] using h) g i j hg]
  exact Dev.rd_setEngine _ e _ g i j hg

/-! ### Registers -/

theorem Dev.nreg_setNreg_same (d : Dev) (r : Fin 16) (v : Nat) : (d.setNreg e r v).nreg e r = v % 2 ^ 20 := Dev.rd_wr_same _ _ _ _ _

theorem Dev.nreg_setNreg_ne (d : Dev) {r q : Fin 16} (v : Nat) (h : q ≠ r) : (d.setNreg e r v).nreg e q = d.nreg e q := by
  apply Dev.rd_wr_key_ne
  simp only [Field.key]
  intro hk
  apply h
  ext
  omega

theorem Dev.nflags_setNreg (d : Dev) (r : Fin 16) (v : Nat) : (d.setNreg e r v).nflags e = d.nflags e :=
  congrArg NFlags.of (d.rd_wr_other NDL.N NDL.FLAGS e r e 0 v)

theorem Dev.nreg_setNflags (d : Dev) (f : NFlags) (q : Fin 16) : (d.setNflags e f).nreg e q = d.nreg e q :=
  d.rd_wr_other NDL.FLAGS NDL.N e 0 e q _

theorem NFlags.of_word (f : NFlags) : NFlags.of (f.word % 2 ^ 3) = f := by
  obtain ⟨z, c, n⟩ := f
  cases z <;> cases c <;> cases n <;> rfl

theorem Dev.nflags_setNflags (d : Dev) (f : NFlags) : (d.setNflags e f).nflags e = f :=
  (congrArg NFlags.of (d.rd_wr_same NDL.FLAGS e 0 f.word)).trans f.of_word

/-- An instruction that goes on at the next word computes what its effect has written. -/
theorem Dev.computed_ndlNext (h : d'.inBudget e iv = true) {r : Fin 16} {x : NResult} (hv : ∀ v, x.1 = some v → d'.nreg e r = v % 2 ^ 20)
    (hq : ∀ q, (q ≠ r ∨ x.1 = none) → d'.nreg e q = d.nreg e q) (hf : d'.nflags e = x.2) : d.computed (d.ndlNext e iv d') e r x :=
  ⟨fun v hx => (Dev.rd_ndlNext h NDL.N e r).trans (hv v hx), fun q hx => (Dev.rd_ndlNext h NDL.N e q).trans (hq q hx),
    (congrArg NFlags.of (Dev.rd_ndlNext h NDL.FLAGS e 0)).trans hf, Dev.ndlNext_pc h⟩

theorem Dev.nresult_inBudget (d : Dev) (r : Fin 16) (x : NResult) : (d.nresult e r x).inBudget e iv = d.inBudget e iv := by
  obtain ⟨v, f⟩ := x
  cases v <;> rfl

/-- The result in the destination, the flags, the other registers. -/
theorem Dev.computed_nresult (h : d.inBudget e iv = true) (r : Fin 16) (x : NResult) :
    d.computed (d.ndlNext e iv (d.nresult e r x)) e r x := by
  obtain ⟨v, f⟩ := x
  cases v with
  | none =>
    exact Dev.computed_ndlNext ((d.nresult_inBudget r _).trans h) (by simp) (fun q _ => d.nreg_setNflags f q) (d.nflags_setNflags f)
  | some v =>
    refine Dev.computed_ndlNext ((d.nresult_inBudget r _).trans h) (fun v' hx => ?_) (fun q hx => ?_) (Dev.nflags_setNflags _ f)
    · obtain rfl := Option.some.inj hx
      exact (Dev.nreg_setNflags _ f r).trans (d.nreg_setNreg_same r v)
    · exact (Dev.nreg_setNflags _ f q).trans (d.nreg_setNreg_ne v (by simpa using hx))

/-- The result in the destination, the flags and the other registers as before. -/
theorem Dev.computed_setNreg (h : d.inBudget e iv = true) (r : Fin 16) (v : Nat) :
    d.computed (d.ndlNext e iv (d.setNreg e r v)) e r (some v, d.nflags e) := by
  refine Dev.computed_ndlNext (d' := d.setNreg e r v) h (fun v' hx => ?_) (fun q hx => ?_) (d.nflags_setNreg r v)
  · obtain rfl := Option.some.inj hx
    exact d.nreg_setNreg_same r v
  · exact d.nreg_setNreg_ne v (by simpa using hx)

/-- The row of an instruction's kind runs it. -/
theorem Dev.ndlRun_eq {i : NInstr} (h : d.fetches e iv i) {want : NInstr → Bool} (hw : want i = true) :
    d.ndlRun e want = d.ndlExec e iv i := by
  obtain ⟨w, hw', hi⟩ := h
  simp [Dev.ndlRun, hw', hi, hw]

theorem stay_ndlRun {s : State} {i : NInstr} (h : s.dev.fetches e iv i) {want : NInstr → Bool} (hw : want i = true) :
    stay s (fun d => d.ndlRun e want) = .next (s.after (fun d => d.ndlExec e iv i)) :=
  stay_eq_after (Dev.ndlRun_eq h hw)

end

/-- Settles O21: the destination, the flags and the PC, by the effect of each instruction and its charge. -/
theorem needleComputeRowsComplete : Obligations.NeedleComputeRowsComplete := by
  intro s e iv
  refine ⟨fun fn r a b h hb => ?_, fun op r a i h hb => ?_, fun r h hb => ?_⟩
  · refine ⟨s.after (fun d => d.ndlExec e iv (.alu fn r a b)), ?_, Dev.computed_nresult hb r _⟩
    exact stay_ndlRun h (want := NInstr.isAlu) rfl
  · have hx := stay_ndlRun h (want := NInstr.isImm op) (by simp [NInstr.isImm])
    refine ⟨s.after (fun d => d.ndlExec e iv (.imm op r a i)), Eq.trans ?_ hx, Dev.computed_nresult hb r _⟩
    cases op <;> rfl
  · exact ⟨s.after (fun d => d.ndlExec e iv (.brem r)), stay_ndlRun h (want := NInstr.isBrem) rfl, Dev.computed_setNreg hb r _⟩

end Sys2Proof.Machine

end

section

/-! PROOFS. The flow of the engines. -/

set_option Elab.async false

namespace Sys2Proof.Machine

section

variable {d : Dev} {e : Fin 96} {iv : Invocation}

theorem Dev.fetches.running {i : NInstr} (h : d.fetches e iv i) : (d.engine e).running = some iv := by
  obtain ⟨w, hw, -⟩ := h
  unfold Dev.nfetch at hw
  split at hw
  · next x hx =>
    split at hw
    · rw [hx, (Prod.mk.inj (Option.some.inj hw)).1]
    · contradiction
  · contradiction

/-! ### The end of an invocation -/

theorem Dev.ndlEnd_eq (h : (d.engine e).running = some iv) : ∃ w, d.ndlEnd e =
    ((d.setEngine e { d.engine e with running := none, waiting := w }).wr NDL.PC e 0 (d.engine e).pc).setNdlState e
      (if d.on (HDR.ENABLE .ndl) e then 1 else 0) := by
  unfold Dev.ndlEnd
  simp only [h]
  exact ⟨_, rfl⟩

theorem Dev.setNdlState_engine (v k : Nat) : (d.setNdlState e v).engine k = d.engine k := by
  simp [Dev.setNdlState, Dev.engine]

theorem Dev.setNdlState_lines (v : Nat) : (d.setNdlState e v).lines = d.lines := Dev.cond_lines _ _ _ _ _

theorem Dev.ndlEnd_running (h : (d.engine e).running = some iv) : ((d.ndlEnd e).engine e).running = none := by
  obtain ⟨w, hw⟩ := d.ndlEnd_eq h
  rw [hw, Dev.setNdlState_engine]
  simp

theorem Dev.ndlEnd_inBudget (h : (d.engine e).running = some iv) (v : Invocation) : (d.ndlEnd e).inBudget e v = d.inBudget e v := by
  obtain ⟨w, hw⟩ := d.ndlEnd_eq h
  rw [hw]
  refine Dev.inBudget_congr v (fun n => ?_) (by rw [Dev.setNdlState_engine]; simp)
  simp only [Dev.port, Dev.setNdlState_lines]
  rfl

theorem Dev.ndlEnd_state (h : (d.engine e).running = some iv) : (d.ndlEnd e).ndlState e = if d.on (HDR.ENABLE .ndl) e then 1 else 0 := by
  obtain ⟨w, hw⟩ := d.ndlEnd_eq h
  rw [hw, Dev.ndlState, Dev.setNdlState, Dev.rd_cond_other _ .ndl e 5 _ (HDR.STATE .ndl) e 0, Dev.rd_wr_same]
  split <;> rfl

theorem Dev.rd_ndlEnd (h : (d.engine e).running = some iv) (g : Field) (i j : Nat) (hq : (g.id != NDL.QUEUE.id) = true := by rfl)
    (hp : (g.id != NDL.PC.id) = true := by rfl) (hs : (g.id != (HDR.STATE .ndl).id) = true := by rfl)
    (hc : (condAt .ndl e).all (fun x => x.1.id != g.id) = true := by rfl) (hi : i < 65536 := by omega) (hj : j < 4096 := by omega) :
    (d.ndlEnd e).rd g i j = d.rd g i j := by
  obtain ⟨w, hw⟩ := d.ndlEnd_eq h
  rw [hw, Dev.setNdlState, Dev.rd_cond_other _ .ndl e 5 _ g i j hc, Dev.rd_wr_other _ _ g _ _ i j _ hs, Dev.rd_wr_other _ _ g _ _ i j _ hp,
    d.rd_setEngine e _ g i j hq]

/-! ### What BRK records -/

theorem Dev.ndlRecord_needle (d : Dev) (e cause pc : Nat) (port : Option Nat) : (d.ndlRecord e cause pc port).needle = d.needle := by
  unfold Dev.ndlRecord
  split <;> rfl

theorem Dev.ndlRecord_lines (d : Dev) (e cause pc : Nat) (port : Option Nat) : (d.ndlRecord e cause pc port).lines = d.lines := by
  unfold Dev.ndlRecord
  split <;> rfl

theorem Dev.rd_ndlRecord_enable (d : Dev) (e : Fin 96) (cause pc : Nat) (port : Option Nat) :
    (d.ndlRecord e cause pc port).rd (HDR.ENABLE .ndl) e = d.rd (HDR.ENABLE .ndl) e := by
  unfold Dev.ndlRecord
  split
  · rfl
  · rw [Dev.rd_wr_other _ NDL.NF_PORT (HDR.ENABLE .ndl) e 0 e 0, Dev.rd_flag_other _ NDL.NF_CUST (HDR.ENABLE .ndl) e 0 e 0,
      Dev.rd_wr_other _ NDL.NF_PC (HDR.ENABLE .ndl) e 0 e 0, Dev.rd_wr_other _ NDL.NF_CAUSE (HDR.ENABLE .ndl) e 0 e 0,
      Dev.rd_wr_other _ NDL.NF_VALID (HDR.ENABLE .ndl) e 0 e 0]

/-- BRK before the end of the invocation: ENABLE 0, the record, BREAK, the next PC. -/
def Dev.broken (d : Dev) (e : Nat) (iv : Invocation) : Dev :=
  (((d.wr (HDR.ENABLE .ndl) e 0 0).ndlRecord e 5 (d.engine e).pc iv.ev.port).raise .ndl e 3).setNpc e ((d.engine e).pc + 1)

theorem Dev.ndlBrk_eq (d : Dev) (e : Nat) (iv : Invocation) : d.ndlBrk e iv = ((d.broken e iv).ndlEnd e).ndlCharge e (d.engine e).pc iv := rfl

theorem Dev.broken_engine (d : Dev) (e : Nat) (iv : Invocation) :
    (d.broken e iv).engine e = { d.engine e with pc := ((d.engine e).pc + 1) % 4096 } := by
  rw [Dev.broken, Dev.engine_setNpc]
  simp [Dev.engine, Dev.ndlRecord_needle]

theorem Dev.broken_inBudget (d : Dev) (e : Nat) (iv v : Invocation) : (d.broken e iv).inBudget e v = d.inBudget e v := by
  refine Dev.inBudget_congr v (fun n => ?_) (by rw [Dev.broken_engine])
  change FMap.get PortSt.reset ((((d.wr (HDR.ENABLE .ndl) e 0 0).ndlRecord e 5 (d.engine e).pc iv.ev.port).raise .ndl e 3)).lines.ports n = _
  rw [Dev.raise_lines, Dev.ndlRecord_lines]
  rfl

theorem Dev.broken_on_enable (d : Dev) (e : Fin 96) (iv : Invocation) : (d.broken e iv).on (HDR.ENABLE .ndl) e = false := by
  have h : (d.broken e iv).rd (HDR.ENABLE .ndl) e = 0 := by
    rw [Dev.broken, Dev.setNpc, Dev.modEngine, Dev.rd_setEngine _ _ _ (HDR.ENABLE .ndl) e 0, Dev.rd_raise_other _ .ndl e 3 (HDR.ENABLE .ndl) e 0,
      Dev.rd_ndlRecord_enable, Dev.rd_wr_same]
    rfl
  simp [Dev.on, h]

/-! ### What each leaves -/

theorem Dev.ndlWait_leaves (d : Dev) (hr : (d.engine e).running = some iv) (hb : d.inBudget e iv = true) {mask : Nat} (hm : mask < 64) :
    ((d.ndlWait e iv mask).engine e).running = none ∧ (d.ndlWait e iv mask).rd NDL.WAIT_MASK e = mask ∧
      (d.ndlWait e iv mask).ndlState e = if d.on (HDR.ENABLE .ndl) e then 1 else 0 := by
  let d1 := (d.wr NDL.WAIT_MASK e 0 mask).setNpc e ((d.engine e).pc + 1)
  have hr1 : (d1.engine e).running = some iv := (congrArg EngineSt.running (Dev.engine_setNpc _ _ _)).trans hr
  have hb1 : (d1.ndlEnd e).inBudget e iv = true := (Dev.ndlEnd_inBudget hr1 iv).trans ((Dev.inBudget_setNpc _ _ _ _).trans hb)
  have hrd : ∀ (g : Field), (g.id != NDL.QUEUE.id) = true → d1.rd g e = (d.wr NDL.WAIT_MASK e 0 mask).rd g e := fun g hg =>
    Dev.rd_setEngine _ e _ g e 0 hg
  have heq : d.ndlWait e iv mask = (d1.ndlEnd e).ndlCharge e (d.engine e).pc iv := rfl
  obtain ⟨used, executed, hx⟩ := Dev.ndlCharge_engine (pc := (d.engine e).pc) hb1
  refine ⟨?_, ?_, ?_⟩
  · rw [heq, hx]
    exact Dev.ndlEnd_running hr1
  · rw [heq, Dev.rd_ndlCharge hb1 NDL.WAIT_MASK e 0, Dev.rd_ndlEnd hr1 NDL.WAIT_MASK e 0, hrd NDL.WAIT_MASK rfl, Dev.rd_wr_same]
    exact Nat.mod_eq_of_lt hm
  · rw [heq, Dev.ndlState, Dev.rd_ndlCharge hb1 (HDR.STATE .ndl) e 0]
    refine (Dev.ndlEnd_state hr1).trans ?_
    rw [Dev.on, hrd (HDR.ENABLE .ndl) rfl, Dev.rd_wr_other _ NDL.WAIT_MASK (HDR.ENABLE .ndl) e 0 e 0]
    rfl

theorem Dev.ndlBrk_leaves (d : Dev) (hr : (d.engine e).running = some iv) (hb : d.inBudget e iv = true) :
    ((d.ndlBrk e iv).engine e).running = none ∧ (d.ndlBrk e iv).on (HDR.ENABLE .ndl) e = false ∧ (d.ndlBrk e iv).ndlState e = 0 := by
  have hr1 : ((d.broken e iv).engine e).running = some iv := (congrArg EngineSt.running (d.broken_engine e iv)).trans hr
  have hb1 : ((d.broken e iv).ndlEnd e).inBudget e iv = true := (Dev.ndlEnd_inBudget hr1 iv).trans ((d.broken_inBudget e iv iv).trans hb)
  have hon := d.broken_on_enable e iv
  obtain ⟨used, executed, hx⟩ := Dev.ndlCharge_engine (pc := (d.engine e).pc) hb1
  refine ⟨?_, ?_, ?_⟩
  · rw [Dev.ndlBrk_eq, hx]
    exact Dev.ndlEnd_running hr1
  · rw [Dev.ndlBrk_eq, Dev.on, Dev.rd_ndlCharge hb1 (HDR.ENABLE .ndl) e 0, Dev.rd_ndlEnd hr1 (HDR.ENABLE .ndl) e 0]
    exact hon
  · rw [Dev.ndlBrk_eq, Dev.ndlState, Dev.rd_ndlCharge hb1 (HDR.STATE .ndl) e 0]
    refine (Dev.ndlEnd_state hr1).trans ?_
    simp [hon]

/-- A jump without a link keeps the registers; one with it writes n15 alone. -/
theorem Dev.nreg_ndlJump (hb : d.inBudget e iv = true) (target : Nat) (r : Fin 16) : (d.ndlJump e iv false target).nreg e r = d.nreg e r :=
  Dev.rd_ndlJump hb false target NDL.N e r

theorem Dev.nreg_ndlJump_link (hb : d.inBudget e iv = true) (target : Nat) :
    (d.ndlJump e iv true target).nreg e 15 = ((d.engine e).pc + 1) % 4096 ∧
      ∀ r, r ≠ 15 → (d.ndlJump e iv true target).nreg e r = d.nreg e r := by
  refine ⟨?_, fun r hr => ?_⟩
  · refine (Dev.rd_ndlJump hb true target NDL.N e (15 : Fin 16)).trans ((d.nreg_setNreg_same 15 _).trans ?_)
    omega
  · exact (Dev.rd_ndlJump hb true target NDL.N e r).trans (d.nreg_setNreg_ne _ hr)

theorem Dev.nreg_ndlNext_self (hb : d.inBudget e iv = true) (r : Fin 16) : (d.ndlNext e iv d).nreg e r = d.nreg e r :=
  Dev.rd_ndlNext hb NDL.N e r

theorem Dev.ndlExec_jalr (hb : d.inBudget e iv = true) {a : Fin 16} (ha : a ≠ 15) :
    ((d.ndlExec e iv (.jalr a)).engine e).pc = d.nreg e a % 4096 ∧
      (d.ndlExec e iv (.jalr a)).nreg e 15 = ((d.engine e).pc + 1) % 4096 ∧
      ∀ r, r ≠ 15 → (d.ndlExec e iv (.jalr a)).nreg e r = d.nreg e r := by
  simp only [Dev.ndlExec, if_neg ha]
  exact ⟨Dev.ndlJump_pc hb true _, Dev.nreg_ndlJump_link hb _⟩

theorem Dev.ndlExec_b (hb : d.inBudget e iv = true) (c : Cond) (g : Fin 4096) :
    (∀ r, (d.ndlExec e iv (.b c g)).nreg e r = d.nreg e r) ∧
      ((d.ndlExec e iv (.b c g)).engine e).pc = if c.holds (d.nflags e) then g.val else ((d.engine e).pc + 1) % 4096 := by
  cases hc : c.holds (d.nflags e) with
  | true =>
    simp only [Dev.ndlExec, hc, if_true]
    exact ⟨Dev.nreg_ndlJump hb _, (Dev.ndlJump_pc hb false _).trans (Nat.mod_eq_of_lt g.isLt)⟩
  | false =>
    simp only [Dev.ndlExec, hc, Bool.false_eq_true, if_false]
    exact ⟨Dev.nreg_ndlNext_self hb, Dev.ndlNext_pc hb⟩

theorem Dev.ndlExec_call (hb : d.inBudget e iv = true) (c : Cond) (g : Fin 4096) :
    ((d.ndlExec e iv (.call c g)).engine e).pc = (if c.holds (d.nflags e) then g.val else ((d.engine e).pc + 1) % 4096) ∧
      (d.ndlExec e iv (.call c g)).nreg e 15 = (if c.holds (d.nflags e) then ((d.engine e).pc + 1) % 4096 else d.nreg e 15) ∧
      ∀ r, r ≠ 15 → (d.ndlExec e iv (.call c g)).nreg e r = d.nreg e r := by
  cases hc : c.holds (d.nflags e) with
  | true =>
    simp only [Dev.ndlExec, hc, if_true]
    exact ⟨(Dev.ndlJump_pc hb true _).trans (Nat.mod_eq_of_lt g.isLt), Dev.nreg_ndlJump_link hb _⟩
  | false =>
    simp only [Dev.ndlExec, hc, Bool.false_eq_true, if_false]
    exact ⟨Dev.ndlNext_pc hb, Dev.nreg_ndlNext_self hb 15, fun r _ => Dev.nreg_ndlNext_self hb r⟩

end

/-- Settles O23: jumps and calls by the PC and n15, WAIT and BRK by the end of the invocation, the rest by their rows. -/
theorem needleFlowRowsComplete : Obligations.NeedleFlowRowsComplete := by
  intro s e iv
  refine ⟨fun a h hb => ?_, fun a ha h hb => ?_, fun c g h hb => ?_, fun c g h hb => ?_, fun i h hb => ?_, fun h hb => ?_, fun w hw hd => ?_,
    fun hs he => ?_, fun m t0 ht hle => ?_, fun v hm hwr => ?_⟩
  · exact ⟨s.after (fun d => d.ndlExec e iv (.jr a)), stay_ndlRun h (want := NInstr.isJr) rfl, Dev.ndlJump_pc hb false _,
      fun r => Dev.rd_ndlJump hb false _ NDL.N e r⟩
  · exact ⟨s.after (fun d => d.ndlExec e iv (.jalr a)), stay_ndlRun h (want := NInstr.isJalr) rfl, Dev.ndlExec_jalr hb ha⟩
  · exact ⟨s.after (fun d => d.ndlExec e iv (.b c g)), stay_ndlRun h (want := NInstr.isB) rfl, Dev.ndlExec_b hb c g⟩
  · exact ⟨s.after (fun d => d.ndlExec e iv (.call c g)), stay_ndlRun h (want := NInstr.isCall) rfl, Dev.ndlExec_call hb c g⟩
  · exact ⟨s.after (fun d => d.ndlExec e iv (.wait i)), stay_ndlRun h (want := NInstr.isWait) rfl, s.dev.ndlWait_leaves h.running hb (by omega)⟩
  · exact ⟨s.after (fun d => d.ndlExec e iv .brk), stay_ndlRun h (want := NInstr.isBrk) rfl, s.dev.ndlBrk_leaves h.running hb⟩
  · change execIllegalInstruction e s = _
    exact stay_eq_after (by simp [hw, hd])
  · exact stay_whenDev _ (by simp [hs, he])
  · change execNeedleTimerFire e m s = _
    exact rfl
  · exact (unlessMisuse_of_eq_none hm).trans (stay_whenDev _ hwr)

end Sys2Proof.Machine

end

section

/-! PROOFS. Calibration. -/

set_option Elab.async false

namespace Sys2Proof.Machine

/-- CMD_CAL_RUN with STARCH.EXPERT 1 and no run under way enters CAL. -/
theorem exec_cmdCalRun {s : State} {tag : Fin 4096} {c : Inflight} (hr : s.dev.ready 5 tag = some c) (hbad : calArgsBad c.args = false)
    (hrun : s.dev.starch.run = none) (he : s.dev.on (HDR.EXPERT .starch) = true) :
    exec (.cmdCalRun tag) s = .next (s.afterShift (fun d =>
      ({ d.start tag with
          mode := .cal
          calFrom := d.mode
          starch := { d.starch with run := some ⟨tag, c.args.getD 0 0, c.args.getD 1 0⟩ } }).wr STARCH.CAL_BUSY 0 0 1)) := by
  refine (unlessMisuse_of_eq_none (argMisuse_of_ready hr hbad)).trans (shift_eq_afterShift ?_)
  rw [Dev.startCmd_of_ready hr]
  have hs : (s.dev.start tag).starch = s.dev.starch := rfl
  have hon : (s.dev.start tag).on (HDR.EXPERT .starch) = true := he
  simp only [hs, hrun, hon, Option.isSome_none, Bool.not_true, Bool.or_self, Bool.false_eq_true, if_false]
  rfl

/-- The marks of a port out of deferral: CAL_DEFERRED 0, and NEVER_CAL 0 once it has its values. -/
theorem Dev.calibrated_marks (d : Dev) (n : Fin 512) (ramps : List Ramp) :
    let d2 := { d.undefer n with starch := { (d.undefer n).starch with ramps := ramps } }
    let t := ((d2.wr PORT.PORT_CAL_TB n 0 d2.timebase).wr PORT.NEVER_CAL n 0 0).countDeferred
    t.on PORT.CAL_DEFERRED n = false ∧ t.on PORT.NEVER_CAL n = false := by
  intro d2 t
  have hcal : d2.rd PORT.CAL_DEFERRED n = 0 := (Dev.rd_wr_same _ PORT.CAL_DEFERRED n 0 0).trans rfl
  constructor
  · simp only [Dev.on, t, Dev.countDeferred]
    rw [Dev.rd_cond_other _ .starch 0 2 _ PORT.CAL_DEFERRED n 0, Dev.rd_wr_other _ STARCH.DEFERRED_PORTS PORT.CAL_DEFERRED 0 0 n 0,
      Dev.rd_wr_other _ PORT.NEVER_CAL PORT.CAL_DEFERRED n 0 n 0, Dev.rd_wr_other _ PORT.PORT_CAL_TB PORT.CAL_DEFERRED n 0 n 0, hcal]
    rfl
  · simp only [Dev.on, t, Dev.countDeferred]
    rw [Dev.rd_cond_other _ .starch 0 2 _ PORT.NEVER_CAL n 0, Dev.rd_wr_other _ STARCH.DEFERRED_PORTS PORT.NEVER_CAL 0 0 n 0, Dev.rd_wr_same]
    rfl

/-- An untouched pass that agrees with the one before gives the port its values. -/
theorem Dev.retryPass_agreeing {d : Dev} {n : Fin 512} {x p : PortItems} {ps : List PortItems}
    (ht : FMap.get false d.starch.touched n = false) (hp : FMap.get [] d.starch.passes n = p :: ps) (ha : portAgree p x = true) :
    (d.retryPass n x false).on PORT.CAL_DEFERRED n = false ∧ (d.retryPass n x false).on PORT.NEVER_CAL n = false := by
  simp only [Dev.retryPass, ht, hp, ha, Bool.or_self, Bool.false_eq_true, if_false, if_true]
  exact Dev.calibrated_marks _ n _

/-- Settles O5: a run by its start and end, a deferral by the second of two agreeing passes. -/
theorem calibrationRowsComplete : Obligations.CalibrationRowsComplete := by
  intro s
  refine ⟨fun data hm hf => shift_whenDev _ (by simp [hm, hf]), fun tag c hr hbad hrun he => ⟨_, exec_cmdCalRun hr hbad hrun he, rfl, rfl, rfl⟩,
    fun data r hr hm => ?_, fun port x p ps hd hx hw ht hp ha => ⟨_, stay_whenDev _ (by simp [hd, hx, hw]), Dev.retryPass_agreeing ht hp ha⟩⟩
  change execCalRunDone data s = _
  exact shift_eq_afterShift (by simp [hr, hm])

end Sys2Proof.Machine

end

section

/-! PROOFS. Moves, lane resets, programme changes, voltage and sensors. -/

set_option Elab.async false

namespace Sys2Proof.Machine

/-! ### What the end of a move and the begin of a held change keep -/

theorem Dev.evtKept.refl (d : Dev) : d.evtKept d := fun _ _ _ _ _ h => h

theorem Dev.evtKept.trans {a b c : Dev} (h : a.evtKept b) (g : b.evtKept c) : a.evtKept c := fun p i n hi hn x => g p i n hi hn (h p i n hi hn x)

theorem Dev.jrnAdd_evts (d : Dev) (k : Nat) (ws : List Nat) : d.evtKept (d.jrnAdd k ws) := by
  unfold Dev.jrnAdd
  split
  · exact .refl d
  · dsimp only
    split
    · exact Dev.evtKept_wr _ PAIR.JRN_OVERFLOW _ (by intro p; cases p <;> decide)
    · exact fun _ _ _ _ _ h => h

theorem Dev.countStatus_evts (d : Dev) (st : Status) : d.evtKept (d.countStatus st) := by
  cases st with
  | ok => exact .refl d
  | wrongState => exact d.countWrongState_sends.evts
  | busy => exact d.evtKept_wr DEV.CMD_BUSY _ (by intro p; cases p <;> decide)

/-- A completion loses no event. -/
theorem Dev.complete_evts (d : Dev) (tag : Nat) (st : Status) (res : List Nat) (ab : Bool) : d.evtKept (d.complete tag st res ab) := by
  cases h : d.findCmd tag with
  | none => rw [Dev.complete, h]; exact .refl d
  | some c =>
    have hj : (d.retire tag).evtKept ((d.retire tag).journalOk c st) := by
      unfold Dev.journalOk
      split
      · exact Dev.jrnAdd_evts _ 3 _
      · exact .refl _
    exact (hj.trans (Dev.countStatus_evts _ st)).trans (Dev.complete_sends h st res ab).evts

/-- No event is lost, no port changes its lane and no move begins or ends. -/
structure Dev.movesKept (d t : Dev) : Prop where
  evts : d.evtKept t
  lane : ∀ n < 65536, t.rd PORT.LANE n = d.rd PORT.LANE n
  moves : t.arch.moves = d.arch.moves

theorem Dev.movesKept.trans {a b c : Dev} (h : a.movesKept b) (g : b.movesKept c) : a.movesKept c :=
  ⟨h.evts.trans g.evts, fun n hn => (g.lane n hn).trans (h.lane n hn), g.moves.trans h.moves⟩

theorem Dev.movesKept_of_regs {d t : Dev} (hr : t.regs = d.regs) (hm : t.arch.moves = d.arch.moves) : d.movesKept t :=
  ⟨fun _ i b _ _ h => (congrArg (Nat.testBit · b) (Dev.rd_congr hr _ i 0)).trans h, fun n _ => Dev.rd_congr hr _ n 0, hm⟩

theorem Dev.movesKept_wr (d : Dev) (f : Field) (v : Nat) (hf : f ∈ [DEV.MIG_BUSY, DEV.PROG_TARGET, DEV.PROG_BUSY, STARCH.AVS_TARGET]) :
    d.movesKept (d.wr f 0 0 v) := by
  have hevt : ∀ p, ∀ f ∈ [DEV.MIG_BUSY, DEV.PROG_TARGET, DEV.PROG_BUSY, STARCH.AVS_TARGET], (HDR.EVT_STATUS p).id ≠ f.id := by
    intro p
    cases p <;> decide
  have hlane : ∀ f ∈ [DEV.MIG_BUSY, DEV.PROG_TARGET, DEV.PROG_BUSY, STARCH.AVS_TARGET], PORT.LANE.id ≠ f.id := by decide
  exact ⟨d.evtKept_wr f v (fun p => hevt p f hf), fun n _ => d.rd_wr_ne f PORT.LANE 0 0 n 0 v (hlane f hf), rfl⟩

theorem Dev.movesKept_complete (d : Dev) (tag : Nat) (st : Status) : d.movesKept (d.complete tag st) :=
  ⟨d.complete_evts tag st [] false, fun n hn => d.rd_complete_other tag st [] false PORT.LANE n 0, by rw [Dev.complete_arch]⟩

theorem Dev.movesKept_settleMoves (d : Dev) : d.movesKept d.settleMoves := by
  have hb : d.movesKept d.migBusy := d.movesKept_wr DEV.MIG_BUSY _ (by simp)
  unfold Dev.settleMoves
  dsimp only
  split
  · split
    · exact hb
    · refine (hb.trans (Dev.movesKept_of_regs (t := { d.migBusy with arch := { d.migBusy.arch with placeTag := none } }) rfl rfl)).trans ?_
      exact Dev.movesKept_complete _ _ .ok
  · exact hb

theorem Dev.movesKept_beginChange (d : Dev) (c : ProgChange) : d.movesKept (d.beginChange c) := by
  have hw : d.movesKept ((d.wr DEV.PROG_TARGET 0 0 c.target).wr DEV.PROG_BUSY 0 0 1) :=
    (d.movesKept_wr DEV.PROG_TARGET _ (by simp)).trans (Dev.movesKept_wr _ DEV.PROG_BUSY _ (by simp))
  unfold Dev.beginChange
  dsimp only
  split
  · exact ((hw.trans (Dev.movesKept_of_regs rfl rfl)).trans (Dev.movesKept_wr _ STARCH.AVS_TARGET _ (by simp))).trans (Dev.movesKept_of_regs rfl rfl)
  · split <;> exact hw.trans (Dev.movesKept_of_regs rfl rfl)

theorem Dev.movesKept_beginHeld (d : Dev) : d.movesKept d.beginHeld := by
  unfold Dev.beginHeld
  split
  · split
    · exact d.movesKept_beginChange _
    · exact Dev.movesKept_of_regs rfl rfl
  · exact Dev.movesKept_of_regs rfl rfl

/-- The only move done: the port is in its target lane, and MIG_DONE is raised. -/
theorem Dev.copyDone_only {d : Dev} {m : Move} (h : d.arch.moves = [m]) (hp : m.port < 512) :
    (d.copyDone m).arch.moves = [] ∧ (d.copyDone m).rd PORT.LANE m.port = m.target % 16 ∧
      ((d.copyDone m).rd (HDR.EVT_STATUS .dev)).testBit 10 = true := by
  let d1 : Dev := { d with arch := { d.arch with moves := d.arch.moves.filter (fun x => x != m) } }
  let d2 := (((d1.wr PORT.LANE m.port 0 m.target).inc DEV.MIG_COUNT).raise .dev 0 10)
  have hk : d2.movesKept (d.copyDone m) := (Dev.movesKept_settleMoves d2).trans (Dev.movesKept_beginHeld _)
  refine ⟨?_, ?_, hk.evts .dev 0 10 (by omega) (by omega) (Dev.evt_raise _ .dev 0 10)⟩
  · rw [hk.moves]
    simp only [d2, Dev.raise_arch, Dev.inc_arch, Dev.wr_arch, d1, h]
    simp
  · rw [hk.lane _ (by omega)]
    simp only [d2]
    rw [Dev.rd_raise_other _ .dev 0 10 PORT.LANE m.port 0, Dev.rd_inc_other _ DEV.MIG_COUNT PORT.LANE 0 0 m.port 0, Dev.rd_wr_same]
    rfl

/-! ### Lane resets -/

theorem Dev.commitSig_archTime (d : Dev) (n s : Nat) (c : MfCapture) (good : Bool) :
    ((d.commitSig n s c good).arch, (d.commitSig n s c good).timebase) = (d.arch, d.timebase) := by
  unfold Dev.commitSig
  extract_lets ok ts d1
  have h1 : (d1.arch, d1.timebase) = (d.arch, d.timebase) :=
    foldl_keeps (fun d : Dev => (d.arch, d.timebase)) _ (fun d t => by split <;> rfl) _ d
  clear_value d1
  split
  · exact h1
  · exact h1

theorem Dev.modLab_archTime (d : Dev) (n s : Nat) (f : LabelSt → LabelSt) :
    ((d.modLab n s f).arch, (d.modLab n s f).timebase) = (d.arch, d.timebase) := rfl

theorem Dev.modPort_timebase (d : Dev) (n : Nat) (f : PortSt → PortSt) : (d.modPort n f).timebase = d.timebase := rfl

theorem Dev.modPort_arch (d : Dev) (n : Nat) (f : PortSt → PortSt) : (d.modPort n f).arch = d.arch := rfl

theorem Dev.portMode_setPort (d : Dev) (n : Nat) (m : PortMode) : (d.setPort n m).portMode n = m := FMap.get_set_same _ _ _ _

theorem Dev.alignRestart_archTime (d : Dev) (n : Nat) :
    ((d.alignRestart n).arch, (d.alignRestart n).timebase) = (d.arch, d.timebase) := by
  have hl : ((d.labelEnds n 0 true).arch, (d.labelEnds n 0 true).timebase) = (d.arch, d.timebase) := by
    unfold Dev.labelEnds
    dsimp only
    rw [Dev.modLab_archTime]
    split
    · exact d.commitSig_archTime n 0 _ _
    · rfl
  unfold Dev.alignRestart
  dsimp only
  generalize d.labelEnds n 0 true = e at hl ⊢
  split <;> exact hl

/-- A port taken into the reset of its lane is DOWN; no other port's state changes. -/
theorem Dev.portToReset_portsTime (d : Dev) (n : Nat) :
    ((d.portToReset n).arch.ports, (d.portToReset n).timebase) = (FMap.set .disabled d.arch.ports n .down, d.timebase) := by
  unfold Dev.portToReset
  extract_lets _ d1 d2 _ d3
  obtain ⟨harch, htime⟩ := Prod.mk.inj (Dev.alignRestart_archTime (((d1.setLane n 0 []).setLane n 1 []).modPort n PortSt.restarted) n)
  have h1 : (((d1.setLane n 0 []).setLane n 1 []).modPort n PortSt.restarted).arch.ports = FMap.set .disabled d.arch.ports n .down := by
    rw [Dev.modPort_arch]
    simp only [Dev.setLane, d1, Dev.setPort, Dev.setRinse]
  have h3 : (d3.arch.ports, d3.timebase) = (FMap.set .disabled d.arch.ports n .down, d.timebase) :=
    Prod.ext ((congrArg ArchSt.ports harch).trans h1) htime
  split
  · exact h3
  · rw [Dev.modPort_arch, Dev.modPort_timebase, Dev.txStartAt, Dev.modPort_arch, Dev.modPort_timebase, Dev.wr_arch, Dev.wr_timebase]
    exact h3

theorem Dev.portMode_portToReset (d : Dev) (n k : Nat) : (d.portToReset n).portMode k = if k = n then .down else d.portMode k := by
  rw [Dev.portMode, (Prod.mk.inj (d.portToReset_portsTime n)).1, FMap.get_set]
  rfl

theorem Dev.portMode_portsToReset (ps : List Nat) (d : Dev) {k : Nat} (h : k ∈ ps ∨ d.portMode k = .down) :
    (ps.foldl Dev.portToReset d).portMode k = .down := by
  induction ps generalizing d with
  | nil => simpa using h
  | cons n ps ih =>
    refine ih _ ?_
    rw [Dev.portMode_portToReset]
    by_cases hk : k = n
    · simp [hk]
    · simpa [hk] using h

theorem Dev.laneReset_leaves (d : Dev) (l : Fin 16) :
    FMap.get none (d.laneReset l).arch.overrun l = some (.resetting (d.timebase + 20480)) ∧ (d.laneReset l).on DEV.LANE_RESET 0 l = true ∧
      FMap.get [] (d.laneReset l).arch.laneMiss l = [] ∧ ∀ n ∈ d.lanePorts l, (d.laneReset l).portMode n = .down := by
  unfold Dev.laneReset
  extract_lets ps d1 _ d2
  have htime : d1.timebase = d.timebase :=
    foldl_keeps Dev.timebase Dev.portToReset (fun d n => congrArg Prod.snd (d.portToReset_portsTime n)) ps d
  let d3 := d2.openShadow ⟨.lane l, ps, ps.map (fun n => d2.rd PORT.ENGINE n), [], some (d2.timebase + frameTicks), false, 0⟩
  have hs := Dev.leavesRise_signals [] d3 [1224 + l.val] (d3.wr DEV.LANE_RESET 0 l 1)
  have harch : (d3.laneFlag DEV.LANE_RESET l).arch = d2.arch := by
    rw [Dev.laneFlag, hs.other]
    rfl
  refine ⟨?_, ?_, ?_, fun n hn => ?_⟩
  · rw [harch]
    simp only [d2, Dev.wr_arch, FMap.get_set_same, htime]
    rfl
  · rw [Dev.on, Dev.laneFlag, hs.rd DEV.LANE_RESET 0 l (by decide) (by omega) (by omega), Dev.rd_wr_same]
    rfl
  · rw [harch]
    simp only [d2, Dev.wr_arch, FMap.get_set_same]
  · rw [Dev.portMode, harch]
    exact Dev.portMode_portsToReset ps d (.inl hn)

theorem Dev.endShadow_arch (d : Dev) (b : ResetBlock) : (d.endShadow b).arch = d.arch := by
  unfold Dev.endShadow
  dsimp only
  split <;> rfl

theorem Dev.laneResetEnd_overrun (d : Dev) (l : Nat) : FMap.get none (d.laneResetEnd l).arch.overrun l = none := by
  rw [Dev.laneResetEnd, Dev.endShadow_arch, FMap.get_set_same]

/-! ### Programme changes -/

theorem Dev.refreshAdvice_arch (d : Dev) : d.refreshAdvice.arch = d.arch := by
  unfold Dev.refreshAdvice
  split
  · rfl
  · rw [Dev.raise_arch]
    rfl

theorem Dev.refreshAdvice_timebase (d : Dev) : d.refreshAdvice.timebase = d.timebase := by
  unfold Dev.refreshAdvice
  split
  · rfl
  · rw [Dev.raise_timebase]
    rfl

theorem Dev.updateCaps_timebase (d : Dev) : d.updateCaps.timebase = d.timebase :=
  foldl_keeps Dev.timebase _ (fun d l => by dsimp only; rw [apply_ite Dev.timebase]; exact ite_self _) _ d

theorem Dev.applyProg_timebase (d : Dev) (p : Nat) : (d.applyProg p).timebase = d.timebase := by
  unfold Dev.applyProg
  extract_lets d0 eco d1
  have h0 : d0.timebase = d.timebase := Dev.updateCaps_timebase (d.wr DEV.PROG_ACTIVE 0 0 p)
  have h1 : d1.timebase = d.timebase := (foldl_keeps Dev.timebase _ (fun d n => Dev.modPort_timebase d n _) d0.enabledPorts d0).trans h0
  clear_value d1
  rw [Dev.refreshAdvice_timebase]
  split
  · exact h1
  · exact h1

theorem Dev.changeDone_prog (d : Dev) (c : ProgChange) : (d.changeDone c).arch.prog = none := by
  unfold Dev.changeDone
  dsimp only
  rw [Dev.complete_arch, Dev.refreshAdvice_arch, Dev.raise_arch]
  rfl

theorem Dev.avsFail_prog (d : Dev) (c : ProgChange) : (d.avsFail c).arch.prog = some { c with phase := .undoWalk d.timebase } := by
  unfold Dev.avsFail
  dsimp only
  rw [Dev.applyProg_timebase]
  simp

/-- A change begun shows its target and is busy. -/
theorem Dev.beginChange_leaves (d : Dev) {c : ProgChange} (h : c.target ≤ 3) : ∃ ph,
    (d.beginChange c).arch.prog = some { c with phase := ph } ∧ (d.beginChange c).rd DEV.PROG_BUSY = 1 ∧
      (d.beginChange c).rd DEV.PROG_TARGET = c.target := by
  let d1 := (d.wr DEV.PROG_TARGET 0 0 c.target).wr DEV.PROG_BUSY 0 0 1
  have hbusy : d1.rd DEV.PROG_BUSY = 1 := (Dev.rd_wr_same _ _ _ _ _).trans rfl
  have htarget : d1.rd DEV.PROG_TARGET = c.target := by
    rw [Dev.rd_wr_other _ DEV.PROG_BUSY DEV.PROG_TARGET 0 0 0 0, Dev.rd_wr_same]
    exact Nat.mod_eq_of_lt (Nat.lt_of_le_of_lt h (by decide))
  unfold Dev.beginChange
  dsimp only
  split
  · exact ⟨_, rfl, (Dev.rd_wr_other _ STARCH.AVS_TARGET DEV.PROG_BUSY 0 0 0 0 _).trans hbusy,
      (Dev.rd_wr_other _ STARCH.AVS_TARGET DEV.PROG_TARGET 0 0 0 0 _).trans htarget⟩
  · split
    · exact ⟨_, rfl, hbusy, htarget⟩
    · exact ⟨_, rfl, hbusy, htarget⟩

/-- CMD_PROGRAMME of another programme, within the ceiling and with no move running, begins the change. -/
theorem exec_cmdProgramme {s : State} {tag : Fin 4096} {c : Inflight} (hr : s.dev.ready 4 tag = some c) (hc : c.args.getD 0 0 ≤ 3)
    (hp : s.dev.arch.prog = none) (hne : c.args.getD 0 0 ≠ s.dev.prog) (hu : withinCeiling s.dev.loadUnits (c.args.getD 0 0) = true)
    (hm : ∀ m ∈ s.dev.arch.moves, m.running = false) :
    exec (.cmdProgramme tag) s = .next (s.after (fun d => (d.start tag).beginChange ⟨tag, d.prog, c.args.getD 0 0, .held⟩)) := by
  refine (unlessMisuse_of_eq_none (argMisuse_of_ready hr (by simpa using hc))).trans (stay_eq_after ?_)
  rw [Dev.startCmd_of_ready hr]
  have hp' : (s.dev.start tag).arch.prog = none := hp
  have hne' : (c.args.getD 0 0 == (s.dev.start tag).prog) = false := beq_false_of_ne hne
  have hu' : withinCeiling (s.dev.start tag).loadUnits (c.args.getD 0 0) = true := hu
  have hm' : (s.dev.start tag).arch.moves.any Move.running = false := List.any_eq_false.mpr (fun m h => by simp [hm m h])
  simp only [hp', hne', hu', hm', Option.isSome_none, Bool.not_true, Bool.or_self, Bool.false_eq_true, if_false]
  rfl

/-! ### Voltage -/

/-- A reading within 25 mV of the target is one more near, and none far. -/
theorem exec_avsRead_near {s : State} {v : Nat} (h1 : v ≤ s.dev.rd STARCH.AVS_TARGET + 25) (h2 : s.dev.rd STARCH.AVS_TARGET ≤ v + 25) :
    ∃ t, exec (.avsRead (some v)) s = .next t ∧ t.dev.starch.avsFar = 0 ∧ t.dev.starch.avsNear = min 3 (s.dev.starch.avsNear + 1) := by
  have hfar : (decide (s.dev.rd STARCH.AVS_TARGET + 25 < v) || decide (v + 25 < s.dev.rd STARCH.AVS_TARGET)) = false := by
    simp only [Bool.or_eq_false_iff, decide_eq_false_iff_not]
    omega
  let d2 : Dev := { s.dev.wr STARCH.AVS_READ 0 0 v with
    starch := { s.dev.starch with avsFar := 0, avsNear := min 3 (s.dev.starch.avsNear + 1) } }
  let d3 : Dev := if min 3 (s.dev.starch.avsNear + 1) = 3 then (d2.faultCond (srcStarch 4) false).cond .starch 0 6 false else d2
  have hx : execAvsRead (some v) s = .next (s.after (fun _ => d3)) := by
    refine stay_eq_after ?_
    simp only [hfar, Bool.false_eq_true, if_false]
    rfl
  have h3 : d3.starch = d2.starch := by
    simp only [d3]
    split
    · rw [Dev.cond_starch, Dev.faultCond_starch]
    · rfl
  exact ⟨_, hx, congrArg StarchSt.avsFar h3, congrArg StarchSt.avsNear h3⟩

/-- CMD_PLACE_APPLY with pins that fit and none under way is due. -/
theorem exec_cmdPlaceApply {s : State} {tag : Fin 4096} {c : Inflight} (hr : s.dev.ready 11 tag = some c) (hp : s.dev.arch.placeTag = none)
    (hpins : s.dev.pinsExceed = false) : exec (.cmdPlaceApply tag) s = .next (s.after (fun d =>
      { d.start tag with arch := { d.arch with placeTag := some tag.val, placeDue := true } })) := by
  refine (unlessMisuse_of_eq_none (by simp [hpins])).trans (stay_eq_after ?_)
  rw [Dev.startCmd_of_ready hr]
  have hp' : (s.dev.start tag).arch.placeTag = none := hp
  simp only [hp', Option.isSome_none, Bool.false_eq_true, if_false]
  rfl

/-- Settles O4: each row by what its effect leaves of moves, lanes, the programme and the voltage. -/
theorem pipelineAndProgrammeRowsComplete : Obligations.PipelineAndProgrammeRowsComplete := by
  intro s
  refine ⟨fun port h => ⟨_, stay_whenDev _ h, rfl⟩, fun port m t0 hm hp hc ht => ?_, fun port m hf => ?_,
    fun lane h => ⟨_, stay_whenDev _ h, s.dev.laneReset_leaves lane⟩, fun lane t0 ho ht => ?_, fun ha ht => ?_, fun port hm hp hd => ?_,
    fun tag c hr hc hp hne hu hm => ?_, fun mv c t0 hp hph hb hlt h1 h2 ht => ?_, fun c t0 hp hph ht => ?_, fun c hp hph ht hle => ?_,
    fun c t0 hp hph hb ht => ?_, fun v h1 h2 => exec_avsRead_near h1 h2, fun tag c hr hp hpins => ⟨_, exec_cmdPlaceApply hr hp hpins, rfl, rfl⟩,
    fun rs tput hr hb ht => stay_whenDev _ (by simp [hr, hb, ht])⟩
  · have hx : exec (.contextCopyDone port) s = .next (s.after (fun d => d.copyDone m)) := by
      change execContextCopyDone port s = _
      exact stay_eq_after (by simp [hm, hp, hc, ht])
    obtain ⟨hmoves, hlane, hevt⟩ := Dev.copyDone_only hm (by omega)
    exact ⟨_, hx, hmoves, hp ▸ hlane, hevt⟩
  · change execContextCopyDone port s = _
    exact stay_eq_after (congrArg (fun o : Option Move => match o with | some m => s.dev.copyDone m | none => s.dev) hf)
  · refine ⟨s.after (fun d => d.laneResetEnd lane), stay_whenDev _ (by simp [ho, ht]), ?_⟩
    exact s.dev.laneResetEnd_overrun lane
  · exact ⟨_, stay_whenDev _ (by simp [ha, ht]), congrArg ArchSt.advice (Dev.refreshAdvice_arch _)⟩
  · refine ⟨s.after (fun d => ({ d with arch := { d.arch with portMiss := FMap.set [] d.arch.portMiss port [] } } : Dev).setPort port .up),
      stay_whenDev_eq_after (by simp [hm]) ?_, Dev.portMode_setPort _ _ _⟩
    exact if_pos ⟨hp, (congrArg not hd).trans rfl⟩
  · obtain ⟨ph, hprog, hbusy, htarget⟩ := (s.dev.start tag).beginChange_leaves (c := ⟨tag, s.dev.prog, c.args.getD 0 0, .held⟩) hc
    exact ⟨_, ph, exec_cmdProgramme hr hc hp hne hu hm, hprog, hbusy, htarget⟩
  · refine ⟨s.after (fun d => { d.wr STARCH.AVS_READ 0 0 mv with
      arch := { d.arch with prog := some { c with phase := .walk d.timebase } } }), ?_, rfl⟩
    change execVddCoreSettled mv s = _
    refine stay_eq_after ?_
    simp only [hp, hph]
    rw [if_pos ⟨h1, h2, ht⟩, if_neg (show ¬(s.dev.wr STARCH.AVS_READ 0 0 mv).mode = .boot from hb), if_pos hlt]
    rfl
  · change execProgTapWalkStep s = _
    have hw : c.phase.walkedAt = some t0 := by rcases hph with h | h <;> rw [h] <;> rfl
    exact stay_eq_after (by simp [hp, hw, Dev.passed, frameTicks, ht])
  · refine ⟨s.after (fun d => (d.applyProg c.target).changeDone c), ?_, Dev.changeDone_prog _ c⟩
    change execProgParamApply s = _
    refine stay_eq_after ?_
    simp only [hp]
    rw [if_pos ⟨hph, ht⟩, if_neg (by omega)]
  · refine ⟨s.after (fun d => d.avsFail c), ?_, Dev.avsFail_prog _ c⟩
    change execAvsTimeout s = _
    refine stay_eq_after ?_
    simp only [hp, hph]
    rw [if_neg (by simpa [msTicks] using ht), if_neg hb]

end Sys2Proof.Machine

end

section

/-! PROOFS. Commands taken, state commands, flash and journal writes. -/

set_option Elab.async false

namespace Sys2Proof.Machine

/-- A command of a known code whose tag is free is taken from its basket. -/
theorem Dev.takeItem_known {d : Dev} {ws : List Nat} (ht : d.tagUsed (ws.headD 0 % 4096) = false)
    (hk : knownCode (ws.headD 0 / 2 ^ 20 % 256) = true) :
    (d.takeItem ws).host.inflight = d.host.inflight ++ [Inflight.ofItem ws] ∧ ((d.takeItem ws).basket 0).items = (d.basket 0).items.drop 1 := by
  have hused : (d.setBasket 0 { d.basket 0 with items := (d.basket 0).items.drop 1 }).tagUsed (Inflight.ofItem ws).tag = false := ht
  have hknown : knownCode (Inflight.ofItem ws).code = true := hk
  unfold Dev.takeItem
  simp only [hused, hknown, Bool.true_or, Bool.false_eq_true, if_false, if_true]
  exact ⟨rfl, congrArg Basket.items (d.basket_setBasket 0 _)⟩

/-- CMD_FLASH_WRITE with no write under way starts one. -/
theorem exec_cmdFlashWrite {s : State} {tag : Fin 4096} {c : Inflight} (hr : s.dev.ready 12 tag = some c) (hbad : flashArgsBad c.args = false)
    (hj : s.dev.host.flashJob = none) : exec (.cmdFlashWrite tag) s = .next (s.after (fun d =>
      ({ d.start tag with host := { (d.start tag).host with flashJob := some (tag.val, c.args.getD 0 0, c.args.getD 3 0) } }).emit
        (.flashWrite (c.args.getD 0 0) (c.args.getD 3 0)))) := by
  refine (unlessMisuse_of_eq_none (argMisuse_of_ready hr hbad)).trans (stay_eq_after ?_)
  rw [Dev.startCmd_of_ready hr]
  have hj' : (s.dev.start tag).host.flashJob = none := hj
  simp only [hj', Option.isSome_none, Bool.false_eq_true, if_false]

theorem Dev.complete_flashJob (d : Dev) (tag : Nat) (st : Status) (res : List Nat) (ab : Bool) :
    (d.complete tag st res ab).host.flashJob = d.host.flashJob := by
  have h : Part.host.same d (d.complete tag st res ab) := (d.framed_complete tag st res ab).2 .host (by simp)
  exact (congrArg HostSt.flashJob h).trans rfl

theorem Dev.raise_flashJob (d : Dev) (p : Page) (n b : Nat) : (d.raise p n b).host.flashJob = d.host.flashJob := by rw [d.raise_other p n b]

theorem Dev.raise_journalJob (d : Dev) (p : Page) (n b : Nat) : (d.raise p n b).host.journalJob = d.host.journalJob := by
  rw [d.raise_other p n b]

/-- Settles O3: the command in flight, the state commanded, the flash and journal jobs. -/
theorem commandAndFlashRowsComplete : Obligations.CommandAndFlashRowsComplete := by
  intro s
  refine ⟨fun ws hn hh ht hk => ?_, fun tag c hc ha => ?_, fun tag c hr hbad hj => ⟨_, exec_cmdFlashWrite hr hbad hj, rfl, rfl⟩,
    fun ok x hj => ?_, fun ok x r hj => ?_⟩
  · refine ⟨s.after (fun d => d.takeItem ws), ?_, Dev.takeItem_known ht hk⟩
    exact (unlessMisuse_of_eq_none (by simp only [hn]; exact if_pos hh)).trans (stay_eq_after (by simp only [hn]))
  · exact (unlessMisuse_of_eq_none (by simp only [hc]; exact if_neg (by omega))).trans (shift_eq_afterShift (by simp only [hc]))
  · obtain ⟨tag, a, l⟩ := x
    let d1 : Dev := { s.dev with host := { s.dev.host with flashJob := none } }
    refine ⟨s.after (fun _ => (if ok then d1 else d1.raise .dev 0 11).complete tag .ok), ?_, ?_⟩
    · change execFlashWriteDone ok s = _
      exact stay_eq_after (by simp only [hj]; rfl)
    · refine (Dev.complete_flashJob _ _ _ _ _).trans ?_
      cases ok with
      | true => rfl
      | false => exact Dev.raise_flashJob d1 .dev 0 11
  · let d1 : Dev := { s.dev with host := { s.dev.host with journalJob := r } }
    have hx : exec (.journalWriteDone ok) s = .next (s.after (fun _ => if ok then d1 else d1.raise .dev 0 11)) := by
      change execJournalWriteDone ok s = _
      exact stay_eq_after (by simp only [hj]; rfl)
    refine ⟨_, hx, ?_, fun hok => ?_⟩
    · cases ok with
      | true => rfl
      | false => exact Dev.raise_journalJob d1 .dev 0 11
    · subst hok
      exact Dev.evt_raise d1 .dev 0 11

end Sys2Proof.Machine

end

section

/-! PROOFS. Host accesses. -/

set_option Elab.async false

namespace Sys2Proof.Machine

/-! ### WALLCLOCK -/

theorem wordMask_wallclock : wordMask .dev 0 0x74 = 2 ^ 32 - 1 := by decide

theorem guard_wallclock : ∀ f ∈ fieldsOf .dev, f.inWord 0x74 ≠ [] → f.guard = .none := by decide

theorem busMisuse_wallclock (d : Dev) {v : Nat} (hv : v < 2 ^ 32) : d.busMisuse 0x74 v = none := by
  have h : d.busMisuse 0x74 v = d.wordMisuse .dev 0 0x74 v := rfl
  rw [h]
  refine d.wordMisuse_eq_none_of_guard ?_ guard_wallclock
  rw [wordMask_wallclock, Nat.and_two_pow_sub_one_eq_mod]
  exact Nat.mod_eq_of_lt hv

/-- A 32-bit write of WALLCLOCK is a write of its word. -/
theorem busWrite_wallclock (d : Dev) (v : Nat) : d.busWrite 0x74 v = d.writeFields 0x74 .dev 0 0x74 v := rfl

theorem exec_registerWrite_wallclock {s : State} (h : s.dev.host.resetLow = false) (v : BitVec 64) :
    exec (.registerWrite 0x74 2 v) s = .next (s.afterShift (fun d => d.writeFields 0x74 .dev 0 0x74 (v.toNat % 2 ^ 32))) := by
  have hx : exec (.registerWrite 0x74 2 v) s =
      unlessMisuse (s.dev.busMisuse 0x74 (v.toNat % 2 ^ 32)) (shift s (fun d => d.busWrite 0x74 (v.toNat % 2 ^ 32))) := by
    change execRegisterWrite 0x74 2 v s = _
    unfold execRegisterWrite
    rw [if_neg (by simp [h]), if_neg (by decide), if_pos (by decide)]
    rfl
  rw [hx]
  exact (unlessMisuse_of_eq_none (busMisuse_wallclock _ (by omega))).trans (shift_eq_afterShift (busWrite_wallclock _ _))

/-! ### MSI-X -/

theorem Dev.msixSend_unmasked {d : Dev} {v : Nat} (hp : d.host.perst = false) (hm : (d.msixWord (4 * v + 3)).testBit 0 = false) :
    d.msixSend v = d.emit (.msix v) := by
  simp [Dev.msixSend, hp, hm]

/-- The word of a vector with its mask bit cleared. -/
def Dev.unmasked (d : Dev) (v : Nat) : Dev :=
  { d with host := { d.host with msixTable := FMap.set 0 d.host.msixTable (4 * v + 3) (0 ^^^ msixReset (4 * v + 3)) } }

theorem Dev.unmasked_msixWord (d : Dev) (v : Nat) : (d.unmasked v).msixWord (4 * v + 3) = 0 := by
  simp [Dev.unmasked, Dev.msixWord]

/-- A pending vector unmasked is sent. -/
theorem exec_msixUnmask {s : State} {v : Fin 128} (hl : s.dev.host.resetLow = false) (hp : s.dev.host.perst = false)
    (hm : (s.dev.msixWord (4 * v.val + 3)).testBit 0 = true) (hpend : FMap.get false s.dev.host.msixPend v = true) :
    exec (.msixUnmask v) s = .next (s.after (fun d =>
      ({ d.unmasked v with host := { (d.unmasked v).host with msixPend := FMap.set false d.host.msixPend v false } }).emit (.msix v.val))) := by
  refine stay_whenDev_eq_after (by simp [hl, hm]) ((if_pos hpend).trans ?_)
  refine Dev.msixSend_unmasked hp ?_
  exact (congrArg (Nat.testBit · 0) (s.dev.unmasked_msixWord v)).trans rfl

/-- Settles O2: WALLCLOCK by its word, TIMEBASE_LO by what it latches and answers, soft resets by their flag, vectors by what is sent. -/
theorem hostAccessesComplete : Obligations.HostAccessesComplete := by
  intro s hl
  refine ⟨fun v => ⟨_, exec_registerWrite_wallclock hl v, ?_⟩, ⟨_, stay_whenDev _ (by simp [hl]), Dev.rd_wr_same _ _ _ _ _, rfl⟩,
    fun addr v p inst hsoft hw hv hm => ?_, fun addr p inst hsoft hon => ?_, fun v hm h2 hor hp hmask => ?_, fun v hp hm hpend => ?_⟩
  · refine (s.dev.writeFields_rd (g := DEV.WALLCLOCK) 0x74 _ (by decide) (by decide) (by decide) (by omega)).trans ?_
    show v.toNat % 2 ^ 32 / 2 ^ 0 % 2 ^ 32 = _
    omega
  · refine ⟨s.afterShift (fun d => d.softStart (addr.val / 4 * 4) p inst v.toNat), ?_, Dev.on_wr_one _ (HDR.SOFT_RESET p) inst 0⟩
    change execSoftResetWrite addr v s = _
    unfold execSoftResetWrite
    rw [hsoft]
    exact (unlessMisuse_of_eq_none hm).trans (shift_whenDev _ (by simp [hw, hv]))
  · change execSoftResetDone addr s = _
    unfold execSoftResetDone
    rw [hsoft]
    exact shift_whenDev _ hon
  · refine ⟨s.after (fun d => d.emit (.msix v.toNat)), ?_, rfl⟩
    exact (unlessMisuse_of_eq_none hm).trans (stay_whenDev_eq_after (by simp [hl, h2, hor]) (Dev.msixSend_unmasked hp hmask))
  · refine ⟨_, exec_msixUnmask hl hp hm hpend, rfl, ?_, FMap.get_set_same false s.dev.host.msixPend v.val false⟩
    exact (congrArg (Nat.testBit · 0) (s.dev.unmasked_msixWord v)).trans rfl

end Sys2Proof.Machine

end

section

/-! PROOFS. Commands that are not legal. -/

set_option Elab.async false

namespace Sys2Proof.Machine

/-! ### CMD_REJECT through a completion -/

/-- An item put into a ring leaves the count of refused commands. -/
theorem Dev.cplDrain_reject (ws : List (List Nat)) (d : Dev) : (Dev.cplDrain ws d).rd DEV.CMD_REJECT = d.rd DEV.CMD_REJECT := by
  induction ws generalizing d with
  | nil => rfl
  | cons w ws ih =>
    unfold Dev.cplDrain
    split
    · rw [ih]
      exact ((Dev.ringPut_signals [] d 0 w (by omega)).trans (Dev.msixSend_signals [] _ 0)).rd DEV.CMD_REJECT 0 0 (by decide) (by omega) (by omega)
    · rfl

theorem Dev.countInflight_reject (d : Dev) : d.countInflight.rd DEV.CMD_REJECT = d.rd DEV.CMD_REJECT := by
  rw [Dev.countInflight, Dev.rd_wr_other _ HOSTQ.CPL_WAIT DEV.CMD_REJECT 0 0 0 0, Dev.rd_wr_other _ DEV.CMD_INFLIGHT DEV.CMD_REJECT 0 0 0 0]

theorem Dev.cplPush_reject (d : Dev) (c : Inflight) (st : Status) (ab : Bool) (res : List Nat) :
    (d.cplPush c st ab res).rd DEV.CMD_REJECT = (d.countStatus st).rd DEV.CMD_REJECT := by
  unfold Dev.cplPush
  dsimp only
  split
  · exact Dev.countInflight_reject _
  · rw [Dev.countInflight_reject, Dev.cplDrain_reject]

theorem Dev.countWrongState_reject (d : Dev) :
    (d.countStatus .wrongState).rd DEV.CMD_REJECT = min (2 ^ DEV.CMD_REJECT.width - 1) (d.rd DEV.CMD_REJECT + 1) := by
  rw [Dev.countStatus, Dev.rd_raise_other _ .dev 0 0 DEV.CMD_REJECT 0 0, Dev.rd_inc_same]

/-- The count has reached a value, or its end. -/
def Dev.rejectsFrom (d : Dev) (k : Nat) : Prop := min (2 ^ DEV.CMD_REJECT.width - 1) k ≤ d.rd DEV.CMD_REJECT

theorem Dev.rejectsFrom_cplPushes (cs : List Inflight) {d : Dev} {k : Nat} (h : d.rejectsFrom k) :
    (cs.foldl (fun e x => e.cplPush x .wrongState false []) d).rejectsFrom k := by
  induction cs generalizing d with
  | nil => exact h
  | cons c cs ih =>
    refine ih ?_
    unfold Dev.rejectsFrom at h ⊢
    rw [Dev.cplPush_reject, Dev.countWrongState_reject]
    omega

/-- A completion with WRONG_STATE is counted, at least once. -/
theorem Dev.complete_wrongState_reject {d : Dev} {tag : Nat} {c : Inflight} (h : d.findCmd tag = some c) :
    (d.complete tag .wrongState).rejectsFrom (d.rd DEV.CMD_REJECT + 1) := by
  unfold Dev.complete
  rw [h]
  unfold Dev.rejectsFrom
  dsimp only
  rw [Dev.countInflight_reject]
  refine Dev.rejectsFrom_cplPushes _ ?_
  unfold Dev.rejectsFrom
  refine Nat.le_of_eq (Eq.symm (Eq.trans ?_ (Dev.countWrongState_reject (d.retire tag))))
  exact Dev.cplPush_reject (d.retire tag) c .wrongState false []

/-! ### A completion with WRONG_STATE -/

/-- CMD_REJECTED is shown, the count goes on, the command is gone, and nothing else changes. -/
theorem Dev.rejected_leaves {d : Dev} {tag : Nat} {c : Inflight} (h : d.findCmd tag = some c) :
    ((d.complete tag .wrongState).rd (HDR.EVT_STATUS .dev)).testBit 0 = true ∧
      min (2 ^ DEV.CMD_REJECT.width - 1) (d.rd DEV.CMD_REJECT + 1) ≤ (d.complete tag .wrongState).rd DEV.CMD_REJECT ∧
      (∀ x ∈ (d.complete tag .wrongState).host.inflight, x.tag ≠ c.tag) ∧
      d.framed completionPlaces [.signals, .commands] (d.complete tag .wrongState) := by
  have hsends := Dev.complete_sends h .wrongState [] false
  have htag : c.tag = tag := by simpa using List.find?_some h
  refine ⟨hsends.evts .dev 0 0 (by omega) (by omega) (Dev.evt_raise _ .dev 0 0), Dev.complete_wrongState_reject h, fun x hx => ?_, ?_⟩
  · have hm := List.find?_eq_none.mp (d.findCmd_complete tag .wrongState [] false) x hx
    rw [htag]
    simpa using hm
  · exact (d.framed_complete tag .wrongState [] false).drop (p := .pair) (hsends.pair.trans (Dev.countWrongState_sends (d.retire tag)).pair)

/-! ### The start of a command that is not legal -/

section

variable {s : State} {tag : Fin 4096} {c : Inflight}

theorem Dev.ready_of_illegal (hl : legalIn c.code s.dev.mode = false) : s.dev.ready c.code tag = none := by
  cases h : s.dev.ready c.code tag with
  | none => rfl
  | some x =>
    obtain ⟨-, -, hx⟩ := Dev.ready_eq_some h
    rw [hl] at hx
    contradiction

theorem Dev.startCmd_of_illegal (hf : s.dev.findCmd tag = some c) (hs : c.started = false) (hw : s.dev.waits c = false)
    (hl : legalIn c.code s.dev.mode = false) (run : Inflight → Dev → Dev) :
    s.dev.startCmd c.code tag run = s.dev.complete tag .wrongState := by
  simp [Dev.startCmd, hf, hs, hw, hl]

/-- Whatever its arguments and its effect, the start is the completion with WRONG_STATE. -/
theorem exec_of_illegal (hf : s.dev.findCmd tag = some c) (hs : c.started = false) (hw : s.dev.waits c = false)
    (hl : legalIn c.code s.dev.mode = false) {m : Option Misuse} (hm : s.dev.ready c.code tag = none → m = none) (run : Inflight → Dev → Dev) :
    unlessMisuse m (stay s (fun d => d.startCmd c.code tag run)) = .next (s.after (fun d => d.complete tag .wrongState)) :=
  (unlessMisuse_of_eq_none (hm (Dev.ready_of_illegal hl))).trans (stay_eq_after (Dev.startCmd_of_illegal hf hs hw hl run))

theorem argMisuse_of_not_ready {code : Nat} (bad : List Nat → Bool) (h : s.dev.ready code tag = none) : argMisuse s code tag bad = none := by
  simp [argMisuse, h]

end

/-- Settles O40: each of the nine is the completion with WRONG_STATE. -/
theorem illegalCommandsAreRejected : Obligations.IllegalCommandsAreRejected := by
  intro s tag c hf hs hw hl i hi hcode
  suffices h : exec i.2 s = .next (s.after (fun d => d.complete tag .wrongState)) by
    obtain ⟨hevt, hcount, hgone, hframe⟩ := Dev.rejected_leaves hf
    exact ⟨_, h, hevt, hcount, hgone, Dev.framed_clock _ _ hframe⟩
  have hrej := fun (m : Option Misuse) hm run => exec_of_illegal hf hs hw hl (m := m) hm run
  rw [← hcode] at hrej
  simp only [List.mem_cons, List.not_mem_nil, or_false] at hi
  rcases hi with rfl | rfl | rfl | rfl | rfl | rfl | rfl | rfl | rfl
  · exact hrej _ (argMisuse_of_not_ready _) _
  · exact hrej _ (fun h => by simp only [argMisuse_of_not_ready _ h, h]) _
  · exact hrej _ (argMisuse_of_not_ready _) _
  · exact hrej _ (argMisuse_of_not_ready _) _
  · exact hrej _ (argMisuse_of_not_ready _) _
  · exact hrej _ (argMisuse_of_not_ready _) _
  · exact hrej _ (fun h => by simp [h]) _
  · exact hrej _ (argMisuse_of_not_ready _) _
  · exact hrej _ (argMisuse_of_not_ready _) _

end Sys2Proof.Machine

end

section

/-! PROOFS. Writes that reach no field. -/

set_option Elab.async false

namespace Sys2Proof.Machine

/-! ### Reserved offsets -/

theorem Dev.busMisuse_reserved (d : Dev) {a : Nat} (h : region a = .reserved) (v : Nat) :
    d.busMisuse a v = if v = 0 then none else some .reservedWrite := by
  simp [Dev.busMisuse, Dev.ownRow, h]

theorem Dev.busWrite_reserved (d : Dev) {a : Nat} (h : region a = .reserved) (v : Nat) : d.busWrite a v = d := by
  simp [Dev.busWrite, Dev.ownRow, h]

theorem Dev.busRead_reserved (d : Dev) {a : Nat} (h : region a = .reserved) : d.busRead a = 0 := by
  simp [Dev.busRead, h]

/-- A 32-bit write goes to the word that holds its address. -/
theorem exec_registerWrite_word {s : State} (hl : s.dev.host.resetLow = false) (addr : Fin 67108864) (v : BitVec 64) :
    exec (.registerWrite addr 2 v) s =
      unlessMisuse (s.dev.busMisuse (addr.val / 4 * 4) (v.toNat % 2 ^ 32))
        (shift s (fun d => d.busWrite (addr.val / 4 * 4) (v.toNat % 2 ^ 32))) := by
  change execRegisterWrite addr 2 v s = _
  unfold execRegisterWrite
  rw [if_neg (by simp [hl]), if_neg (by decide), if_pos (by decide)]

/-! ### Accesses of 8 or 16 bits -/

theorem exec_registerWrite_subword {s : State} (hl : s.dev.host.resetLow = false) (addr : Fin 67108864) {size : Fin 4} (hs : size.val < 2)
    (v : BitVec 64) : exec (.registerWrite addr size v) s = .next (s.afterShift (fun d => d.busErr DEV.SUBWORD addr)) := by
  change execRegisterWrite addr size v s = _
  unfold execRegisterWrite
  rw [if_neg (by simp [hl]), if_pos hs]
  exact shift_eq_afterShift rfl

theorem Dev.busErr_leaves (d : Dev) (a : Nat) :
    (d.busErr DEV.SUBWORD a).on DEV.SUBWORD = true ∧ (d.busErr DEV.SUBWORD a).rd DEV.BUS_ADDR = a % 2 ^ DEV.BUS_ADDR.width ∧
      ((d.busErr DEV.SUBWORD a).rd (HDR.EVT_STATUS .dev)).testBit 3 = true ∧
      d.framed (fieldsAll [DEV.SUBWORD, DEV.BUS_ADDR] ++ eventAt .dev 0) [.signals] (d.busErr DEV.SUBWORD a) := by
  refine ⟨?_, ?_, Dev.evt_raise _ .dev 0 3, ?_⟩
  · rw [Dev.on, Dev.busErr, Dev.rd_raise_other _ .dev 0 3 DEV.SUBWORD 0 0, Dev.rd_wr_other _ DEV.BUS_ADDR DEV.SUBWORD 0 0 0 0, Dev.rd_wr_same]
    rfl
  · rw [Dev.busErr, Dev.rd_raise_other _ .dev 0 3 DEV.BUS_ADDR 0 0, Dev.rd_wr_same]
  · exact ((d.framed_wr DEV.SUBWORD 0 0 1 (sel := fun _ _ => true) (by simp [fieldsAll]) rfl).trans
      (Dev.framed_wr _ DEV.BUS_ADDR 0 0 a (sel := fun _ _ => true) (by simp [fieldsAll]) rfl)).trans
      ((Dev.framed_raise _ .dev 0 3).mono (fun _ h => List.mem_append_right _ h) (fun _ h => h))

/-- Settles O35: reserved offsets by their region, accesses of 8 and 16 bits by the error they note. -/
theorem writesThatReachNoField : Obligations.WritesThatReachNoField := by
  intro s addr size v hl
  refine ⟨fun hr => ⟨fun hv => ?_, fun hv => ?_, s.dev.busRead_reserved hr⟩, fun hs => ?_⟩
  · rw [exec_registerWrite_word hl, s.dev.busMisuse_reserved hr, if_neg hv]
    rfl
  · rw [exec_registerWrite_word hl, s.dev.busMisuse_reserved hr, if_pos hv]
    exact (shift_eq_afterShift (f := fun d => d.busWrite (addr.val / 4 * 4) (v.toNat % 2 ^ 32)) (g := id) (s.dev.busWrite_reserved hr _)).trans rfl
  · obtain ⟨hon, haddr, hevt, hframe⟩ := s.dev.busErr_leaves addr
    exact ⟨_, exec_registerWrite_subword hl addr hs v, hon, haddr, hevt, Dev.framed_clock _ _ hframe⟩

end Sys2Proof.Machine

end

section

/-! PROOFS. Stores through the aperture. -/

set_option Elab.async false

namespace Sys2Proof.Machine

/-! ### The addresses of a store -/

/-- Bytes of one store whose ends are writable lie outside the delay records. -/
theorem Dev.not_delay_of_laWritable {d : Dev} {la n i : Nat} (h0 : d.laWritable la = true) (h1 : d.laWritable (la + (n - 1)) = true)
    (hn : n ≤ 4096) (hi : i < n) : ¬(8 * gib ≤ la + i ∧ la + i < 72 * gib) := by
  simp only [Dev.laWritable, Bool.or_eq_true, decide_eq_true_eq] at h0 h1
  simp only [recBase, gib] at h0 h1 ⊢
  omega

theorem Dev.apertureByte_of_not_delay {d : Dev} {la : Nat} (h : ¬(8 * gib ≤ la ∧ la < 72 * gib)) : d.apertureByte la = d.ddrByte la :=
  if_neg (fun hc => h ⟨hc.1, hc.2.1⟩)

/-- A byte stored is read. -/
theorem Dev.ddrWrite_byte_within (d : Dev) (la : Nat) (data : List Byte) {i : Nat} (h : i < data.length) :
    (d.ddrWrite la (data.map (fun b => b.toNat))).ddrByte (la + i) = data[i].toNat := by
  rw [Dev.ddrWrite_byte, if_pos (by simpa using h), Nat.add_sub_cancel_left, List.getD_eq_getElem?_getD, List.getElem?_map,
    List.getElem?_eq_getElem h]
  exact Nat.mod_eq_of_lt data[i].isLt

/-- Bytes stored are read back through the aperture. -/
theorem Dev.apertureData_ddrWrite {d : Dev} {la : Nat} {data : List Byte} (h0 : d.laWritable la = true)
    (h1 : d.laWritable (la + (data.length - 1)) = true) (hl : data.length ≤ 4096) :
    (d.ddrWrite la (data.map (fun b => b.toNat))).apertureData la data.length = data.map (fun b => b.toNat) := by
  refine List.ext_getElem (by simp [Dev.apertureData]) (fun i hi _ => ?_)
  have hi' : i < data.length := by simpa [Dev.apertureData] using hi
  simp only [Dev.apertureData, List.getElem_map, List.getElem_range]
  rw [Dev.apertureByte_of_not_delay (Dev.not_delay_of_laWritable h0 h1 hl hi'), Dev.ddrWrite_byte_within d la data hi']

/-! ### The read -/

/-- A read within the store that is online, with no remap and no error, gives its bytes. -/
theorem exec_apertureRead_online {s : State} {off : Fin 1073741824} {len : Fin 4097} (hb : s.dev.on HAMPER.WIN_BUSY = false)
    (ho : s.dev.hamperOnline = true) (hc : s.dev.apertureLa off + len ≤ s.dev.capacity) :
    ∃ r, exec (.apertureRead off len false) s = .next r ∧
      r.dev.host.out = .readData (s.dev.apertureData (s.dev.apertureLa off) len) :: s.dev.host.out := by
  refine ⟨_, (exec_apertureRead off len false hb).trans (congrArg Host.Outcome.next (State.after_congr
    (g := fun d => d.emit (.readData (d.apertureData (d.apertureLa off) len))) ?_)), rfl⟩
  rw [if_neg (by simp [ho]), if_neg (by omega), if_neg (by decide)]

/-- Settles O46: the bytes of a store whose ends are writable, read through the aperture and one by one. -/
theorem apertureStores : Obligations.ApertureStores := by
  intro s off data hne hl hb ho hc h0 h1
  have hpos : 0 < data.length := List.length_pos_iff.mpr hne
  refine ⟨s.after (fun d => d.ddrWrite (d.apertureLa off) (data.map (fun b => b.toNat))), ?_, fun len hlen => ?_, fun a ha => ?_,
    s.dev.ddrWrite_wf _ _⟩
  · refine (exec_apertureWrite off data hb ho (by omega)).trans (congrArg Host.Outcome.next (State.after_congr ?_))
    rw [if_pos (by rw [h0, h1]; rfl)]
  · obtain ⟨r, hr, hout⟩ := exec_apertureRead_online (s := s.after (fun d => d.ddrWrite (d.apertureLa off) (data.map (fun b => b.toNat))))
      (off := off) (len := len) hb ho (hlen ▸ hc)
    refine ⟨r, hr, hout.trans ?_⟩
    rw [hlen]
    exact congrArg (fun x => Output.readData x :: s.dev.host.out) (Dev.apertureData_ddrWrite h0 h1 hl)
  · refine (s.dev.ddrWrite_byte _ _ a).trans (if_neg ?_)
    rw [List.length_map]
    omega

end Sys2Proof.Machine

end

section

/-! PROOFS. Resets, straps and BOOT. -/

set_option Elab.async false

namespace Sys2Proof.Machine

/-! ### RESET_N -/

theorem Dev.complete_free (d : Dev) (tag : Nat) : (d.complete tag .wrongState [] true).free = d.free := by
  have h : Part.free.same d (d.complete tag .wrongState [] true) := (d.framed_complete tag .wrongState [] true).2 .free (by simp)
  exact h

/-- Completing the commands that RESET ends takes none of the model's choices. -/
theorem Dev.abortIllegal_free (d : Dev) : d.abortIllegal.free = d.free :=
  foldl_keeps Dev.free (fun (e : Dev) (c : Inflight) => e.complete c.tag .wrongState [] true) (fun e c => e.complete_free c.tag) _ d

theorem Dev.showIdle_free (d : Dev) : d.showIdle.free = d.free := by
  unfold Dev.showIdle
  split <;> rfl

theorem exec_resetNLow_device {s : State} (h : s.dev.host.resetLow = false) : ∃ t, exec .resetNLow s = .next t ∧ t.dev.host.resetLow = true ∧
    { t.dev with host := HostSt.reset } = { Dev.reset with timebase := s.dev.timebase, free := s.dev.free, host := HostSt.reset } := by
  have hfree : (({ s.dev with mode := .reset } : Dev).abortIllegal.showIdle).free = s.dev.free :=
    (Dev.showIdle_free _).trans (Dev.abortIllegal_free _)
  refine ⟨_, (exec_resetNLow s h).trans (shift_eq s _), rfl, ?_⟩
  generalize ({ s.dev with mode := .reset } : Dev).abortIllegal.showIdle = e at hfree ⊢
  rw [← hfree]
  rfl

/-! ### BOOT -/

theorem Dev.latchStraps_leaves (d : Dev) (pcie test src role : Nat) : (d.latchStraps pcie test src role).mode = .boot ∧
    (d.latchStraps pcie test src role).rd DEV.BOOT_STEP = 1 ∧ (d.latchStraps pcie test src role).host.boot.reading = .sfdp :=
  ⟨rfl, (Dev.rd_wr_same _ _ _ _ _).trans rfl, rfl⟩

theorem Dev.bootRecord_leaves (d : Dev) (step : Nat) : (d.bootRecord step).rd DEV.BOOT_STEP = step % 16 ∧
    (d.bootRecord step).host.boot = { d.host.boot with reading := .record d.host.boot.use, since := d.timebase } ∧
    (d.bootRecord step).lint = d.lint :=
  ⟨Dev.rd_wr_same _ _ _ _ _, rfl, rfl⟩

/-- A header read is noted for its copy. -/
def Dev.noteHdr (d : Dev) (copy : Bool) (dir : Option (List DirEntry)) : Dev :=
  (d.modBoot (fun b => if copy then { b with hdrB := some dir.isSome, dirB := dir.getD [] }
    else { b with hdrA := some dir.isSome, dirA := dir.getD [] })).showHdr

theorem Dev.noteHdr_step (d : Dev) (copy : Bool) (dir : Option (List DirEntry)) : (d.noteHdr copy dir).rd DEV.BOOT_STEP = d.rd DEV.BOOT_STEP := by
  rw [Dev.noteHdr, Dev.showHdr, Dev.rd_flag_other _ DEV.HDR_B_BAD DEV.BOOT_STEP 0 0 0 0, Dev.rd_flag_other _ DEV.HDR_A_BAD DEV.BOOT_STEP 0 0 0 0]
  rfl

theorem Dev.noteHdr_same (d : Dev) (copy : Bool) (dir : Option (List DirEntry)) :
    (d.noteHdr copy dir).host.boot.hdr copy = some dir.isSome := by
  cases copy <;> rfl

theorem Dev.noteHdr_other (d : Dev) (copy : Bool) (dir : Option (List DirEntry)) :
    (d.noteHdr copy dir).host.boot.hdr (!copy) = d.host.boot.hdr (!copy) := by
  cases copy <;> rfl

/-- The first good header: its copy is used from step 3 on. -/
theorem Dev.headerRead_good {d : Dev} {copy : Bool} (hs : d.rd DEV.BOOT_STEP = 2) (es : List DirEntry) :
    (d.headerRead copy (some es)).rd DEV.BOOT_STEP = 3 ∧ (d.headerRead copy (some es)).host.boot.reading = .record copy ∧
      (d.headerRead copy (some es)).host.boot.hdr copy = some true := by
  have hx : d.headerRead copy (some es) = ((d.noteHdr copy (some es)).modBoot (fun b => { b with use := copy })).bootRecord 3 :=
    (if_pos ((d.noteHdr_step copy (some es)).trans hs)).trans (if_pos rfl)
  obtain ⟨hstep, hboot, -⟩ := Dev.bootRecord_leaves ((d.noteHdr copy (some es)).modBoot (fun b => { b with use := copy })) 3
  rw [hx]
  refine ⟨hstep, ?_, ?_⟩
  · rw [hboot]
    rfl
  · rw [hboot]
    exact d.noteHdr_same copy (some es)

/-- The first header bad: the other copy's is read. -/
theorem Dev.headerRead_bad {d : Dev} {copy : Bool} (hs : d.rd DEV.BOOT_STEP = 2) (ho : d.host.boot.hdr (!copy) = none) :
    (d.headerRead copy none).host.boot.reading = .header (!copy) ∧ (d.headerRead copy none).host.boot.hdr copy = some false := by
  have hnone : ((d.noteHdr copy none).host.boot.hdr (!copy)).isNone = true := by rw [d.noteHdr_other copy none, ho]; rfl
  have hx : d.headerRead copy none = (d.noteHdr copy none).bootRead (.header (!copy)) :=
    (if_pos ((d.noteHdr_step copy none).trans hs)).trans ((if_neg Bool.false_ne_true).trans (if_pos hnone))
  rw [hx]
  exact ⟨rfl, d.noteHdr_same copy none⟩

/-- BIST_REFS taken: the next step, and the revision of the references. -/
theorem Dev.recordRead_refs {d : Dev} {copy : Bool} {e : DirEntry} {ws bs : List Nat} {crc : Nat} {signed sig : Bool}
    (hs : d.rd DEV.BOOT_STEP = 6) (he : d.host.boot.entry copy 4 = some e) (hb : recordBody e ws = some (bs, crc, signed))
    (hl : bs.length = 1648) :
    (d.recordRead copy ws sig).rd DEV.BOOT_STEP = 7 ∧ (d.recordRead copy ws sig).lint.refsRev = some (bytesAt bs 0 1) := by
  have hbody : (d.host.boot.entry copy (recordType 6)).bind (fun e => recordBody e ws) = some (bs, crc, signed) := by
    rw [show recordType 6 = 4 from rfl, he]
    exact hb
  unfold Dev.recordRead
  simp only [hs, hbody, Dev.recordLoad, if_pos hl]
  exact ⟨(Dev.bootRecord_leaves _ 7).1, rfl⟩

/-! ### PERST -/

theorem Dev.framed_flushBasket (d : Dev) {i : Nat} (hi : i < 14) :
    d.framed (fieldsAll [HOSTQ.IN_GEN, HOSTQ.IN_CREDIT, NDL.QUEUE]) [.baskets, .needle] (d.flushBasket i) := by
  have hset : d.framed (fieldsAll [HOSTQ.IN_GEN, HOSTQ.IN_CREDIT, NDL.QUEUE]) [.baskets, .needle] (d.setBasket i Basket.empty) := by
    refine Dev.framed.trans (Dev.framed_parts (t := { d with host := { d.host with
      baskets := FMap.set Basket.empty d.host.baskets i Basket.empty } }) rfl (fun p hp => ?_))
      (Dev.framed_wr _ HOSTQ.IN_CREDIT 0 i _ (sel := fun _ _ => true) (by simp [fieldsAll]) rfl)
    cases p <;> simp [Part.same] at hp ⊢
  have hgen := hset.trans (Dev.framed_wr _ HOSTQ.IN_GEN 0 i (nextGen (d.rd HOSTQ.IN_GEN 0 i)) (sel := fun _ _ => true) (by simp [fieldsAll]) rfl)
  have heng : ∀ (d : Dev) (e : Nat) (x : EngineSt), e < 65536 →
      d.framed (fieldsAll [HOSTQ.IN_GEN, HOSTQ.IN_CREDIT, NDL.QUEUE]) [.baskets, .needle] (d.setEngine e x) := fun d e x he => by
    refine Dev.framed.trans (Dev.framed_parts (t := { d with needle := { d.needle with
      engines := FMap.set EngineSt.reset d.needle.engines e x } }) rfl (fun p hp => ?_))
      (Dev.framed_wr _ NDL.QUEUE e 0 _ (sel := fun _ _ => true) (by simp [fieldsAll]) rfl)
    cases p <;> simp [Part.same] at hp ⊢
  unfold Dev.flushBasket
  dsimp only
  refine Dev.framed_ite (fun _ => hgen) (fun _ => hgen.trans (Dev.framed_foldl _ _ (fun d k hk => heng d _ _ ?_) _))
  have := List.mem_range.mp hk
  omega

/-- The device as PERST finds it: the commands that have not started are gone, the others silent. -/
def Dev.perstCut (d : Dev) : Dev :=
  { d with host := { d.host with
    perst := true
    inflight := (d.host.inflight.filter (fun c => c.started)).map (fun c => { c with silent := true })
    cplWait := []
    msixTable := []
    msixPend := [] } }

/-- The rings off. -/
def Dev.ringsOff (d : Dev) : Dev := (List.range 15).foldl (fun (d : Dev) r => d.wr HOSTQ.RING_ENABLE 0 r 0) d

theorem Dev.ringsOff_host (d : Dev) : d.ringsOff.host = d.host := by
  unfold Dev.ringsOff
  exact foldl_keeps Dev.host (fun (d : Dev) r => d.wr HOSTQ.RING_ENABLE 0 r 0) (fun d r => d.wr_host HOSTQ.RING_ENABLE 0 r 0) (List.range 15) d

theorem Dev.ringsOff_enable (d : Dev) {r : Nat} (hr : r < 15) : d.ringsOff.rd HOSTQ.RING_ENABLE 0 r = 0 := by
  have hkeep : ∀ k ∈ List.range 15, k ≠ r → ∀ d : Dev,
      (d.wr HOSTQ.RING_ENABLE 0 k 0).rd HOSTQ.RING_ENABLE 0 r = d.rd HOSTQ.RING_ENABLE 0 r := by
    intro k hk hne d
    have := List.mem_range.mp hk
    exact Dev.rd_wr_key_ne d HOSTQ.RING_ENABLE HOSTQ.RING_ENABLE 0 k 0 r 0
      (Field.key_ne HOSTQ.RING_ENABLE HOSTQ.RING_ENABLE 0 k 0 r (by omega) (by omega) (by omega) (by omega) (.inr (.inr (Ne.symm hne))))
  unfold Dev.ringsOff
  exact foldl_sets (fun d : Dev => d.rd HOSTQ.RING_ENABLE 0 r) (fun (d : Dev) k => d.wr HOSTQ.RING_ENABLE 0 k 0) (a := r)
    (fun d => (d.rd_wr_same HOSTQ.RING_ENABLE 0 r 0).trans rfl) hkeep (List.mem_range.mpr hr) d

theorem Dev.perstReset_eq (d : Dev) :
    d.perstReset = ((List.range 14).foldl (fun (d : Dev) i => d.flushBasket i) d.perstCut.ringsOff).countInflight := by
  unfold Dev.perstReset Dev.ringsOff Dev.perstCut
  rfl

theorem Dev.countInflight_host (d : Dev) : d.countInflight.host = d.host := rfl

theorem Dev.framed_flushBaskets (d : Dev) : d.framed (fieldsAll [HOSTQ.IN_GEN, HOSTQ.IN_CREDIT, NDL.QUEUE]) [.baskets, .needle]
    ((List.range 14).foldl (fun (d : Dev) i => d.flushBasket i) d) :=
  Dev.framed_foldl _ _ (fun d _ hi => d.framed_flushBasket (List.mem_range.mp hi)) d

theorem Dev.perstReset_leaves (d : Dev) : d.perstReset.host.perst = true ∧
    (∀ c ∈ d.perstReset.host.inflight, c.started = true ∧ c.silent = true) ∧ ∀ r < 15, d.perstReset.rd HOSTQ.RING_ENABLE 0 r = 0 := by
  have h2 := d.perstCut.ringsOff_host
  have hoff := fun r => d.perstCut.ringsOff_enable (r := r)
  rw [Dev.perstReset_eq, Dev.countInflight_host]
  generalize d.perstCut.ringsOff = d2 at h2 hoff ⊢
  have h3 := d2.framed_flushBaskets
  generalize (List.range 14).foldl (fun (d : Dev) i => d.flushBasket i) d2 = d3 at h3 ⊢
  have hhost : Part.host.same d2 d3 := h3.2 .host (by simp)
  obtain ⟨hinflight, -⟩ : Part.commands.same d2 d3 := h3.2 .commands (by simp)
  refine ⟨(congrArg HostSt.perst hhost).trans (congrArg HostSt.perst h2), fun c hc => ?_, fun r hr => ?_⟩
  · rw [hinflight, h2] at hc
    obtain ⟨x, hx, rfl⟩ := List.mem_map.mp hc
    exact ⟨(List.mem_filter.mp hx).2, rfl⟩
  · rw [Dev.countInflight, Dev.rd_wr_other _ HOSTQ.CPL_WAIT HOSTQ.RING_ENABLE 0 0 0 r, Dev.rd_wr_other _ DEV.CMD_INFLIGHT HOSTQ.RING_ENABLE 0 0 0 r,
      h3.rd HOSTQ.RING_ENABLE 0 r]
    exact hoff r hr

/-! ### Conditions at the endpoint -/

theorem Dev.raise_perst (d : Dev) (p : Page) (n b : Nat) : (d.raise p n b).host.perst = d.host.perst := by rw [d.raise_other p n b]

theorem Dev.raise_pcie (d : Dev) (p : Page) (n b : Nat) :
    (d.raise p n b).host.pcieWidth = d.host.pcieWidth ∧ (d.raise p n b).host.pcieRate = d.host.pcieRate := by
  rw [d.raise_other p n b]
  exact ⟨rfl, rfl⟩

/-- As `stay_whenDev_eq_after`, for an effect that may change the device state. -/
theorem shift_whenDev_eq_afterShift {s : State} {c : Dev → Bool} {f g : Dev → Dev} (hc : c s.dev = true) (h : f s.dev = g s.dev) :
    shift s (whenDev c f) = .next (s.afterShift g) :=
  shift_eq_afterShift ((whenDev_true c f s.dev hc).trans h)

/-- Settles O1: the reset device, the straps, each read of BOOT, and the pins of the endpoint. -/
theorem resetAndBootCommandsComplete : Obligations.ResetAndBootCommandsComplete := by
  intro s
  refine ⟨exec_resetNLow_device, fun h => ?_, fun pcie test src role t0 hf hm hl ht => ?_, fun hm hr => ?_, fun copy ws hm hr hs ht hg => ?_,
    fun copy e ws bs crc signed sig hm hr hs he hb hl ht => ?_, fun es hm hr => ?_, fun copy hm hr hs ho ht => ?_, fun t0 hi ht hl => ?_,
    fun hp => ?_, fun hp hl => ?_, fun width rate aer hl hc => ?_,
    fun hl => shift_whenDev _ (by simp [hl])⟩
  · exact ⟨_, if_pos h, rfl, rfl⟩
  · obtain ⟨hmode, hstep, hread⟩ := s.dev.latchStraps_leaves pcie test src role
    refine ⟨s.afterShift (fun d => d.latchStraps pcie test src role), ?_, hmode, hstep, hread⟩
    change execStrapFilterEnd pcie test src role s = _
    refine shift_eq_afterShift ?_
    have hp : s.dev.passed t0 (msTicks 1) = true := by simpa [Dev.passed, msTicks] using ht
    simp [hf, hm, hl, hp]
  · refine ⟨s.afterShift (fun d => (d.wr DEV.BOOT_STEP 0 0 2).bootRead (.header d.firstCopy)), ?_,
      (Dev.rd_wr_same s.dev DEV.BOOT_STEP 0 0 2).trans rfl, rfl⟩
    change execFlashRecordLoaded .sfdp s = _
    exact shift_whenDev_eq_afterShift (by simp [hm]) (by simp only [hr])
  · refine ⟨s.afterShift (fun d => d.headerRead copy (some (headerDir ws))), ?_, Dev.headerRead_good hs _⟩
    change execFlashRecordLoaded (.header ws) s = _
    refine shift_whenDev_eq_afterShift (by simp [hm]) ?_
    simp only [hr, hg, if_true]
    exact if_pos (by simpa [msTicks] using ht)
  · refine ⟨s.afterShift (fun d => d.recordRead copy ws sig), ?_, Dev.recordRead_refs hs he hb hl⟩
    change execFlashRecordLoaded (.record ws sig) s = _
    refine shift_whenDev_eq_afterShift (by simp [hm]) ?_
    simp only [hr, hs, show recordType 6 = 4 from rfl, he]
    exact if_pos (decide_eq_true ht)
  · change execFlashRecordLoaded (.journal es) s = _
    exact shift_whenDev_eq_afterShift (by simp [hm]) (by simp only [hr])
  · refine ⟨s.afterShift (fun d => d.headerRead copy none), ?_, Dev.headerRead_bad hs ho⟩
    change execFlashReadTimeout s = _
    refine shift_whenDev_eq_afterShift (by simp [hm]) ?_
    simp only [hr]
    exact if_pos (by simpa [msTicks] using ht)
  · refine ⟨s.afterShift (fun d => d.internal none (some d.timebase)), ?_, rfl, rfl, rfl, rfl⟩
    change execInternalResetEnd s = _
    refine shift_eq_afterShift ?_
    have hp : s.dev.passed t0 (usTicks 10) = true := decide_eq_true ht
    simp [hi, hl, hp]
  · obtain ⟨hperst, hinflight, hoff⟩ := s.dev.perstReset_leaves
    exact ⟨s.after Dev.perstReset, stay_whenDev _ (by simp [hp]), hperst, hinflight,
      fun r hr => (s.after_rd Dev.perstReset HOSTQ.RING_ENABLE 0 r).trans (hoff r hr)⟩
  · exact ⟨_, stay_whenDev _ (by simp [hp, hl]), Dev.raise_perst _ .dev 0 4, Dev.evt_raise _ .dev 0 4⟩
  · obtain ⟨hwidth, hrate⟩ := Dev.raise_pcie
      ({ s.dev with host := { s.dev.host with pcieWidth := 2 ^ width.val, pcieRate := rate.val } } : Dev) .dev 0 12
    refine ⟨_, stay_whenDev _ ?_, Dev.evt_raise _ .dev 0 12, hwidth, hrate⟩
    rcases hc with hc | hc | hc <;> simp [hl, hc]

end Sys2Proof.Machine

end
